-- ==== Sys2Proof/Word.lean ====
section
/-! DEFINITION. The word types: bytes, the 32-bit words of registers and of Dyrel, and the 128-bit feature set. -/

namespace Sys2Proof

/-- One byte of a payload, a reply, a room or a flash. -/
abbrev Byte := BitVec 8

/-- A register of R340 or a Dyrel register of R225. -/
abbrev Word := BitVec 32

/-- A feature set of R309: bit k stands for feature k. -/
abbrev FeatSet := BitVec 128

end Sys2Proof
end

