-- ==== Sys2Proof/Config.lean ====
section
/-! DEFINITION. What the spec leaves open: free values, constants without a body, so that nothing can be proved of them. -/

namespace Sys2Proof.Config
open Sys2Proof

/-- Byte 8 of the POWER record that R52 asks for on entry to SAFE for a watchdog fault: R74 lists no subtype for it
(DESIGN CHOICE, log 4). -/
opaque wdogSubtype : Byte

/-- Values the spec does not state, one for each index; the step that needs one applies it to State's counter (DESIGN CHOICE, log 3). -/
opaque free : Nat → BitVec 32

end Sys2Proof.Config
end

