-- ==== Sys2Proof/Machine/Bits.lean ====
section
/-! DEFINITION. Byte order, bit fields, saturation, rounding, medians and integer roots, used by every other file. -/

namespace Sys2Proof.Machine
open Sys2Proof

/-! ### Bytes (R5: least significant byte first) -/

/-- `n` bytes of `v`, least significant first. -/
def le : Nat → Nat → List Byte
  | 0, _ => []
  | n + 1, v => BitVec.ofNat 8 v :: le n (v / 256)

/-- The number that bytes spell, least significant first. -/
def ofLe : List Byte → Nat
  | [] => 0
  | b :: bs => b.toNat + 256 * ofLe bs

/-- `n` bytes of `v`, most significant first (R275). -/
def be (n v : Nat) : List Byte := (le n v).reverse

/-- The number that bytes spell, most significant first. -/
def ofBe (bs : List Byte) : Nat := ofLe bs.reverse

/-- A signed number as its two's complement in `w` bits. -/
def toU (w : Nat) (i : Int) : Nat := (i % (2 : Int) ^ w).toNat

/-- The signed number that the low `w` bits of `v` spell. -/
def toS (w v : Nat) : Int :=
  let m := v % 2 ^ w
  if 2 * m < 2 ^ w then (m : Int) else (m : Int) - 2 ^ w

/-- `n` bytes of a signed number. -/
def leS (n : Nat) (i : Int) : List Byte := le n (toU (8 * n) i)

/-- One byte. -/
def b8 (v : Nat) : Byte := BitVec.ofNat 8 v

/-- Byte `i` of a payload, 0 beyond its end. -/
def byteAt (p : List Byte) (i : Nat) : Nat := (p.getD i 0).toNat

/-- `n` bytes of a payload from byte `i`, as a number. -/
def leAt (p : List Byte) (i n : Nat) : Nat := ofLe ((p.drop i).take n)

/-- `n` bytes of a payload from byte `i`, as a signed number. -/
def leAtS (p : List Byte) (i n : Nat) : Int := toS (8 * n) (leAt p i n)

/-- Bytes `i` to `i + n - 1` of a payload. -/
def slice (p : List Byte) (i n : Nat) : List Byte := (p.drop i).take n

/-- `p` with its bytes from `i` on replaced by `q`. -/
def splice (p : List Byte) (i : Nat) (q : List Byte) : List Byte := p.take i ++ q ++ p.drop (i + q.length)

/-- `n` copies of zero. -/
def zeros (n : Nat) : List Byte := List.replicate n 0

/-- A list brought to `n` bytes by cutting or by padding with `b`. -/
def fit (n : Nat) (b : Byte) (p : List Byte) : List Byte := p.take n ++ List.replicate (n - p.length) b

/-! ### Fields -/

/-- `n` bits of `v` from bit `lo`. -/
def bits (v lo n : Nat) : Nat := v / 2 ^ lo % 2 ^ n

/-- Bit `i` of `v`. -/
def bit (v i : Nat) : Bool := v / 2 ^ i % 2 == 1

/-- A flag as a number. -/
def flag (b : Bool) : Nat := if b then 1 else 0

/-- Flags packed from bit 0 up. -/
def flagsOf : List Bool → Nat
  | [] => 0
  | b :: bs => flag b + 2 * flagsOf bs

/-- A word from its fields, each with its width, from bit 0 up. -/
def pack : List (Nat × Nat) → Nat
  | [] => 0
  | (w, v) :: fs => v % 2 ^ w + 2 ^ w * pack fs

/-! ### Arithmetic -/

/-- Limits to a range. -/
def clampI (lo hi x : Int) : Int := if x < lo then lo else if hi < x then hi else x

/-- Limits to a range. -/
def clampN (lo hi x : Nat) : Nat := if x < lo then lo else if hi < x then hi else x

/-- Saturation of a signed 16-bit value. -/
def sat16 (x : Int) : Int := clampI (-32768) 32767 x

/-- Saturation of R140, which never forms 0x8000_0000. -/
def sat32 (x : Int) : Int := clampI (-2147483647) 2147483647 x

/-- A count that saturates at `m`. -/
def satAdd (m a b : Nat) : Nat := min m (a + b)

/-- Rounded up quotient. -/
def ceilDiv (a b : Nat) : Nat := (a + b - 1) / b

/-- Quotient rounded to nearest, halves away from zero. -/
def roundDiv (a : Int) (b : Nat) : Int :=
  if 0 ≤ a then (2 * a + b) / (2 * b) else -((2 * (-a) + b) / (2 * b))

/-- Quotient rounded toward zero. -/
def truncDiv (a b : Int) : Int := Int.tdiv a b

/-- Arithmetic shift right. -/
def sar (x : Int) (n : Nat) : Int := Int.fdiv x (2 ^ n)

/-- The magnitude of a signed number. -/
def absN (x : Int) : Nat := x.natAbs

/-- The integer square root, by bits from `k` down. -/
def isqrtGo : Nat → Nat → Nat → Nat
  | 0, _, r => r
  | k + 1, n, r =>
    let r' := r + 2 ^ k
    isqrtGo k n (if r' * r' ≤ n then r' else r)

/-- The integer square root of a number below 2^160. -/
def isqrt (n : Nat) : Nat := isqrtGo 80 n 0

/-- Whether `a` comes before or with `b` in the cyclic order of 32-bit numbers (R319). -/
def seqBefore (a b : Nat) : Bool :=
  let d := (b + 2 ^ 32 - a % 2 ^ 32) % 2 ^ 32
  1 ≤ d && d < 2 ^ 31

/-- A 32-bit count one further. -/
def succ32 (a : Nat) : Nat := (a + 1) % 2 ^ 32

/-! ### Lists -/

/-- Changes element `i`. -/
def modAt {α : Type} (f : α → α) : Nat → List α → List α
  | _, [] => []
  | 0, x :: xs => f x :: xs
  | n + 1, x :: xs => x :: modAt f n xs

/-- Inserts into a list sorted upward by a key. -/
def insertBy {α : Type} (k : α → Int) (x : α) : List α → List α
  | [] => [x]
  | y :: ys => if k x < k y then x :: y :: ys else y :: insertBy k x ys

/-- Sorts upward by a key; equal keys keep their order. -/
def sortBy {α : Type} (k : α → Int) : List α → List α
  | [] => []
  | x :: xs =>
    let r := sortBy k xs
    (r.takeWhile (fun y => k y < k x)) ++ x :: r.dropWhile (fun y => k y < k x)

/-- Twice the median of R589: twice the middle value, or the sum of the two middle values; none of nothing. -/
def median2 (xs : List Int) : Option Int :=
  let s := sortBy id xs
  match s.length with
  | 0 => none
  | n + 1 => some (s.getD (n / 2) 0 + s.getD ((n + 1) / 2) 0)

/-- The median of R589 as it is stored, rounded toward zero. -/
def medianStored (xs : List Int) : Int :=
  match median2 xs with
  | none => 0
  | some m => truncDiv m 2

/-- The sum of a list. -/
def sumI (xs : List Int) : Int := xs.foldl (· + ·) 0

/-- The sum of a list. -/
def sumN (xs : List Nat) : Nat := xs.foldl (· + ·) 0

/-- The number of set bits among the low `k`. -/
def popN : Nat → Nat → Nat
  | 0, _ => 0
  | k + 1, v => v % 2 + popN k (v / 2)

/-- The indices below `n` that a test accepts. -/
def filterIdx (n : Nat) (p : Nat → Bool) : List Nat := (List.range n).filter p

/-- A bit vector of `w` bits from a test of each index. -/
def maskOf (w : Nat) (p : Nat → Bool) : BitVec w :=
  BitVec.ofNat w ((List.range w).foldl (fun acc i => if p i then acc + 2 ^ i else acc) 0)

/-- One bit of a mask. -/
def getBit {w : Nat} (m : BitVec w) (i : Nat) : Bool := m.getLsbD i

/-- A mask with one bit set or cleared. -/
def setBit {w : Nat} (m : BitVec w) (i : Nat) (b : Bool) : BitVec w :=
  if b then m ||| BitVec.ofNat w (2 ^ i) else m &&& ~~~(BitVec.ofNat w (2 ^ i))

/-! ### CRC-32C, R300 -/

/-- One bit of a reflected CRC. -/
def crcBits (poly : Nat) : Nat → Nat → Nat
  | 0, c => c
  | k + 1, c => crcBits poly k (if c % 2 == 1 then c / 2 ^^^ poly else c / 2)

/-- CRC-32C of a run of bytes, from a register value. -/
def crc32cGo : Nat → List Byte → Nat
  | c, [] => c
  | c, b :: bs => crc32cGo (crcBits 0x82F63B78 8 (c ^^^ b.toNat)) bs

/-- CRC-32C. -/
def crc32c (bs : List Byte) : Nat := crc32cGo 0xFFFFFFFF bs ^^^ 0xFFFFFFFF

end Sys2Proof.Machine
end

