-- ==== Sys2Proof/Syntax.lean ====
section
/-! DEFINITION. The commands of the block: one constructor of Instr for each row of the operation table, with the
operands a command carries. -/

namespace Sys2Proof

/-- A host port, R313. -/
inductive Port where
  | tw | hs
  deriving DecidableEq, Repr

/-- A command unit as a port received it, R298, R346, R376, R383: the alive byte (framed), the position byte (chain),
the payload, the check received (none when a two-wire unit carries no PEC), and for the serial port the clocks of the
transaction and whether it ran in mode 3. The code is the row's. -/
structure HostUnit where
  port : Port
  alive : Nat
  pos : Nat
  payload : List Byte
  check : Option Nat
  clocks : Nat
  mode3 : Bool
  deriving DecidableEq, Repr

/-- A serial transaction that brings no command: its clocks and its clock mode. -/
structure SerialEdge where
  clocks : Nat
  mode3 : Bool
  deriving DecidableEq, Repr

/-- How a Host Notify ended, R363. -/
inductive NotifyEnd where
  | acked | nacked | arbLost
  deriving DecidableEq, Repr

/-- What the converters bring in the slots of one frame: 14-bit codes in the order of conversion, per receive channel
for LISTEN and MUTUAL (from the end of the changeover, the lead-in steps of MUTUAL among them) and per line for CHARGE; the
transmit lines at their current limit; the measured VHV in 10 mV; and the ratios of R198 with 16 fractional bits, per guard
and per companion. -/
structure Sense where
  listen : List (List Int)
  mutualS : List (List Int)
  charge : List (List Int)
  txLimit : BitVec 64
  vhv : Nat
  gamma : List Nat
  gammaR : List Nat
  deriving DecidableEq, Repr

/-- The ratios of R198 that a CHARGE slot brings, with 16 fractional bits, per guard and per companion. -/
structure Ratios where
  guards : List Nat
  companions : List Nat
  deriving DecidableEq, Repr

/-- What a thermistor round brings of the inputs (R142): their 16-bit ratios, and whether THREF clamped (R144). -/
structure ThermRatios where
  inputs : List Nat
  thref : Bool
  deriving DecidableEq, Repr

/-- One sample of the input meter, R61, and the VHV it reads, 10 mV. -/
structure MeterSample where
  vinMv : Nat
  vinMa : Nat
  vmotMv : Nat
  vmotMa : Nat
  vhv : Nat
  deriving DecidableEq, Repr

/-- One conversion of a bridge, R139: the two differences in nV, the pin voltages in mV, and whether an excitation
output is at its limit. -/
structure BridgeSample where
  diffIn : Int
  diffSense : Nat
  vexp : Nat
  vexs : Nat
  atLimit : Bool
  deriving DecidableEq, Repr

/-- What the fan drive measures at a 1 ms tick, R474-R477: current in mA, bridge temperature in 0.1 degrees, and the
commutator's estimate of the speed in rpm, none while it is not valid. -/
structure FanSample where
  current : Nat
  temp : Int
  estimate : Option Nat
  deriving DecidableEq, Repr

/-- What a reset finds outside the part: the strap pins, whether the crystal starts, VIN in 10 mV, whether a hard
watchdog ran out, and TEST_N. -/
structure BootInput where
  boot : BitVec 2
  gpos : BitVec 4
  haddr : BitVec 3
  hsm : Bool
  tcrit : BitVec 3
  xtal : Bool
  vin : Nat
  testLow : Bool
  deriving DecidableEq, Repr

/-- A packet of the ring, R429, R430: type, position of the sender, hops, destination, low 8 bits of the frame, payload. -/
structure Packet where
  typ : Nat
  src : Nat
  hops : Nat
  dst : Nat
  frame : Nat
  payload : List Byte
  deriving DecidableEq, Repr

/-- A Dyrel register number, R240. -/
abbrev Reg := BitVec 4

/-- Register ALU of opcode 0x00: S is fn[13], `rsv` is fn[12:5]; the row fixes fn[4:0] (R247). -/
structure OpR where
  d : Reg
  a : Reg
  b : Reg
  s : Bool
  rsv : BitVec 8
  deriving DecidableEq, Repr

/-- Format A with the whole of fn (R240). -/
structure OpA where
  d : Reg
  a : Reg
  b : Reg
  fn : BitVec 14
  deriving DecidableEq, Repr

/-- Format I (R240). -/
structure OpI where
  d : Reg
  a : Reg
  imm : BitVec 18
  deriving DecidableEq, Repr

/-- Format B (R240). -/
structure OpB where
  cond : BitVec 4
  off : BitVec 22
  deriving DecidableEq, Repr

/-- Format P (R240). -/
structure OpP where
  d : Reg
  a : Reg
  plane : BitVec 6
  fn : BitVec 12
  deriving DecidableEq, Repr

/-- A store: the offset is fn[11:0]; the row fixes the width fn[13:12] (R250). -/
structure OpT where
  d : Reg
  a : Reg
  b : Reg
  off : BitVec 12
  deriving DecidableEq, Repr

/-- LEAVE and SPAN: `hi` is fn[13:6] and `lo` is fn[4:0]; the row fixes fn[5] (R261, R264). -/
structure OpL where
  d : Reg
  a : Reg
  b : Reg
  hi : BitVec 8
  lo : BitVec 5
  deriving DecidableEq, Repr

/-- SYS: `rsv` is fn[13:4]; the row fixes fn[3:0] (R265). -/
structure OpS where
  d : Reg
  a : Reg
  b : Reg
  rsv : BitVec 10
  deriving DecidableEq, Repr

/-- MEM: `rsv` is fn[13:1]; the row fixes fn[0] (R266). -/
structure OpM where
  d : Reg
  a : Reg
  b : Reg
  rsv : BitVec 13
  deriving DecidableEq, Repr

/-- The commands, one for each row of the operation table; those without operands stand last. -/
inductive Instr where
  /-- R327: Returns the port's status byte; on the serial port only the leading status byte and the error code. -/
  | status (u : HostUnit)
  /-- R328: Returns 16 bytes: vendor and part code, silicon step, port, tile position and unique ID. -/
  | ident (u : HostUnit)
  /-- R329: Returns the offered or the accepted 128-bit feature set. -/
  | featRead (u : HostUnit)
  /-- R310: Accepts a feature set and locks it until reset, or refuses it with RANGE or LOCKED. -/
  | featAccept (u : HostUnit)
  /-- R331: Opens or closes the port's session, reports the session state and makes cause PEER stand on the other port. -/
  | sessionOpen (u : HostUnit)
  /-- R332: Returns the fault summary, the port's attention causes, AON.SAFECAUSE and the latch frame, and clears NEWFAULT. -/
  | faultRead (u : HostUnit)
  /-- R336: Clears the fault summary bits already returned and the masked attention causes, with SAFE-related side effects. -/
  | faultClear (u : HostUnit)
  /-- R334: Returns the state or completion of a tag and frees a done tag. -/
  | tagRead (u : HostUnit)
  /-- R380: Sets the expected alive value from its own alive counter in framed serial mode. -/
  | aliveResync (u : HostUnit)
  /-- R9: A unit with an unassigned command code fails with BAD_CMD and has no side effect. -/
  | unassignedCode (u : HostUnit) (code : Nat)
  /-- R325: A unit that fails its check or alive counter is discarded, BADF is set and the held reply becomes the rejection code. -/
  | unitRejected (u : HostUnit) (code : Nat) (cut : Bool)
  /-- R217: Opens a context for the sending port, or replaces its mask, priority and budget. -/
  | ctxOpen (u : HostUnit)
  /-- R217: Closes a context with a context reset, freeing its code and emptying its queue; deferred to K for a RUNNING context. -/
  | ctxClose (u : HostUnit)
  /-- R35: Replaces the latency contract of a context, effective at the next K. -/
  | ctxContract (u : HostUnit)
  /-- R220: Replaces the region rectangles of a context, effective at the next K. -/
  | ctxRegion (u : HostUnit)
  /-- R290: Binds a ROM stock program and its parameters to a context, making it LOADED at the next K. -/
  | ctxStock (u : HostUnit)
  /-- R228: Starts a context fresh or resumes it at the next K, after the budget-sum check. -/
  | ctxStart (u : HostUnit)
  /-- R217: Stops a RUNNING or FAULTED context at the next K. -/
  | ctxStop (u : HostUnit)
  /-- R337: Returns the state, owner, mask, budget, cycles and trap record of a context. -/
  | ctxState (u : HostUnit)
  /-- R231: Places 1 to 64 bytes in a context's host-to-context mailbox, or fails with BUSY_CONTEXT while the box is unread. -/
  | ctxMailWrite (u : HostUnit)
  /-- R231: Returns and empties the context-to-host mailbox and queues notice 0x06. -/
  | ctxMailRead (u : HostUnit)
  /-- R278: Opens an image load session for a context. -/
  | imgBegin (u : HostUnit)
  /-- R279: Appends, repeats or refuses a chunk of an image by its offset. -/
  | imgData (u : HostUnit)
  /-- R281: Tagged; checks length, digest, signature and capabilities of a session's image. -/
  | imgEnd (u : HostUnit)
  /-- R281: Verification of an image ends; on success the image is bound at the next K, otherwise the load fails with its result. -/
  | imgVerifyDone (ctx : Nat)
  /-- R283: Tagged; loads and verifies an image from the flash window, by copy or execute in place. -/
  | imgFromFlash (u : HostUnit)
  /-- R295: Returns 16-byte entries describing the programs bound to contexts. -/
  | imgList (u : HostUnit)
  /-- R295: Aborts a context's load session. -/
  | imgAbort (u : HostUnit)
  /-- R295: Returns the OTP key hash and the KEYLOCK, SIGREQ, SPENT and NOSLOT bits. -/
  | imgKeyRead (u : HostUnit)
  /-- R296: Tagged; programs the image key hash into the first blank OTP slot in SERVICE. -/
  | imgKeyProg (u : HostUnit)
  /-- R297: The OTP key write completes, leaving the slot valid or spent and reporting its completion. -/
  | keyProgDone (readBack : Bool)
  /-- R286: A load session idle for 10 s is aborted. -/
  | imgSessionAbort (ctx : Nat)
  /-- R317: Optionally acknowledges the previous reply, then returns the port's readable records with sequence numbers. -/
  | evtRead (u : HostUnit)
  /-- R318: Acknowledges every returned record before a sequence number. -/
  | evtAck (u : HostUnit)
  /-- R320: Sets the port's event mask for house records and CONTACT_MOVE. -/
  | evtMask (u : HostUnit)
  /-- R505: Reads journal records from the pointer or a given number, from RAM or spill, and moves the pointer. -/
  | journalRead (u : HostUnit)
  /-- R123: Assigns a stock profile to a set, effective at the next frame boundary at which the set is in use. -/
  | feProfile (u : HostUnit)
  /-- R124: Returns a set's stock number and its 32-byte profile record. -/
  | feGet (u : HostUnit)
  /-- R124: Writes a custom 32-byte profile record to a set after the fit and range checks. -/
  | feSet (u : HostUnit)
  /-- R125: Returns part of a plane of the most recent pre-passed frame. -/
  | imageRead (u : HostUnit)
  /-- R126: Returns the census of the present frame, its bin, flags and masks. -/
  | censusRead (u : HostUnit)
  /-- R158: Configures a bridge's enable, excitation, gain and GAUGE, effective at the next K, issuing or releasing its EXCITE request. -/
  | forceCfg (u : HostUnit)
  /-- R159: Returns the clamp flags, open mask and counters, optionally clearing them. -/
  | clampRead (u : HostUnit)
  /-- R208: Returns the calibration state summary. -/
  | calState (u : HostUnit)
  /-- R209: Sets the calibration freeze mask at the next K and returns the previous mask. -/
  | calFreeze (u : HostUnit)
  /-- R211: Checks a seed record and applies its taps, nu, ZERO and other quantities at the next K. -/
  | calSeed (u : HostUnit)
  /-- R212: Copies the calibration state into a save point and returns a seed record. -/
  | calSnapshot (u : HostUnit)
  /-- R213: Restores the save point at the next K and ends fast settle. -/
  | calRestore (u : HostUnit)
  /-- R496: Returns temperatures, fan speeds and setpoints, flags and backlight duties. -/
  | thermRead (u : HostUnit)
  /-- R497: Selects a stock policy, reads the policy, or writes a custom policy record. -/
  | thermPolicy (u : HostUnit)
  /-- R498: Writes a fan record, effective at the next 1 ms tick. -/
  | fanSet (u : HostUnit)
  /-- R499: Sets up to four skip bands for a fan. -/
  | fanSkip (u : HostUnit)
  /-- R500: Returns the state, speeds, drive, current, temperature and retry counts of a fan. -/
  | fanState (u : HostUnit)
  /-- R501: Sets a backlight output's host duty, frequency and polarity. -/
  | blSet (u : HostUnit)
  /-- R502: Sets a backlight output's derating curve. -/
  | blCurve (u : HostUnit)
  /-- R76: Sets the Hearth cap, applied at the next decision. -/
  | powerCap (u : HostUnit)
  /-- R77: Returns mode, rate, cap, base, held costs, grants, VIN, input power and flags. -/
  | powerState (u : HostUnit)
  /-- R78: Forces a mode and rate, or releases the force. -/
  | powerForce (u : HostUnit)
  /-- R79: Returns the held grants in slot order. -/
  | powerGrants (u : HostUnit)
  /-- R464: Tagged; proposes a span configuration record for commitment on every member. -/
  | spanConfig (u : HostUnit)
  /-- R465: Returns the part's span role, masks, hash, colour, time difference and ring data. -/
  | spanState (u : HostUnit)
  /-- R466: Returns 16 bytes per position describing span members. -/
  | spanMembers (u : HostUnit)
  /-- R467: Tagged; makes a follower request the span configuration at once. -/
  | spanPull (u : HostUnit)
  /-- R468: Tagged; relays a command through the ring to a follower and returns its reply. -/
  | spanRelay (u : HostUnit)
  /-- R403: Tagged; checks and applies a flash profile, optionally writes the map, and runs the boot scan. -/
  | memProfile (u : HostUnit)
  /-- R404: Reads the SFDP of a flash and proposes a profile record. -/
  | memDiscover (u : HostUnit)
  /-- R410: Reads flash bytes with the READ template, or fails with FENCED or BUSY_CONTEXT. -/
  | memRead (u : HostUnit)
  /-- R411: Tagged; programs flash pages under a PROGRAM grant. -/
  | memProgram (u : HostUnit)
  /-- R412: Tagged; erases a sector or block under an ERASE grant with intent record and fence. -/
  | memErase (u : HostUnit)
  /-- R421: A DDR read without MDQS edges or with a FIFO overrun is repeated once and then returns 0xFF. -/
  | readError (addr : Nat) (again : Bool)
  /-- R408: A prefetch line fill completes, ending the stall of a miss, and may start a fill of the next line. -/
  | lineFill (addr : Nat)
  /-- R424: Returns the state of the memory port, fences and the intent sequence. -/
  | memState (u : HostUnit)
  /-- R424: Enables or disables the execute-in-place window. -/
  | memXip (u : HostUnit)
  /-- R518: Steps the wall clock at once and applies the ledger's period rules with a TIMESET record. -/
  | clockSet (u : HostUnit)
  /-- R528: Returns the wall clock, its flags and the timebase at the same instant. -/
  | clockRead (u : HostUnit)
  /-- R529: Sets period length, alignment, HMAC, lock and checkpoint interval, or programs the ledger key. -/
  | ledgerConfig (u : HostUnit)
  /-- R530: Returns the ledger state. -/
  | ledgerState (u : HostUnit)
  /-- R530: Returns sealed ledger records or the provisional open period. -/
  | ledgerRead (u : HostUnit)
  /-- R550: Tagged; runs the selected self tests in SERVICE. -/
  | diagSelftest (u : HostUnit)
  /-- R551: Tagged; judges each pin of a group as OK, open, shorted or clamped. -/
  | diagPins (u : HostUnit)
  /-- R552: Tagged; runs a ring-link or map-read loopback and counts results. -/
  | diagLoopback (u : HostUnit)
  /-- R549: A diagnostics command finishes or times out, its completion becomes readable and frames resume. -/
  | diagComplete (timeout : Bool) (result : List Byte)
  /-- R340: Returns registers copied in one instant. -/
  | regRead (u : HostUnit)
  /-- R341: Writes masked bits of a register that has no row of its own. -/
  | regWrite (u : HostUnit)
  /-- R547: With the key, resets the part as SYSTEM or into SERVICE. -/
  | reset (u : HostUnit)
  /-- R99: A read of CLK.TIMELO copies timebase bits 47:32 into CLK.TIMEHI. -/
  | clkTimeloRead (u : HostUnit)
  /-- R80: A read of POWER.PIN returns and clears the peak input power. -/
  | powerPinRead (u : HostUnit)
  /-- R372: A read of TW.STRETCH returns and clears the longest reply stretch. -/
  | twStretchRead (u : HostUnit)
  /-- R531: A read of WC.SECLO copies WC.SECHI and WC.FRAC. -/
  | wcSecloRead (u : HostUnit)
  /-- R162: A write of EN, EXC5 or PGA takes effect at the next K as FORCE_CFG would, issuing or releasing EXCITE. -/
  | frcCfgWrite (u : HostUnit)
  /-- R215: Writes TINIT, TMAX and TMIN, or leaves the register unchanged if inconsistent. -/
  | calTlimWrite (u : HostUnit)
  /-- R215: Writes bridge geometry and discards the epoch's span samples. -/
  | calFgeomWrite (u : HostUnit)
  /-- R372: Clearing HNOFF in TW.CFG resumes Host Notify. -/
  | hnoffClear (u : HostUnit)
  /-- R397: Writes the chain window, applied from the next fall of HCS_N. -/
  | hsCfgWrite (u : HostUnit)
  /-- R507: Setting JRN.SPCFG.FORCE runs journal spill regardless of grace. -/
  | spillForceWrite (u : HostUnit)
  /-- R144: Enabling or disabling a thermistor input; disabling clears FAIL and writes SENSOR_OK. -/
  | thermEnWrite (u : HostUnit)
  /-- R47: Clearing LAPSE in AON.MODESTAT ends the port's lapse attention. -/
  | lapseClear (u : HostUnit)
  /-- R247: d := a + b, optionally setting flags. -/
  | add (o : OpR)
  /-- R247: d := a - b, optionally setting flags. -/
  | sub (o : OpR)
  /-- R247: d := a and b. -/
  | and (o : OpR)
  /-- R247: d := a or b. -/
  | or (o : OpR)
  /-- R247: d := a xor b. -/
  | xor (o : OpR)
  /-- R247: Logical left shift by b and 31. -/
  | shl (o : OpR)
  /-- R247: Logical right shift. -/
  | shr (o : OpR)
  /-- R247: Arithmetic right shift. -/
  | sar (o : OpR)
  /-- R247: Low 32 bits of a * b. -/
  | mul (o : OpR)
  /-- R247: High 32 bits of the signed product. -/
  | mulh (o : OpR)
  /-- R247: High 32 bits of the unsigned product. -/
  | mulhu (o : OpR)
  /-- R247: Signed minimum. -/
  | min (o : OpR)
  /-- R247: Signed maximum. -/
  | max (o : OpR)
  /-- R247: Unsigned minimum. -/
  | minu (o : OpR)
  /-- R247: Unsigned maximum. -/
  | maxu (o : OpR)
  /-- R247: Add with carry. -/
  | adc (o : OpR)
  /-- R247: Subtract with borrow. -/
  | sbc (o : OpR)
  /-- R247: Absolute value. -/
  | abs (o : OpR)
  /-- R247: Count of leading zeros. -/
  | clz (o : OpR)
  /-- R247: Population count. -/
  | popc (o : OpR)
  /-- R247: Clamp to signed 16 bits. -/
  | sat16 (o : OpR)
  /-- R247: d := a and not b. -/
  | andn (o : OpR)
  /-- R248: Add a signed immediate. -/
  | addi (o : OpI)
  /-- R248: And with an immediate. -/
  | andi (o : OpI)
  /-- R248: Or with an immediate. -/
  | ori (o : OpI)
  /-- R248: Xor with an immediate. -/
  | xori (o : OpI)
  /-- R248: Left shift by an immediate. -/
  | shli (o : OpI)
  /-- R248: Logical right shift by an immediate. -/
  | shri (o : OpI)
  /-- R248: Arithmetic right shift by an immediate. -/
  | sari (o : OpI)
  /-- R248: Multiply by a signed immediate. -/
  | muli (o : OpI)
  /-- R248: Sets flags from a minus an immediate. -/
  | cmpi (o : OpI)
  /-- R248: Loads an immediate into bits 31:14. -/
  | lui (o : OpI)
  /-- R248: Signed minimum with an immediate. -/
  | mini (o : OpI)
  /-- R248: Signed maximum with an immediate. -/
  | maxi (o : OpI)
  /-- R248: Sets flags from a and an immediate. -/
  | tsti (o : OpI)
  /-- R248: Selects a or b by a condition. -/
  | csel (o : OpA)
  /-- R249: Loads a word. -/
  | ldw (o : OpI)
  /-- R249: Loads a sign-extended halfword. -/
  | ldh (o : OpI)
  /-- R249: Loads a zero-extended halfword. -/
  | ldhu (o : OpI)
  /-- R249: Loads a sign-extended byte. -/
  | ldb (o : OpI)
  /-- R249: Loads a zero-extended byte. -/
  | ldbu (o : OpI)
  /-- R250: Stores a word into the room. -/
  | stw (o : OpT)
  /-- R250: Stores a halfword into the room. -/
  | sth (o : OpT)
  /-- R250: Stores a byte into the room. -/
  | stb (o : OpT)
  /-- R252: Branches on a condition. -/
  | bCond (o : OpB)
  /-- R252: Calls on a condition, writing the return address to d15. -/
  | callCond (o : OpB)
  /-- R252: Jumps to a register plus offset, optionally linking. -/
  | jmp (o : OpI)
  /-- R252: Decrements d and branches while it is not zero. -/
  | loop (o : OpI)
  /-- R252: Branches if a register is zero. -/
  | bz (o : OpI)
  /-- R252: Branches if a register is not zero. -/
  | bnz (o : OpI)
  /-- R256: Loads one plane element. -/
  | pld (o : OpP)
  /-- R256: Reduces a box of a plane by sum, max, min, argmax or argmin. -/
  | pred (o : OpP)
  /-- R256: Counts plane elements in a box that compare with a value. -/
  | pcnt (o : OpP)
  /-- R256: Computes the weighted centroid of a box. -/
  | pcent (o : OpP)
  /-- R256: Copies plane elements into the room. -/
  | pcopy (o : OpP)
  /-- R257: Finds the next visible contact ID in a phase mask. -/
  | cnext (o : OpA)
  /-- R257: Reads a field of a visible contact. -/
  | cget (o : OpA)
  /-- R257: Distance between two visible contacts. -/
  | cdist (o : OpA)
  /-- R257: Tests whether a contact lies in a room rectangle. -/
  | cin (o : OpA)
  /-- R257: Counts visible contacts in a phase mask. -/
  | ccount (o : OpA)
  /-- R258: Emits an event record to the queue and journal, within the per-turn limit. -/
  | emit (o : OpA)
  /-- R259: Posts mail to the context-to-host box and queues a MAIL event, or is refused. -/
  | mailp (o : OpA)
  /-- R260: Empties the host-to-context box and returns its length. -/
  | mailack (o : OpA)
  /-- R261: Enters a leave request of a class and cost for the next Hearth decision. -/
  | leave (o : OpL)
  /-- R261: Withdraws a pending request or releases a grant of a class. -/
  | leaveRelease (o : OpL)
  /-- R262: Ends the present entry. -/
  | yield (o : OpA)
  /-- R263: Writes a selected time, cycle, frame or clock value. -/
  | time (o : OpA)
  /-- R264: Sends an 8-byte message to copies of the context on other members. -/
  | spanSend (o : OpL)
  /-- R264: Reads a word of the span message of the present notice. -/
  | spanReceive (o : OpL)
  /-- R265: Adds to a program counter of the open ledger period. -/
  | sysLedger (o : OpS)
  /-- R265: Requests a fan target floor from the next post-pass. -/
  | sysFan (o : OpS)
  /-- R265: Requests a backlight duty. -/
  | sysBacklight (o : OpS)
  /-- R265: Assigns a stock profile to a set as FE_PROFILE does. -/
  | sysProfile (o : OpS)
  /-- R265: Sets the calibration freeze mask at the next K. -/
  | sysFreeze (o : OpS)
  /-- R265: Reads a calibration register of block 0x5000. -/
  | sysCalrd (o : OpS)
  /-- R266: Starts a descriptor transfer through the memory port. -/
  | memStart (o : OpM)
  /-- R266: Returns the result of the last descriptor transfer. -/
  | memPoll (o : OpM)
  /-- R267: Raises ILLEGAL with detail 0x3E. -/
  | brk (rest : BitVec 26)
  /-- R242: A reserved or 0x3F major opcode raises ILLEGAL. -/
  | reservedOpcode (word : Word)
  /-- R13: The frame timer reaches B(N): Hearth decides, pending settings and mode change take effect, sensing of the frame begins. -/
  | frameBoundary (x : Sense)
  /-- R121: A transmit line at its current limit in 16 slots is held off and retried each epoch end. -/
  | txLineOff (line : Nat)
  /-- R121: A channel clipping at x1 for 1 s is treated as clamped continuously. -/
  | channelClip (ch : Nat)
  /-- R91: A 125 ms gate counts keeper cycles against the crystal. -/
  | keeperGate (count : Nat)
  /-- R68: A refused or revoked requester re-requests after its wait of frames or seconds. -/
  | leaveRerequest (cls who : Nat)
  /-- R64: A FAN_START grant becomes FAN_RUN when the fan is within 5 % or after 8 s. -/
  | fanStartToRun (fan : Nat) (milliwatt : Nat) (after8s : Bool)
  /-- R64: Each second a FAN_RUN cost follows the measured draw. -/
  | fanRunRemeasure (fan : Nat) (milliwatt : Nat)
  /-- R61: The input meter measures VIN and VMOT every 1 ms. -/
  | meterSample (m : MeterSample)
  /-- R70: VIN below 4.4 V for 50 µs revokes revocable grants and bars rank 1 and lower. -/
  | dip (vin : Nat)
  /-- R70: VIN at or above 4.5 V for 100 ms ends the dip episode. -/
  | dipEnd (vin : Nat)
  /-- R51: VIN below 4.3 V for more than 10 ms enters SAFE. -/
  | safeVin (vin : Nat)
  /-- R70: VIN below 4.2 V for 20 µs resets the part as a power-on reset. -/
  | brownOut (b : BootInput)
  /-- R72: A VHV low, over-voltage or current-limit condition stops the boost and enters SAFE. -/
  | vhvFault (kind : Nat)
  /-- R53: No session 10 s after a watchdog SAFE performs a watchdog reset. -/
  | safeWatchdogReset (b : BootInput)
  /-- R353: The AON matcher acknowledges the full two-wire address while CORECLK is stopped and starts host service. -/
  | addressMatch (addr : Nat)
  /-- R351: CORE takes the bus over and releases the wake stretch. -/
  | wakeStretchEnd (us : Nat)
  /-- R42: A GPIO level enabled as wake source raises the wake floor. -/
  | gpioWake (levels : BitVec 16)
  /-- R147: Every S AONCLK cycles a DOZE sweep runs one CHARGE slot. -/
  | dozeSweep (charge : List (List Int)) (ratios : Ratios)
  /-- R45: 1 s after the last assertion the port's signal is asserted again while its cause stands. -/
  | alertReassert (port : Port)
  /-- R47: The oldest unread event older than the host grace sets LAPSE and ATN. -/
  | portLapse (port : Port)
  /-- R95: The monitor counts crystal cycles over 128 keeper cycles. -/
  | clockMonitorWindow (count : Nat)
  /-- R95: Two bad windows or PLL loss over 10 µs declare crystal failure and enter SAFE. -/
  | xtalFail (pll : Bool)
  /-- R139: Each bridge produces a chopped conversion at 1 kS/s. -/
  | forceConversion (bridge : Nat) (x : BridgeSample)
  /-- R152: Excitation out of regulation in 4 conversions falls to 2.5 V or faults the bridge. -/
  | excFault (bridge : Nat)
  /-- R152: 4 conversions in regulation after re-excitation clear FAULT. -/
  | excRestored (bridge : Nat)
  /-- R153: 16 saturated conversions fault the bridge. -/
  | bridgeSaturated (bridge : Nat)
  /-- R142: Each enabled input and the die sensor are converted. -/
  | thermistorRound (xs : ThermRatios) (die : Int)
  /-- R491: 16 consecutive conversions in range clear FAIL. -/
  | sensorOk (input : Nat)
  /-- R481: Every 10 ms the AON comparator converts the die and TH0. -/
  | shdnComparison (die : Int) (x : Nat) (tcrit : Nat)
  /-- R136: A pin clamps: flag latched, event counted, CLAMP record written. -/
  | clamp (pin : Nat)
  /-- R151: A pin clamped in 1 000 consecutive intervals is treated as open. -/
  | pinOpen (pin : Nat)
  /-- R151: A pin without clamping for 1 s is restored. -/
  | pinRestored (pin : Nat)
  /-- R477: At 1 kHz each fan's target and setpoint update and its drive is set. -/
  | fanLoopTick (fan : Nat) (x : FanSample)
  /-- R475: After 200 ms of alignment the forced ramp begins. -/
  | fanAlignEnd (fan : Nat)
  /-- R488: A tachometer absent for 2 s fails the fan. -/
  | fanTachAbsent (fan : Nat)
  /-- R488: Current at the limit for 500 ms with low speed fails the fan. -/
  | fanStall (fan : Nat)
  /-- R489: A FAILED fan is restarted 30 s after its failure. -/
  | fanRetry (fan : Nat)
  /-- R489: 2 s of valid speed at or above FMIN ends FAILED. -/
  | fanRecovered (fan : Nat)
  /-- R490: A bridge at 150 °C stops; below 130 °C it may restart. -/
  | bridgeHot (fan : Nat) (temp : Int)
  /-- R490: Phase current above 4 A in 2 periods stops the bridge. -/
  | bridgeShort (fan : Nat)
  /-- R347: A two-wire reply read returns the held reply with PEC. -/
  | replyRead (count us : Nat)
  /-- R349: An address-only or code 0x00 write has no effect. -/
  | quickCommand (code0 : Bool)
  /-- R356: A read of 0x0C while ALERT_N is driven answers with arbitration and releases ALERT_N on winning. -/
  | alertResponseRead (won : Bool)
  /-- R359: A controller answers the request by reading 0x0C with arbitration. -/
  | requestRead (won : Bool)
  /-- R362: The part as controller sends a Host Notify with status and readable count. -/
  | hostNotify (outcome : NotifyEnd)
  /-- R378: A serial transaction carrying no command returns the held reply again. -/
  | idleTransaction (x : SerialEdge)
  /-- R379: A framed unit with alive counter E-1 and the last CRC has no effect. -/
  | repeatFrame (u : HostUnit) (code : Nat)
  /-- R386: A transaction starting while WAKE is set or a command runs returns status then 0xFF. -/
  | busyTransaction (x : SerialEdge)
  /-- R431: A part forwards a packet cut-through, removing its own and marking errors. -/
  | packetForward (p : Packet) (crcOk : Bool) (rtt : Nat)
  /-- R434: A received CLAIM is ranked and may flag DUPPOS. -/
  | claim (p : Packet)
  /-- R438: A follower places B(N), takes frame, mode, bin and epoch, and slews or steps time. -/
  | beacon (p : Packet)
  /-- R447: A member's CENSUS packet feeds the leader's tone decision. -/
  | census (p : Packet)
  /-- R445: The leader collects a member's STITCH packet. -/
  | stitch (p : Packet)
  /-- R446: A member applies ownership and ID decisions for the frame. -/
  | decide (p : Packet)
  /-- R443: A member's answer to a proposal. -/
  | ready (p : Packet)
  /-- R456: A member requests the span configuration. -/
  | pull (p : Packet)
  /-- R456: A HELD member receives configuration parts, verifies them and adopts at its next K. -/
  | config (p : Packet)
  /-- R449: The leader enters a follower's context records into its queues and journal. -/
  | relay (p : Packet)
  /-- R264: A span message arrives and queues notice 0x04 to the copy. -/
  | msg (p : Packet)
  /-- R468: A relayed command or its reply arrives over the ring. -/
  | cmd (p : Packet)
  /-- R460: A member's STITCH missing in 32 frames writes LATE once per episode. -/
  | late (pos : Nat)
  /-- R322: When a queue that dropped records next has room, a JOURNAL_GAP QUEUE record is written. -/
  | queueGap (queue : Nat)
  /-- R533: VIN crossing the power-on threshold runs the power-on sequence to RDY and the boot path. -/
  | powerOnReset (b : BootInput)
  /-- R542: RESET_N low for 10 µs holds the part in reset; its rise resumes at step 4. -/
  | pinReset (low : Bool) (b : BootInput)
  /-- R545: 1 s without hard watchdog service resets the part. -/
  | watchdogReset (b : BootInput)
  /-- R476: A pulse on FGn is taken as a tachometer pulse if it is at least 20 µs long, giving the pulse period from which the fan speed is formed. -/
  | fgPulse (fan : Nat) (widthUs periodUs : Nat)
  /-- R532: VAON falling out of range causes a power-on reset, as R532 lists. -/
  | vaonOutOfRange (b : BootInput)
  /-- R266: A READ descriptor transfer started by MEM START completes, so that POLL reports it completed and its data is due to be written to the room in the post-pass. -/
  | readTransferComplete (bad : Bool)
  /-- R468: A relayed command's completion missing after 100 ms completes with TIMEOUT. -/
  | spanRelayTimeout
  /-- R415: A suspended operation is resumed after 100 µs without reads or 2 ms after the suspend. -/
  | flashResume
  /-- R411: A flash program finishes, lines are invalidated and the grant released. -/
  | programComplete
  /-- R412: An erase finishes: DONE record written, fence removed, lines invalidated and grant released. -/
  | eraseComplete
  /-- R420: A flash not ready within tprog or terase ends the operation with TIMEOUT. -/
  | flashTimeout
  /-- R419: Scans the intent area, fences ranges of unfinished erases and recovers them. -/
  | bootScan
  /-- R114: After 4 consecutive loud accepted samples the tone moves to the best bin at the next boundary. -/
  | urgentMove
  /-- R14: At K(N) the raw banks swap, FORCE latches and the computation of frame N begins with the pre-pass. -/
  | computationStart
  /-- R29: Slips in 8 consecutive frames are a house watchdog fault that enters SAFE. -/
  | slipWatchdog
  /-- R167: E at or above 12 in 2 counted frames makes the surface WET. -/
  | wetEnter
  /-- R167: E below 4 in 256 counted frames makes the surface DRY. -/
  | wetLeave
  /-- R184: Noise and film on 90 % of nodes in 8 counted frames stops confirmation. -/
  | swamped
  /-- R184: 8 counted frames below 2 304 end swamping and release waiting candidates. -/
  | swampEnd
  /-- R170: A palm shadow lapses 8 counted frames after the palm's last frame. -/
  | shadowExpire
  /-- R172: A candidate reaching its required count of counted frames becomes a contact. -/
  | confirmByCount
  /-- R175: A contact unmatched beyond its coast limit ends. -/
  | contactEnd
  /-- R179: Rising transmit and receive lines in 2 consecutive sweeps or frames recognise APPROACH. -/
  | approach
  /-- R190: After every 16th accepted value, a channel's nu is recomputed. -/
  | noiseUnitUpdate
  /-- R191: After 8 quiet samples a baseline steps toward the median of its Tarn. -/
  | baselineStep
  /-- R444: At the later of pre-pass end and K+1.5 ms a member sends STITCH and waits for DECIDE. -/
  | stitchPass
  /-- R446: Without DECIDE within 250 µs the frame is a held frame for the member. -/
  | stitchTimeout
  /-- R19: The frame's events become readable, EVT set and ALERT_N or the in-band request asserted, then the post-pass runs. -/
  | publication
  /-- R40: The house program chooses the mode from the contracts in force. -/
  | modeChoice
  /-- R224: Moves up to 16 KiB of the code store per post-pass or per 1 ms. -/
  | compactionStep
  /-- R188: At frame 256e+255 tapped quantities move, epoch moves are decided and settle counts down. -/
  | epochEnd
  /-- R206: A rail or far condition at 4 consecutive epoch ends is reported once per episode. -/
  | calRailReport
  /-- R91: At a trim instant the keeper trim moves by the median deviation. -/
  | keeperTrim
  /-- R66: The Hearth grants pending requests by rank within cap and slots. -/
  | hearthDecision
  /-- R68: A request waiting 4 times is refused and its requester falls back. -/
  | requestRefusal
  /-- R64: VHV reaches 5 % of its setpoint and the BOOST_START grant ends. -/
  | boostStartDone
  /-- R71: Input power above the cap for more than 1 s starts the overcap guard. -/
  | overcap
  /-- R71: Every 100 ms of overcap one revocable grant is revoked. -/
  | overcapRevoke
  /-- R73: VMOT below 4.2 V for 50 µs disables the fan bridges. -/
  | vmotUv
  /-- R73: VMOT at or above 4.5 V for 100 ms ends the condition and fans re-request. -/
  | vmotUvEnd
  /-- R53: When every SAFE cause has been absent for 10 s the part returns to its chosen mode. -/
  | safeExit
  /-- R387: A fall of HCS_N while CORECLK is stopped wakes CORE or restarts CORECLK. -/
  | hcsWake
  /-- R42: The house timer wakes CORE from HIBERNATE for a ledger boundary or checkpoint or keeper trim. -/
  | houseRun
  /-- R44: WAKEHOLD without candidate or contact ends the wake floor. -/
  | wakeFloorEnd
  /-- R43: HOSTHOLD without a transaction returns the part to its chosen mode. -/
  | hostServiceEnd
  /-- R48: Entry to HIBERNATE completes with the crystal stopped and CORE in retention. -/
  | hibernateEntry
  /-- R96: Every 1 s while XTALFAIL stands the crystal is restarted. -/
  | xtalRestart
  /-- R96: 8 good windows clear XTALFAIL and move CORE and the timebase back to the crystal. -/
  | xtalfailClear
  /-- R97: A crystal not passing 2 windows within 20 ms of its start has failed to start. -/
  | xtalStartFail
  /-- R90: After a wake the crystal runs and the PLL locks; CORE changes to CORECLK and the timebase to the crystal. -/
  | crystalLock
  /-- R483: 10 comparisons at or above the threshold, or 100 with TH0 out of range, assert SHDN_N. -/
  | shdnAssert
  /-- R483: 10 comparisons below threshold less 10 °C release SHDN_N. -/
  | shdnRelease
  /-- R358: After 100 µs of idle the part pulls SDA low to request service. -/
  | inBandRequest
  /-- R358: No SCL fall within 200 µs releases SDA as a STOP. -/
  | ibrUnanswered
  /-- R363: 8 unacknowledged notices suspend Host Notify and set HNOFF. -/
  | hostNotifySuspend
  /-- R367: SCL low for 25 ms releases the bus and abandons the transaction. -/
  | sclTimeout
  /-- R368: SDA low with SCL high for 35 ms releases SDA and abandons the transaction. -/
  | sdaTimeout
  /-- R428: A ring receiver locks after 64 valid symbols. -/
  | linkLock
  /-- R458: Loss of lock or 3 frames without beacon makes each member an island with SPLIT. -/
  | ringBreak
  /-- R459: All parts locked for 100 ms elect again and followers rejoin. -/
  | healed
  /-- R463: A SPAN part without lock for 100 ms runs alone with SPLIT. -/
  | spanAlone
  /-- R434: Every 1 ms an unjoined SPAN part sends CLAIM. -/
  | claimSend
  /-- R434: A part seeing no better claim for 10 ms leads. -/
  | elected
  /-- R436: At B(N)-20 µs the leader sends the beacon of frame N. -/
  | beaconSend
  /-- R445: 200 µs after the stitch start the leader merges seam fragments, issues IDs and sends DECIDE. -/
  | decideSend
  /-- R457: An excluded member retries admission every 1 s. -/
  | admissionRetry
  /-- R461: More than 100 CRC errors in 1 s write a CRC record once per episode. -/
  | spanCrc
  /-- R507: 15 waiting records or 10 s of age program a spill chunk. -/
  | spillChunk
  /-- R511: Each 1 024 000 ticks the open period's counts advance. -/
  | ledgerSecond
  /-- R516: When the wall clock reaches NB the open period is closed and sealed. -/
  | periodClose
  /-- R517: Every CKPT minutes and at HIBERNATE entry a CHECKPOINT is programmed. -/
  | checkpoint
  /-- R53: A VHV fault older than 10 min leaves the count of AON.SAFECAUSE.VHVCNT, which governs whether a later fault is the third within 10 min and latches. -/
  | vhvcntAgeOut
  deriving DecidableEq, Repr

end Sys2Proof
end

