-- ==== Sys2Proof/Machine/State.lean ====
section
/-! DEFINITION. The state of the GL8640, every field plain data, the reasons a step could stop, and the state at reset. -/

namespace Sys2Proof.Machine
open Sys2Proof

/-- The mode of the part, R31. -/
inductive Mode where
  | off | boot | hibernate | doze | watch | active | service | safe
  deriving DecidableEq, Repr

/-- A mode with its rate code (AON.MODE.RATE, R57) and its DOZE rate in Hz. -/
structure ModeSel where
  mode : Mode
  rate : Nat
  hz : Nat
  deriving DecidableEq, Repr

/-- A journal or event record, R314. -/
structure Rec where
  time : Nat
  origin : Nat
  typ : Nat
  payload : List Byte
  deriving DecidableEq, Repr

/-- A record in a queue: its place in the order of all records written, its publication, its sequence number. -/
structure QRec where
  r : Rec
  ord : Nat
  pub : Option Nat
  seq : Option Nat
  deriving DecidableEq, Repr

/-- A queue of R316, with the records it dropped since its last JOURNAL_GAP record (R322). -/
structure Queue where
  recs : List QRec
  lost : Nat
  deriving DecidableEq, Repr

/-- A tag in use, R305. -/
structure Tag where
  port : Port
  code : Nat
  ctx : Option Nat
  done : Bool
  err : Nat
  comp : List Byte
  discard : Bool
  deriving DecidableEq, Repr

/-- A deferred command: accepted, not yet in effect (R304, R306). -/
structure Deferred where
  port : Port
  code : Nat
  payload : List Byte
  deriving DecidableEq, Repr

/-- The reply held for a port: none yet, the bytes from the error code on, or a live read that is copied when it is
sent (R307). -/
inductive Reply where
  | none
  | fixed (bytes : List Byte)
  | live (code : Nat) (payload : List Byte)
  deriving DecidableEq, Repr

/-- A live reply that was copied and whose transfer is open (R307): its code and payload, what the same values read as right
after the copy, whether the copy itself left them readable, and whether a source was written meanwhile. -/
structure Copied where
  code : Nat
  payload : List Byte
  after : List Byte
  watched : Bool
  written : Bool
  deriving DecidableEq, Repr

/-- What belongs to one port, R301, R313, R317, R336. -/
structure PortSt where
  session : Bool
  badf : Bool
  qful : Bool
  snap : Bool
  causeReset : Bool
  causePeer : Bool
  causeNew : Bool
  causeSpan : Bool
  evtMask : BitVec 16
  nextSeq : Nat
  house : Queue
  dropped : Nat
  seen : BitVec 32
  reply : Reply
  /-- sequence numbers of the previous EVT_READ reply -/
  lastRead : List Nat
  jptr : Nat
  /-- the signal of R45 is driven: ALERT_N, or the serial port's attention pin -/
  signal : Bool
  /-- the live reply last copied, while its transfer is open -/
  copied : Option Copied
  /-- the bytes the part last sent on the port -/
  out : List Byte
  deriving DecidableEq, Repr

/-- The command channel, R326. -/
structure Chan where
  rdy : Bool
  wake : Bool
  accepted : Option FeatSet
  tw : PortSt
  hs : PortSt
  tags : List (Option Tag)
  deferred : List Deferred
  faults : BitVec 32
  faultFrame : Nat
  /-- publications made; records carry the number of theirs -/
  pubs : Nat
  /-- records written since the last reset -/
  ord : Nat
  /-- house records awaiting their publication -/
  staged : List QRec
  deriving DecidableEq, Repr

/-- The AON block and the mode logic, R57. -/
structure Aon where
  mode : Mode
  prev : Mode
  why : Nat
  rate : Nat
  dozeHz : Nat
  wakeRate : Nat
  nohib : Bool
  dozeMax : Nat
  dozeMin : Nat
  hostHold : Nat
  wakeHold : Nat
  wakeSrc : BitVec 6
  enGpio : Bool
  enHs : Bool
  enTw : Bool
  gpioLevel : BitVec 16
  gpioMask : BitVec 16
  scShdn : Bool
  scVinlow : Bool
  scVhv : Bool
  scWdog : Bool
  vhvLatch : Bool
  vhvCnt : Nat
  lapse0 : Bool
  lapse1 : Bool
  unmet : Bool
  deriving DecidableEq, Repr

/-- The mode choice and what acts on it, R40-R56. -/
structure ModeSt where
  chosen : ModeSel
  forced : Option ModeSel
  /-- a mode change awaiting its frame boundary, with its WHY code -/
  pending : Option (ModeSel × Nat)
  floor : Bool
  hibEntry : Bool
  hostService : Bool
  houseRun : Bool
  /-- sources of WAKESRC that came during an entry to HIBERNATE and are served after it (R49) -/
  entryWake : BitVec 6
  /-- the wake floor raised the last choice (R57) -/
  floorUp : Bool
  vinLow : Bool
  vhvNow : Bool
  wdogNow : Bool
  bootHold : Bool
  deriving DecidableEq, Repr

/-- A request of R64. -/
structure Req where
  cls : Nat
  who : Nat
  cost : Nat
  incr : Bool
  waits : Nat
  stage : Nat
  arrival : Nat
  revocable : Bool
  deriving DecidableEq, Repr

/-- A held grant of R64; `order` is the count of grants at its making, so a higher one is newer. -/
structure Grant where
  cls : Nat
  who : Nat
  cost : Nat
  revocable : Bool
  order : Nat
  deriving DecidableEq, Repr

/-- A requester waiting to ask again (R68, R69): in frames, or by time when `frames` is none. -/
structure ReReq where
  cls : Nat
  who : Nat
  frames : Option Nat
  /-- waits for the end of a dip (R70) -/
  dip : Bool
  deriving DecidableEq, Repr

/-- Supply, domains and the Hearth, R80. -/
structure Power where
  cap : Nat
  capNext : Option Nat
  exc25 : Nat
  exc5 : Nat
  boostHu : Nat
  fanStart : Nat
  blFloor : Nat
  blFull : Nat
  progHu : Nat
  eraseHu : Nat
  slots : List (Option Grant)
  reqs : List Req
  rereq : List ReReq
  /-- the arrival last given, and the tick at which it was (R66) -/
  arrivals : Nat
  arrivedAt : Nat
  grants : Nat
  denied : Nat
  eighth : Nat
  dip : Bool
  dipSeen : Bool
  overcap : Bool
  guard : Bool
  vmotUv : Bool
  domSense : Bool
  domDrive : Bool
  domCore : Bool
  deriving DecidableEq, Repr

/-- The input meter and the boost, R61, R80. -/
structure Meter where
  /-- the last 100 samples: power in 10 mW, VIN mA, VMOT mA -/
  samples : List (Nat × Nat × Nat)
  vinMv : Nat
  vinMa : Nat
  vmotMv : Nat
  vmotMa : Nat
  avg : Nat
  peak : Nat
  vhvMeas : Nat
  vhvLast : Nat
  boostOn : Bool
  boostStarting : Bool
  soft : Bool
  deriving DecidableEq, Repr

/-- Clocks and timebase, R99. -/
structure Clk where
  tb : Nat
  frac : Nat
  timeHi : Nat
  keepRail : Bool
  coasted : Bool
  spare : Bool
  xtalFail : Bool
  lock : Bool
  xtal : Bool
  cload : Nat
  lastGate : Nat
  gates : List Nat
  gateCount : Nat
  slew : Int
  coastMs : Nat
  coastRem : Nat
  /-- the timebase and AONCLK run from the keeper -/
  onKeeper : Bool
  /-- quarter ticks of the present keeper cycle, 125 to a cycle (R85) -/
  keepQ : Nat
  /-- the 2-bit accumulator of R85 -/
  keepAcc : Nat
  /-- keeper cycles until the tick and AONCLK change to the crystal (R90, R96) -/
  toXtal : Option Nat
  /-- the instant of the last DOZE sweep, or of the entry to DOZE, in quarter ticks (R89) -/
  sweepAt : Nat
  /-- the timebase is held at 0 (R533) -/
  held : Bool
  goodRun : Nat
  badRun : Nat
  /-- CORECLK is stopped: HIBERNATE, or DOZE between sweeps -/
  coreStopped : Bool
  /-- engine cycles not yet a whole tick -/
  cyc : Nat
  deriving DecidableEq, Repr

/-- Counts of a ledger period, R511. -/
structure Period where
  start : Nat
  flags : Nat
  counted : Nat
  active : Nat
  safe : Nat
  touches : Nat
  fans : List Nat
  energy : Nat
  energyRem : Nat
  peaks : List Int
  sets : Nat
  progs : List Nat
  deriving DecidableEq, Repr

/-- Journal and its spill, R504-R507. -/
structure Jrn where
  next : Nat
  /-- the next number at the last publication: records from here on are not readable yet (R19) -/
  shown : Nat
  ring : List Rec
  spillNext : Nat
  spillOld : Nat
  force : Bool
  waiting : List Rec
  writeAt : Nat
  lostRun : Bool
  lostCount : Nat
  lostFirst : Nat
  deriving DecidableEq, Repr

/-- The wall clock, R508. -/
structure Wc where
  secs : Nat
  ticks : Nat
  set : Bool
  coast : Bool
  secHi : Nat
  frac : Nat
  fracSet : Bool
  fracCoast : Bool
  deriving DecidableEq, Repr

/-- The ledger, R510-R531. -/
structure Led where
  running : Bool
  len : Nat
  align : Nat
  ckpt : Nat
  hmac : Bool
  lock : Bool
  high : Nat
  /-- the end of the open period when a change of the grid left it standing (R523) -/
  nbHeld : Option Nat
  period : Period
  nextSeq : Nat
  chain : Option Nat
  prevMac : Option (List Byte)
  queue : List (Nat × List Byte)
  slot : Nat
  oldestFlash : Nat
  deriving DecidableEq, Repr

/-- A profile set: the stock number last assigned (0xFF custom) and the 32-byte record, R123, R124. -/
structure ProfSet where
  stock : Nat
  record : List Byte
  deriving DecidableEq, Repr

/-- The front end, R122, R127. -/
structure Fe where
  /-- as last assigned -/
  sets : List ProfSet
  /-- as in effect in the frames -/
  applied : List (List Byte)
  inUse : Nat
  bins : List Nat
  hops : Nat
  noQuiet : Bool
  hopHeld : Bool
  scanFb : Bool
  hopped : Bool
  minv : Bool
  run : Bool
  crej : Nat
  vhvSet : Nat
  appA : Nat
  appB : Nat
  ampLim : Bool
  /-- the total a SCAN fall-back holds, 0.5 Vpp units (R68) -/
  scanAmp : Option Nat
  /-- values applied in the last MUTUAL slot: samples per step, cycles of tone A and B, bin -/
  toneS : Nat
  toneCyc : Nat
  toneBcyc : Nat
  toneBin : Nat
  ftwA : Nat
  ftwB : Nat
  mutA : Nat
  mutB : Nat
  /-- the present tuning words; that of tone B stands while tone B is off -/
  wordA : Nat
  wordB : Nat
  llen : Nat
  mlen : Nat
  deriving DecidableEq, Repr

/-- Front-end controls, ranges and line faults, R106, R121, R127. -/
structure FeCtl where
  censel : BitVec 32
  /-- the exclusions as in effect since the last boundary -/
  censelOn : BitVec 32
  fix : Bool
  fixG : Nat
  /-- the range control as in effect since the last boundary -/
  fixOn : Bool
  fixGOn : Nat
  clip : BitVec 40
  clipTry : BitVec 40
  txoff : BitVec 64
  txRuns : List Nat
  /-- channels clipped at x1 in every MUTUAL slot since each last was not -/
  clipRuns : List Nat
  rngL : List Nat
  rngM : List Nat
  rngC : List Nat
  deriving DecidableEq, Repr

/-- The census and the tone choice, R112-R114. -/
structure Census where
  /-- accepted scores of the epoch, per bin -/
  acc : List (List Nat)
  /-- twice the median of the accepted scores of the last completed epoch, per bin -/
  refs : List (Option Nat)
  epochDone : Bool
  rejEpoch : BitVec 32
  /-- accepted scores and rejections of frames after the epoch whose end is still to come -/
  accNext : List (List Nat)
  rejNext : BitVec 32
  rejNow : BitVec 32
  scores : List Nat
  urgent : Nat
  /-- the bin a decided move goes to, and whether the move was urgent -/
  move : Option Nat
  moveUrgent : Bool
  deriving DecidableEq, Repr

/-- What a guard driver or a companion pin carries (R132-R134): nothing, a fixed level, a copy of tone A or of the CHARGE
excitation with its amplitude in 1/64 mV, or, for a companion, the input of R105. -/
inductive Drive where
  | highZ
  | level (code : Nat)
  | toneA (amp : Nat)
  | copy (amp : Nat)
  | input
  deriving DecidableEq, Repr

/-- Charge mode and guards as applied, R161, with what the guards and the companions carry: in LISTEN and between slots, in
the last MUTUAL slot and in the last CHARGE slot. -/
structure Chg where
  clen : Nat
  cper : Nat
  cvpp : Nat
  run : Bool
  goff : List Bool
  gclip : List Bool
  level : List Nat
  csrc : List Nat
  msrc : List Nat
  gdIdle : List Drive
  gdMutual : List Drive
  gdCharge : List Drive
  rgMutual : Drive
  rgCharge : Drive
  deriving DecidableEq, Repr

/-- One bank of raw planes, R15, R116, with what the computation needs to know of its frame. -/
structure Bank where
  ia : List Int
  qa : List Int
  ib : List Int
  qb : List Int
  range : List Nat
  stxI : List Int
  stxQ : List Int
  srxI : List Int
  srxQ : List Int
  censusA : List Nat
  censusB : List Nat
  /-- magnitudes of each channel at the present bin, tone A and tone B (R112) -/
  magA : List Nat
  magB : List Nat
  listen : Bool
  mutualOn : Bool
  charge : Bool
  minv : Bool
  hop : Bool
  rejected : Bool
  /-- the bins whose samples were rejected -/
  rejMask : BitVec 32
  bin : Nat
  appA : Nat
  appB : Nat
  /-- pins that clamped in the frame -/
  clamped : BitVec 177
  /-- lines held off and lines treated as open in the frame (R121, R151) -/
  openTx : BitVec 64
  openRx : BitVec 40
  valid : Bool
  deriving DecidableEq, Repr

/-- The planes: the bank being written, the bank computed, and the derived planes, R15, R16. -/
structure Planes where
  write : Bank
  comp : Bank
  film : List Int
  delta : List Int
  cls : List Nat
  force : List Int
  forceValid : List Bool
  /-- bridges enabled in the window of the latch -/
  forceEn : List Bool
  frame : Nat
  deriving DecidableEq, Repr

/-- The clamp monitor, R135-R137, R151. -/
structure Clamp where
  flags : BitVec 177
  opened : BitVec 177
  counters : List Nat
  lastClamp : List (Option Nat)
  lastEvent : List (Option Nat)
  inFrame : BitVec 177
  sel : Nat
  /-- pins restored at the next frame boundary (R151) -/
  restore : BitVec 177
  /-- the monitor's last start, the instant it stopped while it is off, and the ticks it has been off, whole intervals
  (R136, R151) -/
  since : Nat
  offAt : Option Nat
  skipped : Nat
  /-- per pin, in ticks of monitoring: the start of its present clamping, and its last clamp (R151) -/
  runAt : List (Option Nat)
  runLast : List (Option Nat)
  deriving DecidableEq, Repr

/-- One force bridge, R138-R141, R162. `...W` are the settings last written, the others those in force. -/
structure Bridge where
  enW : Bool
  exc5W : Bool
  pgaW : Nat
  gaugeW : Nat
  en : Bool
  exc5 : Bool
  pga : Nat
  gauge : Nat
  valid : Bool
  fault : Bool
  reg : Bool
  at25 : Bool
  sat : Bool
  excited : Bool
  /-- the excitation is 5.0 V -/
  at5 : Bool
  discard : Nat
  sum : Int
  count : Nat
  mean : Int
  nconv : Nat
  vexp : Nat
  vexs : Nat
  badRun : Nat
  goodRun : Nat
  satRun : Nat
  deriving DecidableEq, Repr

/-- One thermistor input, R142-R144. -/
structure Thm where
  en : Bool
  beta : Nat
  temp : Int
  fail : Bool
  failSeen : Bool
  good : Nat
  /-- the temperature of the last conversion in range -/
  own : Int
  deriving DecidableEq, Repr

/-- The thermistor inputs and the die sensor. -/
structure Therm where
  inputs : List Thm
  die : Int
  deriving DecidableEq, Repr

/-- The surface state of R167. -/
structure Surface where
  wet : Bool
  flooded : Bool
  /-- counted frames in a row at E at or above 12, and below 4 -/
  wetRun : Nat
  dryRun : Nat
  /-- a change decided in the last counted frame, in effect from the next -/
  nextWet : Bool
  nextFlooded : Bool
  e : Nat
  swamped : Bool
  swampRun : Nat
  clearRun : Nat
  swampCount : Nat
  /-- the surface was swamped at the start of the frame -/
  swampHold : Bool
  deriving DecidableEq, Repr

/-- A fragment of R168, R169. Positions are in the tile's frame, in units of 1/65536 of 0.1 mm. -/
structure Frag where
  peak : Nat
  amp : Int
  cls : Nat
  nodes : List Nat
  x : Int
  y : Int
  axis : Int
  deriving DecidableEq, Repr

/-- A candidate, R171-R173. -/
structure Cand where
  /-- the number by which a palm's shadow knows it (R170) -/
  key : Nat
  peak : Nat
  amp : Int
  cls : Nat
  count : Nat
  onset : Nat
  /-- an area of 1 to 9 nodes in every counted frame -/
  areaOk : Bool
  nodes : Nat
  x : Int
  y : Int
  axis : Int
  matched : Bool
  /-- the count at which it qualified is reached; it waits for an ID or a place (R180) -/
  waiting : Bool
  byForce : Bool
  held : Bool
  isNew : Bool
  deriving DecidableEq, Repr

/-- A contact, R174-R177. -/
structure Contact where
  id : Nat
  /-- the number of the candidate it was -/
  key : Nat
  peak : Nat
  amp : Int
  cls : Nat
  onset : Nat
  /-- position in the tile's frame, and displacement per frame -/
  x : Int
  y : Int
  dx : Int
  dy : Int
  axis : Int
  matched : Bool
  coast : Nat
  coasted : Bool
  fconf : Bool
  edge : Bool
  isNew : Bool
  ended : Bool
  /-- span-global position of R176, 0.1 mm -/
  gx : Nat
  gy : Nat
  strength : Nat
  flags : Nat
  /-- the span-global position in the previous frame -/
  oldX : Int
  oldY : Int
  /-- contexts the contact is assigned to (R221) -/
  ctxs : BitVec 32
  /-- frames since confirmation, saturating at 255 -/
  age : Nat
  /-- less than half a pitch from its position in the previous frame (R200) -/
  still : Bool
  deriving DecidableEq, Repr

/-- A palm shadow, R170: centre, major axis, counted frames left, and the candidate or contact that its palm formed; for a
palm of another tile, where it lies and its onset. -/
structure Shadow where
  x : Int
  y : Int
  axis : Int
  left : Nat
  key : Nat
  foreign : Option Nat
  amp : Int
  live : Bool
  deriving DecidableEq, Repr

/-- The contact pipeline, R185. -/
structure Pipe where
  /-- filt of R164 per node, with 32 fractional bits -/
  filt : List Int
  /-- resid of the frame in nu x 16, not a plane -/
  resid : List Nat
  surface : Surface
  /-- classes of R166 before palms and shadows -/
  frags : List Frag
  cands : List Cand
  /-- the candidates before the collisions and the counting of the frame, to which a held frame returns (R446) -/
  before : List Cand
  /-- numbers given to candidates so far -/
  keys : Nat
  contacts : List Contact
  shadows : List Shadow
  /-- contacts that ended and are still to be listed once (R175, R183) -/
  endedList : List Contact
  idle : List Nat
  quiet : List Bool
  /-- the frame counts (R167) -/
  counted : Bool
  riseRun : Nat
  approachDue : Bool
  lastForce : List Int
  lastForceValid : List Bool
  lastForceEn : List Bool
  /-- touches confirmed since the ledger last counted them (R511) -/
  touches : Nat
  deriving DecidableEq, Repr

/-- One history of signs, R191. -/
structure Tarn where
  hist : Nat
  n : Nat
  k : Nat
  alt : Bool
  deriving DecidableEq, Repr

/-- One channel's noise unit, R190: `nu` has 4 fractional bits and 0 means invalid; the window holds magnitudes with 8
fractional bits. -/
structure NuSt where
  nu : Nat
  window : List Nat
  fresh : Nat
  due : Bool
  deriving DecidableEq, Repr

/-- The calibrated quantities that a save point of R212 copies. -/
structure CalData where
  nus : List NuSt
  bia : List Int
  bqa : List Int
  bib : List Int
  bqb : List Int
  cbI : List Int
  cbQ : List Int
  tapA : List Nat
  tapB : List Nat
  thr : List Nat
  gsc : List Nat
  rsc : Nat
  zero : List Int
  rel : List Nat
  zcap : List Bool
  trim : Int
  captured : Bool
  capturedB : Bool
  capturedC : Bool
  deriving DecidableEq, Repr

/-- The Tarn histories of the node values and of the charge baselines. -/
structure Tarns where
  ia : List Tarn
  qa : List Tarn
  ib : List Tarn
  qb : List Tarn
  ci : List Tarn
  cq : List Tarn
  deriving DecidableEq, Repr

/-- Statistics of the present epoch. -/
structure EpochSt where
  psiA : List (List Int)
  psiB : List (List Int)
  quiet : List Nat
  near : List Nat
  /-- ratios of R198 with 16 fractional bits, per guard, and of all companions -/
  gamma : List (List Nat)
  gammaR : List Nat
  zero : List (List Int)
  /-- load shares of R200 with 24 fractional bits, per bridge -/
  span : List (List Int)
  steps : Nat
  deriving DecidableEq, Repr

/-- Calibration beside its data, R201, R206, R208, R215. -/
structure Cal where
  d : CalData
  save : Option CalData
  tarns : Tarns
  ep : EpochSt
  fast : Nat
  fastOn : Bool
  resumed : Nat
  hop : Nat
  freeze : BitVec 16
  seeded : Bool
  epoch : Nat
  /-- the epoch now open, modulo 2^24; none before the first frame -/
  endDone : Option Nat
  /-- baselines await the transfer of R204; tone B was on before the move -/
  xfer : Bool
  xferB : Bool
  mvPhase : Nat
  mvGuard : Nat
  mvThresh : Nat
  mvSteps : Nat
  mvZero : Nat
  mvRel : Nat
  mvKeeper : Nat
  tInit : Nat
  tMax : Nat
  tMin : Nat
  chSel : Nat
  nodeSel : Nat
  x0 : Nat
  x1 : Nat
  y0 : Nat
  y1 : Nat
  rail : BitVec 5
  /-- consecutive epoch ends each condition of R206 has held: threshold, guards and companions, spans, zeros, phases
  (channels of tone A, then of tone B), and which have been reported -/
  railRuns : List Nat
  railDone : List Bool
  railVal : List Int
  /-- last amplitude of each tone at which MUTUAL ran (R194) -/
  lastA : Nat
  lastB : Nat
  /-- S at which nu was last traced, held until the window refills after a hop -/
  stepS : Nat
  /-- bridges whose ZERO a seed gave before they were enabled (R211), and those whose present latch was formed under older
  settings (R199) -/
  seedZ : List Bool
  zwait : List Bool
  deriving DecidableEq, Repr

/-- A contract record, R33. -/
structure Contract where
  report : Nat
  wake : Nat
  wset : BitVec 16
  grace : Nat
  deriving DecidableEq, Repr

/-- A rectangle of a region, R220. -/
structure Rect where
  x0 : Nat
  y0 : Nat
  x1 : Nat
  y1 : Nat
  excl : Bool
  deriving DecidableEq, Repr

/-- What is bound to a context: nothing, a stock program with its parameter block, or an image. -/
inductive Program where
  | none
  | stock (num : Nat) (params : List Byte)
  | image
  deriving DecidableEq, Repr

/-- The bound image, R273, R281. -/
structure Image where
  base : Nat
  size : Nat
  xip : Bool
  /-- bytes the whole image spans in the flash window, for R284 -/
  span : Nat
  init : Nat
  frame : Nat
  mail : Nat
  event : Nat
  estimate : Nat
  caps : BitVec 16
  imageId : Nat
  digest : List Byte
  signed : Bool
  roomInit : List Byte
  /-- the header and the trailer, which with the code and the room initialisation make up the image (R442) -/
  header : List Byte
  trailer : List Byte
  deriving DecidableEq, Repr

/-- A notice of R229: its word, and the span message it brings. -/
structure Notice where
  word : Nat
  /-- the frame from whose context pass on it is seen (R229) -/
  since : Nat
  msg : List Byte
  deriving DecidableEq, Repr

/-- What a stock program keeps of one contact (R293, R294): where it was confirmed, the square of its travel, whether a
force floor was met, the hold times passed, and whether it began in the start zone of a drag and has left the track. -/
structure StockTrack where
  id : Nat
  x0 : Nat
  y0 : Nat
  travel2 : Nat
  floorMet : Bool
  holds : Nat
  inTrack : Bool
  left : Bool
  deriving DecidableEq, Repr

/-- A tap that waits for a second one: its end and onset in ticks, its place and its ID. -/
structure TapSt where
  ended : Nat
  onset : Nat
  x : Nat
  y : Nat
  id : Nat
  deriving DecidableEq, Repr

/-- A knock that has risen: the frames since, the peak, and the frame of the rise. -/
structure KnockSt where
  count : Nat
  peak : Int
  frame : Nat
  deriving DecidableEq, Repr

/-- The pair of a pinch: its IDs, the reference distance and angle (2^-24 turn), and the scale (1/256) and angle last
reported. -/
structure PinchSt where
  a : Nat
  b : Nat
  refD : Nat
  refA : Int
  lastS : Int
  lastA : Int
  deriving DecidableEq, Repr

/-- The state of a stock program, R290-R294. -/
structure StockSt where
  tracks : List StockTrack
  tap : Option TapSt
  /-- force of the last turn where valid, and its frame -/
  knockPrev : Option Int
  knockFrame : Nat
  knock : Option KnockSt
  /-- start of MUTUAL of the frame of the last knock -/
  knockLast : Option Nat
  pinch : Option PinchSt
  /-- records left over for the next turn (R292) -/
  backlog : List Rec
  deriving DecidableEq, Repr

/-- A context, R216-R238. -/
structure Ctx where
  /-- state code of R216 -/
  st : Nat
  owner : Port
  caps : BitVec 16
  prio : Nat
  budget : Nat
  region : List Rect
  contract : Contract
  prog : Program
  img : Image
  room : List Host.Cell
  regs : List Word
  pc : Nat
  z : Bool
  n : Bool
  c : Bool
  v : Bool
  notices : List Notice
  lostNotice : Bool
  lostQueue : Bool
  mailIn : List Byte
  mailNew : Bool
  /-- the mail was in the box at the last K: the program sees it (R231) -/
  mailVis : Bool
  mailOut : List Byte
  queue : Queue
  deriving DecidableEq, Repr

/-- What a context holds beside R216's list: the last turn, the fault, requests and stock state. -/
structure CtxRun where
  used : Nat
  cause : Nat
  detail : Nat
  faultPc : Nat
  /-- the init entry is still to run (fresh start) -/
  initDue : Bool
  fanReq : List Nat
  blReq : List (Option Nat)
  /-- the SELF shelf of the pass (R223) -/
  self : List Byte
  poll : Nat
  stock : StockSt
  deriving DecidableEq, Repr

/-- A load session of a host image, R278. -/
structure Session where
  ctx : Nat
  length : Nat
  bytes : List Byte
  /-- the image lies in flash at an offset, executed in place or copied (R283) -/
  flash : Option (Nat × Bool)
  headerOk : Bool
  /-- bytes of code store reserved, and the block, none while compaction gathers it (R224, R280) -/
  reserved : Nat
  place : Option Nat
  /-- its IMG_END or IMG_FROM_FLASH is verifying: its tag -/
  verifying : Option Nat
  /-- IMG_END came before every byte had (R281) -/
  short : Bool
  /-- a read of its flash failed (R288) -/
  bad : Bool
  deriving DecidableEq, Repr

/-- An image verified and waiting for the next K, or for compaction (R281, R286). -/
structure BindWait where
  ctx : Nat
  tag : Nat
  img : Image
  code : List Byte
  reserved : Nat
  place : Option Nat
  deriving DecidableEq, Repr

/-- The turn of the engine, R226. -/
structure Turn where
  /-- contexts still to run in this pass, the one in its turn first -/
  left : List Nat
  /-- entries left in the turn: 0 init, 1 mail, 2 event, 3 frame -/
  entries : List Nat
  inEntry : Bool
  used : Nat
  emits : Nat
  sends : Nat
  /-- the notice of the event entry running -/
  msg : Option Notice
  entryKind : Nat
  deriving DecidableEq, Repr

/-- The Dyrel engine, R224, R238. -/
structure Eng where
  turn : Option Turn
  code : List Host.Cell
  compact : Bool
  /-- KiB still to move before compaction ends -/
  compactLeft : Nat
  passCyc : Nat
  passNow : Nat
  /-- the FRAME and THERMAL shelves of the pass (R223) -/
  frameShelf : List Byte
  thermShelf : List Byte
  /-- the freeze mask that SYS FREEZE sets at the next K (R265) -/
  freezeNext : Option Nat
  pcap0 : BitVec 16
  pcap1 : BitVec 16
  ctxSel : Nat
  rateCap : Bool
  slipCnt : Nat
  slipRun : Nat
  /-- PCAP is locked by FEAT_ACCEPT (RWL) -/
  sessions : List Session
  aborted : List Nat
  binds : List BindWait
  deriving DecidableEq, Repr

/-- One OTP key slot, R276, R297. -/
structure OtpSlot where
  hash : List Byte
  check : Nat
  lock : Bool
  deriving DecidableEq, Repr

/-- An OTP key write under way: image key or ledger key, its slot, its hash, SIGREQ asked, its tag. -/
structure OtpWrite where
  ledger : Bool
  slot : Nat
  hash : List Byte
  sigreq : Bool
  tag : Option Nat
  deriving DecidableEq, Repr

/-- OTP, R276, R529, R533. -/
structure Otp where
  imgA : OtpSlot
  imgB : OtpSlot
  sigreq : Bool
  ledA : OtpSlot
  ledB : OtpSlot
  uid : Nat
  trim : Int
  write : Option OtpWrite
  deriving DecidableEq, Repr

/-- The frame timer and the passes, R13-R30. `phase`: 0 idle, 1 a computation runs its pre-pass results, 2 the context
pass is open, 3 published. -/
structure Frame where
  n : Nat
  /-- the frame being computed or last computed -/
  comp : Nat
  phase : Nat
  /-- frames run: the last boundary was a frame boundary and none has stopped them since -/
  running : Bool
  started : Bool
  sensed : Bool
  /-- start of MUTUAL of the frame sensed and of the frame computed, ticks -/
  mutStart : Nat
  mutComp : Nat
  /-- the frame computed is the first since frames resumed -/
  first : Bool
  firstNext : Bool
  /-- pause of more than 60 s before the resume (R201): timebase when frames stopped -/
  stoppedAt : Option Nat
  /-- the timebase at the last boundary, and what its whole ticks left over, in thirds of a tick (R13) -/
  bTb : Nat
  bFrac : Nat
  /-- the wall clock at the last boundary, and at that of the frame computed (R223) -/
  utc : Nat
  utcComp : Nat
  /-- K of the frame computed -/
  kComp : Nat
  deriving DecidableEq, Repr

/-- The two-wire port, R372. -/
structure Tw where
  sdaHold : Nat
  hnRate : Nat
  hnOff : Bool
  arbLost : Bool
  ibrPend : Bool
  hnPend : Bool
  stretch : Bool
  sdaTo : Bool
  sclTo : Bool
  /-- CNT0: CHECK, NOREPLY; CNT1: HNFAIL, TIMEOUTS -/
  check : Nat
  noReply : Nat
  hnFail : Nat
  timeouts : Nat
  wakeUs : Nat
  maxUs : Nat
  hnRun : Nat
  retries : Nat
  /-- SDA is driven low for an in-band request -/
  ibr : Bool
  /-- FM+ sink and timing, and PEC required, as applied from the STOP of the accepting transaction -/
  fmPlus : Bool
  pecReq : Bool
  deriving DecidableEq, Repr

/-- The serial port, R397. -/
structure Hs where
  woff : Nat
  wlen : Nat
  cfgNext : Option (Nat × Nat)
  e : Nat
  eOpen : Bool
  early : Bool
  cpol : Bool
  alive : Nat
  check : Nat
  misPos : Nat
  busy : Nat
  nclk : Nat
  atnEn : Bool
  atnGp : Nat
  /-- CRC of the last frame to pass step 2, and the alive byte its reply carries -/
  lastCrc : Option Nat
  replyAlive : Nat
  present : Bool
  /-- the port is absent from the next transaction on (R311) -/
  absentNext : Bool
  deriving DecidableEq, Repr

/-- A fence, R412: a range of flash, and whether its recovery is given up. -/
structure Fence where
  base : Nat
  len : Nat
  code : Nat
  held : Bool
  deriving DecidableEq, Repr

/-- A flash operation, R411, R412: kind 1 program, 2 erase; who asked: 0 host, 1 spill, 2 ledger, 3 intent, 4 map,
5 recovery, 6 context. -/
structure FlashOp where
  kind : Nat
  who : Nat
  addr : Nat
  len : Nat
  data : List Byte
  tag : Option Nat
  ctx : Nat
  granted : Bool
  running : Bool
  eraseCode : Nat
  seq : Nat
  deriving DecidableEq, Repr

/-- A prefetch line, R408. -/
structure Line where
  addr : Nat
  used : Nat
  deriving DecidableEq, Repr

/-- A descriptor transfer of a context, R425. -/
structure MemXfer where
  ctx : Nat
  write : Bool
  flash : Nat
  room : Nat
  len : Nat
  deriving DecidableEq, Repr

/-- The flash map, R405, R406: areas as (offset, length), none where absent. -/
structure FlashMap where
  seq : Nat
  copy : Nat
  intent : Option (Nat × Nat)
  ledger : Option (Nat × Nat)
  spill : Option (Nat × Nat)
  image : Option (Nat × Nat)
  seed : Option (Nat × Nat)
  deriving DecidableEq, Repr

/-- The memory port, R426. -/
structure MemPort where
  flash : List Host.Cell
  profile : Option (List Byte)
  map : Option FlashMap
  discovered : Bool
  mapValid : Bool
  div : Nat
  sel : Nat
  cont : Bool
  xipEn : Bool
  op : Option FlashOp
  waiting : List FlashOp
  susp : Bool
  recov : Bool
  fences : List Fence
  lines : List Line
  lineClock : Nat
  filling : Option Nat
  hits : Nat
  misses : Nat
  timeouts : Nat
  rdErr : Nat
  delay : Nat
  intentSeq : Nat
  intentSector : Nat
  intentSlot : Nat
  erases : Nat
  xfer : Option MemXfer
  /-- data of finished reads for the post-pass: context, room address, bytes (R266) -/
  toRoom : List (Nat × Nat × List Byte)
  sfdp : List Byte
  deriving DecidableEq, Repr

/-- A member as the leader or a follower knows it, R466. -/
structure Member where
  pos : Nat
  uid : Nat
  feats : FeatSet
  hash : Nat
  st : Nat
  hops : Nat
  latch : Nat
  deriving DecidableEq, Repr

/-- A proposal of two-phase commit, R443: kind 1 mode, 2 configuration, 3 admission; phase 1 proposed, 2 committed; its
subject as the beacon carries it, and how many waiting configuration commands it covers. -/
structure Proposal where
  kind : Nat
  phase : Nat
  effect : Nat
  subject : List Byte
  ready : BitVec 16
  refused : Bool
  deriving DecidableEq, Repr

/-- The span link, R463-R469. -/
structure Span where
  /-- R465: 0 alone, 1 claiming, 2 leader, 3 follower, 4 HELD, 5 excluded -/
  role : Nat
  leader : Nat
  split : Bool
  dupPos : Bool
  lock : Bool
  /-- the part is a member whose tile is in the span: leader or follower -/
  joined : Bool
  /-- masks of positions: joined, HELD, excluded -/
  members : BitVec 16
  heldMask : BitVec 16
  excl : BitVec 16
  /-- the set in force, R452 -/
  inForce : FeatSet
  /-- the part has led since reset (R451) -/
  led : Bool
  config : List Byte
  colour : Nat
  cepoch : Nat
  d : Int
  rtt : Nat
  hops : Nat
  parts : Nat
  crcErr : Nat
  lost : Nat
  late : Nat
  aborts : Nat
  /-- configuration bytes received by the present pull -/
  pulled : Nat
  deriving DecidableEq, Repr

/-- What the span exchanges: members, proposals, packets, stitching, relays. -/
structure SpanX where
  table : List Member
  /-- the timebase when a CLAIM that ranks before the part's own, or a BEACON, was last seen -/
  claimAt : Option Nat
  /-- the leader's proposal, or the one that a follower has seen -/
  proposal : Option Proposal
  /-- a committed proposal whose effect frame is still to come -/
  commit : Option Proposal
  /-- the leader's next beacon carries a new code-allocation epoch -/
  recolour : Bool
  /-- a mode the leader has chosen and not yet committed (R41) -/
  modeNext : Option ModeSel
  /-- HELD members that have adopted and ask for admission -/
  adopted : BitVec 16
  /-- a follower's beacon for its next boundary, and where that boundary lies, ticks -/
  beacon : Option (List Byte)
  beaconAt : Nat
  /-- the beacon of the next frame has left the leader -/
  beaconSent : Bool
  /-- the move that the leader's last beacon announced -/
  binSaid : Option Nat
  /-- the packets last sent, the newest last, at most 64 -/
  sent : List Packet
  /-- configuration parts received: kind 0 the whole, 1 a change; and how many bytes they will be -/
  recvKind : Nat
  recvTotal : Nat
  recv : List Byte
  /-- the changes of the present proposal, as (port, code, payload) -/
  changes : List Deferred
  /-- a whole configuration that was verified and is adopted at the next K -/
  adopt : Option (List Byte)
  /-- pulls that the leader serves: position, and where the next byte lies -/
  pulls : List (Nat × Nat)
  pullTag : Option Nat
  stitches : List (Nat × List Byte)
  censuses : List (Nat × List Byte)
  /-- the member's own stitch has been sent in this frame -/
  stitchSent : Bool
  /-- IDs held in the span, and for the others the counted frames since, up to 4 (R445) -/
  idHeld : BitVec 64
  /-- IDs that this part could not take over, for its next STITCH -/
  endSaid : BitVec 64
  /-- where DECIDE last placed a contact: ID, frame, x, y (R257) -/
  places : List (Nat × Nat × Nat × Nat)
  idIdle : List Nat
  /-- contexts that trapped on some member, FAULTED at the next K (R235) -/
  faultNext : BitVec 32
  lateRuns : List Nat
  lateDone : List Bool
  crcRun : Nat
  crcDone : Bool
  /-- commands relayed and not answered: position and tag, oldest first (R468) -/
  relays : List (Nat × Nat)
  /-- members whose end marker of the frame computed has come (R449) -/
  markers : BitVec 16
  /-- the contexts each span ID was assigned to at its confirmation (R221) -/
  assign : List (BitVec 32)
  msgsOut : List (Nat × Nat × List Byte)
  msgsIn : List (Nat × Nat × List Byte)
  deriving DecidableEq, Repr

/-- A fan, R474-R478, R487-R490, R494, R498-R500. -/
structure Fan where
  record : List Byte
  /-- a record set and not yet applied (R498) -/
  recNext : Option (List Byte)
  skips : List (Nat × Nat)
  /-- state code of R500 -/
  st : Nat
  failed : Bool
  cause : Nat
  /-- the speed last formed, and those of the last 100 ticks (R476) -/
  inst : Nat
  window : List Nat
  /-- the speed reported -/
  speed : Nat
  /-- setpoint in 1/1000 rpm -/
  setMil : Nat
  target : Nat
  /-- drive in 0.1 %, and the integral in 1/65536 (R477) -/
  drive : Nat
  integ : Nat
  current : Nat
  temp : Int
  /-- milliseconds to the next retry -/
  retryMs : Nat
  epis : Nat
  retries : Nat
  fgPeriod : Nat
  /-- milliseconds since the last valid FG pulse -/
  fgIdle : Nat
  /-- 0 align, 1 forced ramp, 2 closed loop (R475) -/
  startStage : Nat
  /-- the spin-up current limit is halved (R68) -/
  halfStart : Bool
  /-- policy target -/
  pol : Nat
  /-- cost of the draw last measured, hu -/
  measured : Nat
  hot : Bool
  holdDenied : Bool
  deriving DecidableEq, Repr

/-- A backlight output, R479, R480. -/
structure Bl where
  freq : Nat
  inverted : Bool
  hostDuty : Nat
  duty : Nat
  limit : Nat
  derating : Bool
  curve : List Byte
  pend : Option Nat
  /-- what a slew left over, in ticks x 0.1 % per second -/
  slewRem : Nat
  deriving DecidableEq, Repr

/-- The thermal household, R494, R503. -/
structure Thermal where
  policy : Nat
  record : List Byte
  fans : List Fan
  bls : List Bl
  override : Bool
  /-- causes standing: bit 0 TFULL, bit 1 a failed fan, bit 2 SAFE -/
  overCause : Nat
  /-- a policy set and not yet in force (R497) -/
  policyNext : Option (Nat × List Byte)
  /-- the timebase at the last policy run -/
  lastRun : Option Nat
  deriving DecidableEq, Repr

/-- The SHDN_N comparator, R481-R483. -/
structure Shdn where
  asserted : Bool
  x : Nat
  asserts : Nat
  oor : Bool
  assertRun : Nat
  oorRun : Nat
  relRun : Nat
  tcrit : Nat
  /-- the last comparison: TH0 at or above the threshold or out of range, and both temperatures -/
  th0Hot : Bool
  th0 : Int
  die : Int
  deriving DecidableEq, Repr

/-- Straps, pins and resets, R532-R542. -/
structure Pins where
  boot : Nat
  gpos : Nat
  haddr : Nat
  hsm : Bool
  testMode : Bool
  resetLow : Bool
  gp : BitVec 16
  deriving DecidableEq, Repr

/-- Reset and diagnostics, R536, R549. -/
structure Rst where
  kind : Nat
  outcome : Nat
  detail : Nat
  detailCtx : Nat
  /-- diagnostics accepted and not yet ended, the one that runs first: code, payload, tag -/
  diag : List (Nat × List Byte × Nat)
  /-- contexts that a boot path starts once the crystal runs (R97) -/
  bootStarts : List Nat
  deriving DecidableEq, Repr

/-- The machine of the model: every piece of state, and the queue of commands that wait. -/
structure State where
  pending : List Instr
  chan : Chan
  aon : Aon
  md : ModeSt
  power : Power
  meter : Meter
  clk : Clk
  frame : Frame
  fe : Fe
  fc : FeCtl
  census : Census
  chg : Chg
  planes : Planes
  clamp : Clamp
  bridges : List Bridge
  therm : Therm
  pipe : Pipe
  cal : Cal
  ctxs : List Ctx
  runs : List CtxRun
  eng : Eng
  otp : Otp
  tw : Tw
  hs : Hs
  mem : MemPort
  span : Span
  spanx : SpanX
  thermal : Thermal
  shdn : Shdn
  jrn : Jrn
  wc : Wc
  led : Led
  pins : Pins
  rst : Rst
  /-- the model's own: how many free values have been drawn (DESIGN CHOICE, log 3) -/
  freeCtr : Nat
  deriving DecidableEq, Repr

/-! ### Reset: every field at the value the spec gives, or at the value the log names (DESIGN CHOICE, log 2) -/

/-- Reasons a step could fault. No step of this model faults: every command has an effect or an error reply. -/
inductive Fault where
  /-- Raised by no step; kept so that the type has a value. Safe. -/
  | never
  deriving DecidableEq, Repr

/-- Reasons a step could be refused. -/
inductive Refusal where
  /-- The command has no meaning in the model yet, named by its mnemonic. Raised only by the dispatch. Safe. -/
  | notModelled (mnemonic : String)
  deriving DecidableEq, Repr

def Queue.empty : Queue := { recs := [], lost := 0 }

def PortSt.reset : PortSt :=
  { session := false, badf := false, qful := false, snap := false, causeReset := false, causePeer := false,
    causeNew := false, causeSpan := false, evtMask := 0x00FF, nextSeq := 0, house := .empty, dropped := 0, seen := 0,
    reply := .none, lastRead := [], jptr := 0, signal := false, copied := none, out := [] }

/-- The channel at reset, R326; the cause RESET is set when the reset ends. -/
def Chan.reset : Chan :=
  { rdy := false, wake := false, accepted := none, tw := .reset, hs := .reset,
    tags := List.replicate 64 none, deferred := [], faults := 0, faultFrame := 0xFFFFFFFF, pubs := 0, ord := 0, staged := [] }

/-- AON registers, R57. -/
def Aon.reset : Aon :=
  { mode := .boot, prev := .off, why := 0, rate := 0, dozeHz := 0, wakeRate := 2, nohib := false, dozeMax := 10,
    dozeMin := 4, hostHold := 10, wakeHold := 20, wakeSrc := 0, enGpio := false, enHs := true, enTw := true,
    gpioLevel := 0, gpioMask := 0, scShdn := false, scVinlow := false, scVhv := false, scWdog := false,
    vhvLatch := false, vhvCnt := 0, lapse0 := false, lapse1 := false, unmet := false }

def ModeSel.boot : ModeSel := { mode := .boot, rate := 0, hz := 0 }

def ModeSt.reset : ModeSt :=
  { chosen := .boot, forced := none, pending := none, floor := false, hibEntry := false, hostService := false,
    houseRun := false, entryWake := 0, floorUp := false, vinLow := false, vhvNow := false, wdogNow := false, bootHold := true }

/-- R75, R80. -/
def Power.reset : Power :=
  { cap := 80, capNext := none, exc25 := 1, exc5 := 2, boostHu := 10, fanStart := 30, blFloor := 10, blFull := 0,
    progHu := 1, eraseHu := 2, slots := List.replicate 16 none, reqs := [], rereq := [], arrivals := 0, arrivedAt := 0, grants := 0,
    denied := 0, eighth := 0, dip := false, dipSeen := false, overcap := false, guard := false, vmotUv := false,
    domSense := false, domDrive := false, domCore := true }

def Meter.reset : Meter :=
  { samples := [], vinMv := 0, vinMa := 0, vmotMv := 0, vmotMa := 0, avg := 0, peak := 0, vhvMeas := 0, vhvLast := 0,
    boostOn := false, boostStarting := false, soft := false }

/-- R99. -/
def Clk.reset : Clk :=
  { tb := 0, frac := 0, timeHi := 0, keepRail := false, coasted := false, spare := true, xtalFail := false,
    lock := false, xtal := false, cload := 10, lastGate := 0, gates := [], gateCount := 0, slew := 0,
    coastMs := 0, coastRem := 0, onKeeper := false, keepQ := 0, keepAcc := 0, toXtal := none, sweepAt := 0,
    held := true, goodRun := 0, badRun := 0, coreStopped := false,
    cyc := 0 }

def Period.empty : Period :=
  { start := 0, flags := 0, counted := 0, active := 0, safe := 0, touches := 0, fans := [0, 0, 0], energy := 0,
    energyRem := 0, peaks := [-32768, -32768, -32768], sets := 0, progs := [0, 0, 0, 0] }

def Jrn.reset : Jrn :=
  { next := 0, shown := 0, ring := [], spillNext := 0, spillOld := 0, force := false, waiting := [], writeAt := 0, lostRun := false,
    lostCount := 0, lostFirst := 0 }

def Wc.reset : Wc :=
  { secs := 0, ticks := 0, set := false, coast := false, secHi := 0, frac := 0, fracSet := false, fracCoast := false }

/-- R527; the open period of a part whose clock is unset is UNSET. -/
def Led.reset : Led :=
  { running := false, len := 3600, align := 0, ckpt := 60, hmac := false, lock := false, high := 0, nbHeld := none,
    period := { Period.empty with flags := 4 }, nextSeq := 0, chain := none, prevMac := none, queue := [],
    slot := 0, oldestFlash := 0 }

/-- A profile record from its fields, R124, R157. -/
def profileBytes (cyc bcyc toneidx sbase lead lwin vppa vppb cncyc cvpp cshift : Nat) : List Byte :=
  ([0x1F, cyc, bcyc, toneidx, sbase, lead, 1, 18, lwin % 256, lwin / 256, vppa, vppb, 8, 12, 3, 2, 0, 0, 10, 2,
    cncyc % 256, cncyc / 256, cvpp, cshift, 0x59, 0xFF, 0x55, 1, 0, 0, 0, 0]).map (BitVec.ofNat 8)

/-- The four stock profiles, R111, R145. -/
def stockProfile : Nat → List Byte
  | 0 => profileBytes 4 10 8 32 1 756 16 8 135 4 25
  | 1 => profileBytes 2 5 4 16 1 372 16 8 89 4 25
  | 2 => profileBytes 4 10 8 32 1 372 12 4 135 4 25
  | _ => profileBytes 4 10 8 32 2 756 28 12 135 8 26

/-- R122. -/
def Fe.reset : Fe :=
  { sets := [⟨0, stockProfile 0⟩, ⟨1, stockProfile 1⟩, ⟨2, stockProfile 2⟩],
    applied := [stockProfile 0, stockProfile 1, stockProfile 2], inUse := 0, bins := [8, 4, 8], hops := 0,
    noQuiet := false, hopHeld := false, scanFb := false, hopped := false, minv := false, run := false, crej := 0,
    vhvSet := 0, appA := 0, appB := 0, ampLim := false, scanAmp := none, toneS := 40, toneCyc := 4, toneBcyc := 10,
    toneBin := 8, ftwA := 0x00CCCCCD, ftwB := 0x02000000, mutA := 0, mutB := 0, wordA := 0x00CCCCCD, wordB := 0x02000000,
    llen := 768, mlen := 2612 }

def FeCtl.reset : FeCtl :=
  { censel := 0, censelOn := 0, fix := false, fixG := 0, fixOn := false, fixGOn := 0, clip := 0, clipTry := 0, txoff := 0,
    txRuns := List.replicate 64 0, clipRuns := List.replicate 40 0, rngL := List.replicate 40 0,
    rngM := List.replicate 40 0, rngC := List.replicate 104 0 }

def Census.reset : Census :=
  { acc := List.replicate 32 [], refs := List.replicate 32 none, epochDone := false, rejEpoch := 0,
    accNext := List.replicate 32 [], rejNext := 0, rejNow := 0,
    scores := List.replicate 32 0, urgent := 0, move := none, moveUrgent := false }

/-- R161. -/
def Chg.reset : Chg :=
  { clen := 1382, cper := 10, cvpp := 4, run := false, goff := List.replicate 4 false, gclip := List.replicate 4 false,
    level := [1, 1, 1, 1], csrc := [3, 3, 3, 3], msrc := [1, 2, 1, 1], gdIdle := List.replicate 4 .highZ,
    gdMutual := List.replicate 4 .highZ, gdCharge := List.replicate 4 .highZ, rgMutual := .highZ, rgCharge := .highZ }

def Bank.empty : Bank :=
  { ia := List.replicate 2560 0, qa := List.replicate 2560 0, ib := List.replicate 2560 0, qb := List.replicate 2560 0,
    range := List.replicate 144 0, stxI := List.replicate 64 0, stxQ := List.replicate 64 0,
    srxI := List.replicate 40 0, srxQ := List.replicate 40 0, censusA := List.replicate 32 0,
    censusB := List.replicate 32 0, magA := List.replicate 40 0, magB := List.replicate 40 0, listen := false,
    mutualOn := false, charge := false, minv := false, hop := false, rejected := false, rejMask := 0, bin := 8, appA := 0, appB := 0,
    clamped := 0, openTx := 0, openRx := 0, valid := false }

/-- The invalid value of FORCE, R141. -/
def forceInvalid : Int := -2147483648

def Planes.reset : Planes :=
  { write := .empty, comp := .empty, film := List.replicate 2560 0, delta := List.replicate 2560 0,
    cls := List.replicate 2560 0, force := List.replicate 4 forceInvalid, forceValid := List.replicate 4 false,
    forceEn := List.replicate 4 false, frame := 0 }

def Clamp.reset : Clamp :=
  { flags := 0, opened := 0, counters := List.replicate 177 0, lastClamp := List.replicate 177 none,
    lastEvent := List.replicate 177 none, inFrame := 0, sel := 0, restore := 0, since := 0, offAt := some 0, skipped := 0,
    runAt := List.replicate 177 none, runLast := List.replicate 177 none }

/-- R156. -/
def Bridge.reset : Bridge :=
  { enW := false, exc5W := false, pgaW := 3, gaugeW := 4096, en := false, exc5 := false, pga := 3, gauge := 4096,
    valid := false, fault := false, reg := false, at25 := false, sat := false, excited := false, at5 := false,
    discard := 0, sum := 0, count := 0, mean := 0, nconv := 0, vexp := 0, vexs := 0, badRun := 0, goodRun := 0,
    satRun := 0 }

/-- The reading of a disabled input, R162. -/
def tempNone : Int := -32768

def Therm.reset : Therm :=
  { inputs := (List.range 4).map (fun i =>
      { en := i == 0, beta := 3435, temp := if i == 0 then 0 else tempNone, fail := false, failSeen := false, good := 0,
        own := 0 }),
    die := 0 }

def Surface.reset : Surface :=
  { wet := false, flooded := false, wetRun := 0, dryRun := 0, nextWet := false, nextFlooded := false, e := 0,
    swamped := false, swampRun := 0, clearRun := 0, swampCount := 0, swampHold := false }

/-- R185. -/
def Pipe.reset : Pipe :=
  { filt := List.replicate 2560 0, resid := List.replicate 2560 0, surface := .reset, frags := [], cands := [],
    before := [], keys := 0, contacts := [], shadows := [], endedList := [], idle := List.replicate 64 4, quiet := List.replicate 2560 false,
    counted := false, riseRun := 0, approachDue := false, lastForce := List.replicate 4 forceInvalid,
    lastForceValid := List.replicate 4 false, lastForceEn := List.replicate 4 false, touches := 0 }

def Tarn.empty : Tarn := { hist := 0, n := 0, k := 0, alt := false }

def Tarns.empty : Tarns :=
  { ia := List.replicate 2560 .empty, qa := List.replicate 2560 .empty, ib := List.replicate 2560 .empty,
    qb := List.replicate 2560 .empty, ci := List.replicate 104 .empty, cq := List.replicate 104 .empty }

def EpochSt.empty : EpochSt :=
  { psiA := List.replicate 40 [], psiB := List.replicate 40 [], quiet := List.replicate 2560 0,
    near := List.replicate 2560 0, gamma := List.replicate 4 [], gammaR := [], zero := List.replicate 4 [],
    span := List.replicate 4 [], steps := 0 }

/-- R207; the taps of the default tones, round(256 f 0.35 us) mod 256. -/
def CalData.reset (tInit : Nat) (trim : Int) : CalData :=
  { nus := List.replicate 40 { nu := 0, window := [], fresh := 0, due := false }, bia := List.replicate 2560 0,
    bqa := List.replicate 2560 0, bib := List.replicate 2560 0, bqb := List.replicate 2560 0,
    cbI := List.replicate 104 0, cbQ := List.replicate 104 0, tapA := List.replicate 40 14,
    tapB := List.replicate 40 34, thr := List.replicate 2560 tInit, gsc := [64, 64, 64, 64], rsc := 64,
    zero := [0, 0, 0, 0], rel := [16384, 16384, 16384, 16384], zcap := List.replicate 4 false, trim := trim,
    captured := false, capturedB := false, capturedC := false }

def Cal.reset (trim : Int) : Cal :=
  { d := .reset 128 trim, save := none, tarns := .empty, ep := .empty, fast := 16, fastOn := true, resumed := 0,
    hop := 0, freeze := 0, seeded := false, epoch := 0, endDone := none, xfer := false, xferB := false, mvPhase := 0, mvGuard := 0, mvThresh := 0,
    mvSteps := 0, mvZero := 0, mvRel := 0, mvKeeper := 0, tInit := 128, tMax := 255, tMin := 96, chSel := 0,
    nodeSel := 0, x0 := 0, x1 := 3840, y0 := 0, y1 := 2400, rail := 0, railRuns := List.replicate 94 0,
    railDone := List.replicate 94 false, railVal := List.replicate 94 0, lastA := 0, lastB := 0, stepS := 40,
    seedZ := List.replicate 4 false, zwait := List.replicate 4 false }

/-- The contract that CTX_OPEN gives, R34. -/
def Contract.default : Contract := { report := 38, wake := 0, wset := 0, grace := 0 }

def Image.none : Image :=
  { base := 0, size := 0, xip := false, span := 0, init := 0xFFFFFFFF, frame := 0xFFFFFFFF, mail := 0xFFFFFFFF,
    event := 0xFFFFFFFF, estimate := 0, caps := 0, imageId := 0, digest := zeros32, signed := false, roomInit := [],
    header := [], trailer := [] }
  where zeros32 : List Byte := List.replicate 32 0

def Ctx.closed : Ctx :=
  { st := 0, owner := .tw, caps := 0, prio := 0, budget := 0, region := [], contract := .default, prog := .none,
    img := .none, room := [], regs := List.replicate 16 0, pc := 0, z := false, n := false, c := false, v := false,
    notices := [], lostNotice := false, lostQueue := false, mailIn := [], mailNew := false, mailVis := false, mailOut := [],
    queue := .empty }

def StockSt.empty : StockSt :=
  { tracks := [], tap := Option.none, knockPrev := Option.none, knockFrame := 0, knock := Option.none,
    knockLast := Option.none, pinch := Option.none, backlog := [] }

def CtxRun.reset : CtxRun :=
  { used := 0, cause := 0, detail := 0, faultPc := 0, initDue := false, fanReq := [0, 0, 0],
    blReq := [Option.none, Option.none], self := [], poll := 0, stock := .empty }

/-- R237. -/
def Eng.reset : Eng :=
  { turn := none, code := [], compact := false, compactLeft := 0, passCyc := 0, passNow := 0,
    frameShelf := [], thermShelf := [], freezeNext := none, pcap0 := 0x07FF, pcap1 := 0x07FF,
    ctxSel := 0, rateCap := false, slipCnt := 0, slipRun := 0, sessions := [], aborted := [], binds := [] }

def OtpSlot.blank : OtpSlot := { hash := List.replicate 32 0, check := 0, lock := false }

/-- OTP as delivered: no key, no SIGREQ, unique ID and trim 0 (DESIGN CHOICE, log 2). -/
def Otp.blank : Otp :=
  { imgA := .blank, imgB := .blank, sigreq := false, ledA := .blank, ledB := .blank, uid := 0, trim := 0, write := none }

def Frame.reset : Frame :=
  { n := 0, comp := 0, phase := 0, running := false, started := false, sensed := false, mutStart := 0, mutComp := 0,
    first := false, firstNext := true, stoppedAt := none, bTb := 0,
    bFrac := 0, utc := 0, utcComp := 0, kComp := 0 }

/-- R370, R372. -/
def Tw.reset : Tw :=
  { sdaHold := 6, hnRate := 0, hnOff := false, arbLost := false, ibrPend := false, hnPend := false, stretch := false,
    sdaTo := false, sclTo := false, check := 0, noReply := 0, hnFail := 0, timeouts := 0, wakeUs := 0, maxUs := 0,
    hnRun := 0, retries := 0, ibr := false, fmPlus := false, pecReq := false }

/-- R395. -/
def Hs.reset (gpos : Nat) : Hs :=
  { woff := 256 * gpos, wlen := 256, cfgNext := none, e := 0, eOpen := true, early := false,
    cpol := false, alive := 0, check := 0, misPos := 0, busy := 0, nclk := 0, atnEn := false, atnGp := 0,
    lastCrc := none, replyAlive := 0, present := true, absentNext := false }

/-- R423, R426; the flash contents are kept. -/
def MemPort.reset : MemPort :=
  { flash := [], profile := none, map := none, discovered := false, mapValid := false, div := 2, sel := 0,
    cont := false, xipEn := false, op := none, waiting := [], susp := false, recov := false, fences := [], lines := [],
    lineClock := 0, filling := none, hits := 0, misses := 0, timeouts := 0, rdErr := 0, delay := 4, intentSeq := 0,
    intentSector := 0, intentSlot := 0, erases := 0, xfer := none, toRoom := [], sfdp := [] }

/-- The default configuration record of a part alone, R432, R463. -/
def spanDefault : List Byte :=
  ([0, 1, 1, 60, 0x00, 0x0F, 0x60, 0x09, 1, 0]).map (BitVec.ofNat 8) ++ List.replicate 16 0 ++
    ([0, 0, 0, 0, 0, 0, 1, 0, 0, 0, 0, 0, 0, 0, 0, 0]).map (BitVec.ofNat 8) ++ List.replicate 6 0

/-- R463. -/
def Span.reset : Span :=
  { role := 0, leader := 0, split := false, dupPos := false, lock := false, joined := false, members := 0, heldMask := 0,
    excl := 0, inForce := BitVec.allOnes 128, led := false, config := spanDefault, colour := 0, cepoch := 0, d := 0,
    rtt := 0, hops := 0, parts := 0, crcErr := 0, lost := 0, late := 0, aborts := 0, pulled := 0 }

def SpanX.reset : SpanX :=
  { table := [], claimAt := none, proposal := none, commit := none, recolour := false, modeNext := none, adopted := 0, beacon := none, beaconAt := 0,
    beaconSent := false, binSaid := none, sent := [], recvKind := 0, recvTotal := 0, recv := [], changes := [], adopt := none, pulls := [],
    pullTag := none, stitches := [], censuses := [], stitchSent := false, idHeld := 0, endSaid := 0, places := [], idIdle := List.replicate 64 4,
    faultNext := 0, lateRuns := List.replicate 16 0, lateDone := List.replicate 16 false, crcRun := 0,
    crcDone := false, relays := [], markers := 0, assign := List.replicate 64 0, msgsOut := [], msgsIn := [] }

/-- A fan that is not fitted, R494, R498. -/
def fanDefault : List Byte :=
  ([0x04, 2, 0x58, 0x02, 0x20, 0x4E, 0xF4, 0x01, 0xE8, 0x03, 0xC4, 0x09, 0, 0, 32, 8]).map (BitVec.ofNat 8)

def Fan.reset : Fan :=
  { record := fanDefault, recNext := none, skips := [], st := 0, failed := false, cause := 0, inst := 0, window := [],
    speed := 0, setMil := 0, target := 0, drive := 0, integ := 0, current := 0, temp := 250, retryMs := 0, epis := 0,
    retries := 0, fgPeriod := 0, fgIdle := 0, startStage := 0, halfStart := false, pol := 0, measured := 0, hot := false,
    holdDenied := false }

/-- R494: source TH0, TSTART 60.0, TEND 80.0, DMIN 300, SLEW 200. -/
def curveDefault : List Byte :=
  ([1, 0x58, 0x02, 0x20, 0x03, 0x2C, 0x01, 0xC8, 0x00]).map (BitVec.ofNat 8)

def Bl.reset : Bl :=
  { freq := 1000, inverted := false, hostDuty := 0, duty := 0, limit := 1000, derating := false, curve := curveDefault,
    pend := none, slewRem := 0 }

/-- A policy record: TFULL, its sources, H, and for each fan its sources and points (R497). -/
def policyBytes (tfull tsrc src : Nat) (pts : List (Nat × Nat)) : List Byte :=
  let pt := (pts.map (fun (t, r) => [t % 256, t / 256, r % 256, r / 256])).flatten
  let fan := ([src, pts.length - 1] ++ pt ++ List.replicate (16 - 4 * pts.length) 0)
  ([tfull % 256, tfull / 256, tsrc, 30, 0, 0, 0, 0] ++ fan ++ fan ++ fan ++ [0, 0]).map (BitVec.ofNat 8)

/-- The stock policies, R472. -/
def stockPolicy : Nat → List Byte
  | 0 => policyBytes 750 0x11 1 [(1500, 0)]
  | 1 => policyBytes 750 0x11 0x11 [(400, 1500), (550, 4000), (650, 6000)]
  | _ => policyBytes 700 0x01 1 [(350, 2000), (500, 5000), (600, 9000)]

/-- R494. -/
def Thermal.reset : Thermal :=
  { policy := 1, record := stockPolicy 1, fans := [.reset, .reset, .reset], bls := [.reset, .reset], override := false,
    overCause := 0, policyNext := none, lastRun := none }

def Shdn.reset : Shdn :=
  { asserted := false, x := 0, asserts := 0, oor := false, assertRun := 0, oorRun := 0, relRun := 0, tcrit := 0,
    th0Hot := false, th0 := 0, die := 0 }

/-- Straps read 0 until they are sampled (DESIGN CHOICE, log 2). -/
def Pins.reset : Pins :=
  { boot := 0, gpos := 0, haddr := 0, hsm := false, testMode := false, resetLow := false, gp := 0 }

def Rst.reset : Rst :=
  { kind := 0, outcome := 0, detail := 0, detailCtx := 0, diag := [], bootStarts := [] }

/-- The machine right after reset, before its power-on sequence has set RDY: mode BOOT, every register at its reset
value, no command waiting (R55, R326, R533). -/
def State.reset : State :=
  { pending := [], chan := .reset, aon := .reset, md := .reset, power := .reset, meter := .reset, clk := .reset,
    frame := .reset, fe := .reset, fc := .reset, census := .reset, chg := .reset, planes := .reset, clamp := .reset,
    bridges := List.replicate 4 .reset, therm := .reset, pipe := .reset, cal := .reset 0,
    ctxs := List.replicate 32 .closed, runs := List.replicate 32 .reset, eng := .reset, otp := .blank, tw := .reset,
    hs := .reset 0, mem := .reset, span := .reset, spanx := .reset, thermal := .reset, shdn := .reset, jrn := .reset,
    wc := .reset, led := .reset, pins := .reset, rst := .reset, freeCtr := 0 }

end Sys2Proof.Machine
end

