-- ==== Sys2Proof/Machine/Ops.lean ====
section
/-! DEFINITION. The named operations over memories, ports, contexts, records and queues that the meanings share.
Conventions that the spec leaves open: log 30 (DESIGN CHOICE). -/

/-! ### Memories: byte lists in canonical form -/

namespace Sys2Proof.Machine.Memory
open Sys2Proof

/-- The canonical form: addresses strictly rising, no entry equal to `d`, what an unlisted address reads as. -/
def wfFrom (d : Byte) (lo : Nat) : List Host.Cell → Bool
  | [] => true
  | c :: cs => decide (lo ≤ c.1) && (c.2 != d) && wfFrom d (c.1 + 1) cs

/-- The canonical form of a memory. -/
def wf (d : Byte) (m : List Host.Cell) : Bool := wfFrom d 0 m

/-- The byte at an address. -/
def read (d : Byte) : List Host.Cell → Nat → Byte
  | [], _ => d
  | c :: cs, a => if c.1 = a then c.2 else if a < c.1 then d else read d cs a

/-- A memory with one byte written. -/
def write (d : Byte) : List Host.Cell → Nat → Byte → List Host.Cell
  | [], a, b => if b = d then [] else [(a, b)]
  | c :: cs, a, b =>
    if a < c.1 then (if b = d then c :: cs else (a, b) :: c :: cs)
    else if c.1 = a then (if b = d then cs else (a, b) :: cs)
    else c :: write d cs a b

/-- `n` bytes from an address. -/
def readN (d : Byte) (m : List Host.Cell) (a : Nat) : Nat → List Byte
  | 0 => []
  | n + 1 => read d m a :: readN d m (a + 1) n

/-- The cells of a run of bytes from an address. -/
def cells (d : Byte) (a : Nat) : List Byte → List Host.Cell
  | [] => []
  | b :: bs => if b = d then cells d (a + 1) bs else (a, b) :: cells d (a + 1) bs

/-- The cells below an address. -/
def below (a : Nat) (m : List Host.Cell) : List Host.Cell := m.filter (fun c => c.1 < a)

/-- The cells at and above an address. -/
def above (a : Nat) (m : List Host.Cell) : List Host.Cell := m.filter (fun c => a ≤ c.1)

/-- A memory with a run of bytes written. -/
def writeN (d : Byte) (m : List Host.Cell) (a : Nat) (bs : List Byte) : List Host.Cell :=
  below a m ++ (cells d a bs ++ above (a + bs.length) m)

/-- A memory with `n` bytes from an address as an unlisted address reads. -/
def blank (m : List Host.Cell) (a n : Nat) : List Host.Cell := below a m ++ above (a + n) m

end Sys2Proof.Machine.Memory

namespace Sys2Proof.Machine
open Sys2Proof

/-! ### Free values -/

/-- Draws a value that the spec does not state (DESIGN CHOICE, log 3). -/
def fresh (s : State) : BitVec 32 × State := (Config.free s.freeCtr, { s with freeCtr := s.freeCtr + 1 })

/-! ### Ports -/

/-- The state of a port. -/
def State.port (s : State) : Port → PortSt
  | .tw => s.chan.tw
  | .hs => s.chan.hs

/-- Changes the state of a port. -/
def State.modPort (s : State) (p : Port) (f : PortSt → PortSt) : State :=
  match p with
  | .tw => { s with chan.tw := f s.chan.tw }
  | .hs => { s with chan.hs := f s.chan.hs }

/-- The other port. -/
def otherPort : Port → Port
  | .tw => .hs
  | .hs => .tw

/-- A port's number: 0 two-wire, 1 serial. -/
def portNum : Port → Nat
  | .tw => 0
  | .hs => 1

/-- Whether a feature is in force: accepted, and in a span in the set in force (R311, R452). -/
def State.feat (s : State) (k : Nat) : Bool :=
  match s.chan.accepted with
  | none => false
  | some f => f.getLsbD k && (!s.span.joined || s.span.inForce.getLsbD k)

/-! ### Contexts -/

/-- A context. -/
def State.ctx (s : State) (i : Nat) : Ctx := s.ctxs.getD i .closed

/-- Changes a context. -/
def State.modCtx (s : State) (i : Nat) (f : Ctx → Ctx) : State := { s with ctxs := modAt f i s.ctxs }

/-- What a context holds beside its state. -/
def State.run (s : State) (i : Nat) : CtxRun := s.runs.getD i .reset

/-- Changes what a context holds beside its state. -/
def State.modRun (s : State) (i : Nat) (f : CtxRun → CtxRun) : State := { s with runs := modAt f i s.runs }

/-- The RUNNING contexts, by number (R216). -/
def State.running (s : State) : List Nat := filterIdx 32 (fun i => (s.ctx i).st == 3)

/-- The sum of the budgets of the RUNNING contexts, DYR.LOAD.BUDSUM. -/
def State.budSum (s : State) : Nat := sumN (s.running.map (fun i => (s.ctx i).budget))

/-- Queues a notice, R229: at most 8, a ninth is lost. A context that is neither RUNNING, STOPPED nor FAULTED holds none
(R216). What the Hearth decides in a frame belongs to that frame's context pass (R229). -/
def notify (i word : Nat) (msg : List Byte) (s : State) : State :=
  let since := if 1 ≤ word % 256 && word % 256 ≤ 3 then s.frame.n else s.frame.comp
  s.modCtx i (fun c =>
    if c.st < 3 then c
    else if c.notices.length < 8 then { c with notices := c.notices ++ [{ word := word, since := since, msg := msg }] }
    else { c with lostNotice := true })

/-- Whether a notice belongs to the frame that is sensed while an earlier one is computed. -/
def State.early (s : State) (m : Notice) : Bool := m.since == s.frame.n && s.frame.n != s.frame.comp

/-! ### Span and modes -/

/-- Whether the part is a member of a span: leader, follower or HELD. -/
def State.inSpan (s : State) : Bool := s.span.joined

/-- Whether frames run. -/
def State.framesRun (s : State) : Bool := s.frame.running

/-- Hertz of a rate code, R57. -/
def rateHz : Nat → Nat
  | 2 => 20
  | 3 => 30
  | 4 => 60
  | 5 => 120
  | 6 => 240
  | _ => 0

/-- Mode codes, R31. -/
def Mode.code : Mode → Nat
  | .off => 0 | .boot => 1 | .hibernate => 2 | .doze => 3 | .watch => 4 | .active => 5 | .service => 6 | .safe => 7

/-- The mode and rate in force. -/
def State.sel (s : State) : ModeSel := { mode := s.aon.mode, rate := s.aon.rate, hz := s.aon.dozeHz }

/-- Whether a step of the ladder meets a report bound: 4.48 P, R38. -/
def reportOk (m : ModeSel) (rep : Nat) : Bool := rep == 0 || (2 ≤ m.rate && 4480 ≤ rep * rateHz m.rate)

/-- Whether a step meets a wake bound: 3 P in frames, 1000/r + 5 ms in DOZE, R38. -/
def wakeOk (m : ModeSel) (wk : Nat) : Bool :=
  wk == 0 || (match m.mode with
    | .doze => 5 < wk && 1000 ≤ (wk - 5) * m.hz
    | _ => 2 ≤ m.rate && 3000 ≤ wk * rateHz m.rate)

/-- The gestures a step sees, R38: none, APPROACH, or all. -/
def seenSet (m : ModeSel) : BitVec 16 :=
  match m.mode with
  | .hibernate => 0
  | .doze => 1
  | _ => if 2 ≤ m.rate then 0x00FF else 0

/-- Whether a contract is met in a mode. -/
def contractMet (m : ModeSel) (k : Contract) : Bool :=
  reportOk m k.report && wakeOk m k.wake && ((k.wset &&& ~~~(seenSet m)) == 0)

/-- Contracts in force are those of RUNNING contexts, R36. -/
def State.inForce (s : State) : List Contract := s.running.map (fun i => (s.ctx i).contract)

/-- The least nonzero of a list, 0 when none. -/
def leastNonzero (xs : List Nat) : Nat :=
  xs.foldl (fun a x => if x == 0 then a else if a == 0 || x < a then x else a) 0

/-- The union of the wake sets in force. -/
def State.need (s : State) : BitVec 16 := s.inForce.foldl (fun a k => a ||| k.wset) 0

/-- The host grace of a port, R46. -/
def State.grace (s : State) (p : Port) : Nat :=
  (s.running.filter (fun i => (s.ctx i).owner == p)).foldl (fun a i => max a (s.ctx i).contract.grace) 0

/-! ### Queues and readable records -/

/-- The contexts a port owns. -/
def State.owned (s : State) (p : Port) : List Nat :=
  filterIdx 32 (fun i => (s.ctx i).st != 0 && (s.ctx i).owner == p)

/-- Records of a queue that are published. -/
def Queue.readable (q : Queue) : List QRec := q.recs.filter (fun r => r.pub.isSome)

/-- Records a port can read, in order of publication and in journal order within one (R317). -/
def State.readable (s : State) (p : Port) : List QRec :=
  let own := ((s.owned p).map (fun i => (s.ctx i).queue.readable)).flatten
  sortBy (fun r => (r.pub.getD 0 : Int) * 2 ^ 64 + r.ord) ((s.port p).house.readable ++ own)

/-- EVT of the status byte, R301. -/
def State.evt (s : State) (p : Port) : Bool :=
  !(s.port p).house.readable.isEmpty || (s.owned p).any (fun i => !(s.ctx i).queue.readable.isEmpty)

/-- Puts a record into a queue of 64; a full queue drops its oldest (R322). The flag says whether one was dropped. -/
def Queue.put (q : Queue) (r : QRec) : Queue × Bool :=
  if q.recs.length < 64 then ({ q with recs := q.recs ++ [r] }, false)
  else ({ recs := q.recs.drop 1 ++ [r], lost := satAdd 65535 q.lost 1 }, true)

/-! ### Attention causes, R336 -/

/-- Cause TAGDONE. -/
def State.tagDone (s : State) (p : Port) : Bool :=
  s.chan.tags.any (fun t => match t with
    | some t => t.port == p && t.done && !t.discard
    | none => false)

/-- Cause UNMET: a contract in force of a context the port owns is not met in the chosen mode (R50). -/
def State.unmetFor (s : State) (p : Port) : Bool :=
  s.aon.unmet && s.running.any (fun i => (s.ctx i).owner == p && !contractMet s.md.chosen (s.ctx i).contract)

/-- The LAPSE bit of a port. -/
def State.lapse (s : State) : Port → Bool
  | .tw => s.aon.lapse0
  | .hs => s.aon.lapse1

/-- The attention causes of a port, FAULT_READ bytes 4-7. -/
def State.causes (s : State) (p : Port) : Nat :=
  let q := s.port p
  flagsOf [s.tagDone p, s.lapse p, s.unmetFor p, q.causeNew, q.causeReset, q.causePeer, q.causeSpan]

/-- Whether the signal of R45 stands. -/
def State.stands (s : State) (p : Port) : Bool := s.evt p || s.causes p != 0

/-- TW_IBR in force. -/
def State.ibr (s : State) : Bool := s.feat 18

/-- Asserts a port's signal: ALERT_N or an in-band request due, and a Host Notify due where accepted (R45, R361). In the
test state of R560 no port signals: only the comparator and the clamps work there. -/
def raise (p : Port) (s : State) : State :=
  if s.pins.testMode then s else
  match p with
  | .tw =>
    let s := if s.ibr then { s with tw.ibrPend := true } else s.modPort .tw ({ · with signal := true })
    if s.feat 19 && !s.tw.hnOff then { s with tw.hnPend := true, tw.retries := 0 } else s
  | .hs => s.modPort .hs ({ · with signal := true })

/-- Releases the signals whose cause no longer stands (R45, R357). -/
def settle (s : State) : State :=
  let s := if s.stands .tw then s else
    { s.modPort .tw ({ · with signal := false }) with
      tw.ibrPend := false, tw.hnPend := false }
  if s.stands .hs then s else s.modPort .hs ({ · with signal := false })

/-- A cause begins to stand on a port. -/
def cause (p : Port) (f : PortSt → PortSt) (s : State) : State := raise p (s.modPort p f)

/-! ### The fault summary -/

/-- The part writes sources of live replies: for a copy of theirs whose transfer is open that is a change, of the same contents
too (R307). -/
def wrote (of : Nat → List Byte → Bool) (s : State) : State :=
  let note (p : PortSt) : PortSt :=
    { p with copied := p.copied.map (fun c => { c with written := c.written || of c.code c.payload }) }
  { s with chan.tw := note s.chan.tw, chan.hs := note s.chan.hs }

/-- Whether a REG_READ copies a register of a block from `a` on. -/
def regsFrom (a n : Nat) (code : Nat) (pl : List Byte) : Bool :=
  code == 0xE0 && leAt pl 0 2 < a + n && a < leAt pl 0 2 + 4 * byteAt pl 2

/-- Latches a bit of the fault summary, R336: NEWFAULT stands on both ports. -/
def latchFault (k : Nat) (s : State) : State :=
  let s := wrote (fun code _ => code == 0x05) s
  let s := { s with
    chan.faults := setBit s.chan.faults k true
    chan.faultFrame := if s.framesRun then s.frame.n else 0xFFFFFFFF }
  let s := cause .tw (fun q => { q with causeNew := true, seen := setBit q.seen k false }) s
  cause .hs (fun q => { q with causeNew := true, seen := setBit q.seen k false }) s

/-! ### Records -/

/-- Bit of the event mask that lets in a house record of a type, R320. -/
def maskBit : Nat → Option Nat
  | 0x20 => some 0 | 0x21 => some 1 | 0x30 => some 2 | 0x40 => some 3 | 0x50 => some 4 | 0x60 => some 5
  | 0x70 => some 6 | 0x7F => some 7
  | _ => none

/-- Whether a port's mask lets in a house record. -/
def admitted (q : PortSt) (typ : Nat) : Bool :=
  match maskBit typ with
  | some k => getBit q.evtMask k
  | none => true

/-- Whether spill runs, R507. -/
def State.spillOn (s : State) : Bool :=
  s.feat 82 && (match s.mem.map with | some m => m.spill.isSome | none => false) &&
    (60 < s.grace .tw || 60 < s.grace .hs || s.jrn.force)

/-- Enters a record in the journal, R504: the ring holds 8 192; a record that spill has not yet taken and that the ring
overwrites is counted as lost (R522). -/
def journal (r : Rec) (s : State) : State :=
  let on := s.spillOn
  let drop := 8192 ≤ s.jrn.ring.length
  let j := s.jrn
  let lost := on && drop && 8192 ≤ j.waiting.length
  { s with
    jrn := { j with
      ring := (if drop then j.ring.drop 1 else j.ring) ++ [r]
      next := succ32 j.next
      waiting := if on then (if lost then j.waiting.drop 1 else j.waiting) ++ [r] else []
      spillNext := if on then (if lost then succ32 j.spillNext else j.spillNext) else succ32 j.next
      lostRun := j.lostRun || lost
      lostFirst := if lost && !j.lostRun then j.spillNext else j.lostFirst
      lostCount := if lost then satAdd 65535 j.lostCount 1 else j.lostCount }
    chan.ord := s.chan.ord + 1 }

/-- Moves house records to the house queues of the ports whose masks let them in, with their publication (R316). -/
def deliver (p : Port) (rs : List QRec) (s : State) : State :=
  rs.foldl (fun s r =>
    if admitted (s.port p) r.r.typ then
      s.modPort p (fun q =>
        let (h, d) := q.house.put r
        { q with house := h, dropped := if d then satAdd 65535 q.dropped 1 else q.dropped })
    else s) s

/-- Whether a record of a context's queue is not published and, as the mask stands, will not be (R320). -/
def QRec.withheld (mask : Bool) (r : QRec) : Bool := r.pub.isNone && mask && r.r.typ == 2

/-- The mask bit that withholds CONTACT_MOVE from a context's queue. -/
def State.noMoves (s : State) (i : Nat) : Bool := getBit (s.port (s.ctx i).owner).evtMask 8

/-- Counts `n` records that a context's queue dropped (R317, R322). -/
def dropped (i n : Nat) (s : State) : State :=
  if n == 0 then s
  else (s.modCtx i (fun c => { c with lostQueue := true, queue.lost := satAdd 65535 c.queue.lost n })).modPort (s.ctx i).owner
    (fun p => { p with dropped := satAdd 65535 p.dropped n })

/-- Publishes the records of one context's queue. CONTACT_MOVE records that the mask withholds now leave it; of those that
it no longer withholds the queue keeps the newest 64 (R320, R322). -/
def pubCtx (pub : Nat) (i : Nat) (s : State) : State :=
  let rs := (s.ctx i).queue.recs.filter (fun r => !r.withheld (s.noMoves i))
  dropped i (rs.length - 64) (s.modCtx i (fun c => { c with
    queue.recs := (rs.drop (rs.length - 64)).map (fun r => if r.pub.isSome then r else { r with pub := some pub }) }))

/-- Whether a publication now makes a record readable on a port. -/
def State.pubNew (s : State) (p : Port) : Bool :=
  s.chan.staged.any (fun r => admitted (s.port p) r.r.typ) ||
    (s.owned p).any (fun i => (s.ctx i).queue.recs.any (fun r => r.pub.isNone && !r.withheld (s.noMoves i)))

/-- Publication, R19: unpublished records become readable, and ports with newly readable records are signalled. -/
def publish (s : State) : State :=
  let n0 := s.pubNew .tw
  let n1 := s.pubNew .hs
  let pub := s.chan.pubs
  let fresh := s.chan.staged.map (fun r => { r with pub := some pub })
  let s := { s with chan.pubs := pub + 1, chan.staged := [], jrn.shown := s.jrn.next }
  let s := deliver .hs fresh (deliver .tw fresh s)
  let s := (List.range 32).foldl (fun s i => pubCtx pub i s) s
  let s := if n0 then raise .tw s else s
  if n1 then raise .hs s else s

/-- While no frames run a record is published at once. -/
def pubIdle (s : State) : State := if s.framesRun then s else publish s

/-- Writes a record at a given time with a given origin: into the journal and, as a house record, toward the house
queues. -/
def putHouse (time typ : Nat) (payload : List Byte) (s : State) : State :=
  let r : Rec := { time := time, origin := 0x40, typ := typ, payload := fit 8 0 payload }
  let q : QRec := { r := r, ord := s.chan.ord, pub := none, seq := none }
  let s := journal r s
  pubIdle { s with chan.staged := s.chan.staged ++ [q] }

/-- A house record stamped with the time of its writing (R20). -/
def record (typ : Nat) (payload : List Byte) (s : State) : State := putHouse s.clk.tb typ payload s

/-- The origin byte of a context's record, R314, R232: a follower's copy sets the member-origin flag. -/
def State.originOf (s : State) (i : Nat) : Nat := i + (if s.span.role == 3 then 0x80 else 0)

/-- Enters a record, the record `o` in the order of all, in a context's queue (R230, R322). A CONTACT_MOVE that the owner's
mask withholds takes no place until its publication (R320). -/
def putQueue (i o : Nat) (r : Rec) (s : State) : State :=
  let q : QRec := { r := r, ord := o, pub := none, seq := none }
  let mask := s.noMoves i
  let rs := (s.ctx i).queue.recs
  let full := !q.withheld mask && 64 ≤ (rs.filter (fun x => !x.withheld mask)).length
  let rs := if full then (rs.takeWhile (·.withheld mask)) ++ (rs.dropWhile (·.withheld mask)).drop 1 else rs
  dropped i (flag full) (s.modCtx i (fun c => { c with queue.recs := rs ++ [q] }))

/-- Enters a record in a context's queue and the journal (R230). -/
def putCtx (i : Nat) (r : Rec) (s : State) : State := pubIdle (putQueue i s.chan.ord r (journal r s))

/-- The frame number that records carry: all ones when no frames run (R155). -/
def State.frameOr (s : State) : Nat := if s.framesRun then s.frame.n else 0xFFFFFFFF

/-- A POWER record, R74. -/
def powerRec (sub cls who asked taken : Nat) (s : State) : State :=
  record 0x40 ([b8 sub, b8 cls, b8 who, 0] ++ le 2 asked ++ le 2 taken) s

/-- A CAL record, R184, R205. -/
def calRec (sub item value : Nat) (frame : Nat) (s : State) : State :=
  record 0x50 ([b8 sub, b8 item] ++ le 2 value ++ le 4 frame) s

/-- A CLAMP record, R155. -/
def clampRec (sub pin count : Nat) (s : State) : State :=
  record 0x70 ([b8 sub, b8 pin, b8 count, 0] ++ le 4 s.frameOr) s

/-! ### Tags and deferred commands, R304-R306 -/

/-- The number of the lowest free tag. -/
def freeTag (s : State) : Option Nat := (List.range 64).find? (fun i => (s.chan.tags.getD i none).isNone)

/-- A command is accepted and takes effect later (R304). -/
def deferCmd (p : Port) (code : Nat) (pl : List Byte) (s : State) : State :=
  { s with chan.deferred := s.chan.deferred ++ [{ port := p, code := code, payload := pl }] }

/-- Commands in flight, R304. A SPAN_CONFIG and a binding that wait are counted by their tags. -/
def State.inFlight (s : State) : Nat :=
  (s.chan.deferred.filter (fun d => d.code != 0x80 && d.code != 0x22)).length + (s.chan.tags.filter (fun t => t.isSome)).length

/-- A tagged command ends: its completion waits for TAG_READ, or is discarded (R305, R324). -/
def completeTag (t : Nat) (err : Nat) (comp : List Byte) (s : State) : State :=
  match s.chan.tags.getD t none with
  | none => s
  | some g =>
    if g.discard then { s with chan.tags := s.chan.tags.set t none }
    else raise g.port { s with chan.tags := s.chan.tags.set t (some { g with done := true, err := err, comp := comp }) }

/-- Completes the tag where there is one. -/
def completeOpt (t : Option Nat) (err : Nat) (comp : List Byte) (s : State) : State :=
  match t with
  | some t => completeTag t err comp s
  | none => s

/-! ### The domains and the clamp monitor -/

/-- The clamp monitor runs while SENSE or DRIVE is on (R136). -/
def State.monitor (s : State) : Bool := s.power.domSense || s.power.domDrive

/-- SENSE and DRIVE switch; the clamp monitor starts and stops with them. The 1 ms intervals in which it is off for any part
are left out of the runs of R151. -/
def setDomains (sense drive : Bool) (s : State) : State :=
  let was := s.monitor
  let s := { s with power.domSense := sense, power.domDrive := drive }
  if was == s.monitor then s
  else if was then { s with clamp.offAt := some s.clk.tb }
  else
    let t := s.clamp.offAt.getD s.clk.tb
    { s with clamp.since := s.clk.tb, clamp.offAt := none
             clamp.skipped := s.clamp.skipped + 1024 * (s.clk.tb / 1024 - t / 1024 + 1) }

/-- Ticks of monitoring so far (R151). -/
def State.monitored (s : State) : Nat := s.clk.tb - min s.clk.tb s.clamp.skipped

/-! ### Time -/

/-- Advances the wall clock by ticks (R508). -/
def wcAdd (n : Nat) (w : Wc) : Wc :=
  if w.set then { w with secs := (w.secs + (w.ticks + n) / 1024000) % 2 ^ 64, ticks := (w.ticks + n) % 1024000 } else w

/-- The ticks that the crystal gives in `q` quarters of a nominal tick period, under the slew of R87, and the
four-millionths left over. -/
def slewed (q : Nat) (c : Clk) : Nat × Nat :=
  let t := q * ((1000000 + c.slew).toNat) + c.frac
  (t / 4000000, t % 4000000)

/-- The ticks that `n` keeper cycles add: 31 each, and one more whenever the 2-bit accumulator overflows (R85). -/
def keeperTicks (n acc : Nat) : Nat := 31 * n + (acc + n) / 4

/-- Ticks counted on the keeper: coasted time (R86, R512). -/
def coastBy (n : Nat) (s : State) : State :=
  let c := s.clk
  { s with clk.coasted := c.coasted || 0 < n
           clk.coastMs := satAdd 0xFFFFFFFF c.coastMs ((c.coastRem + n) / 1024)
           clk.coastRem := (c.coastRem + n) % 1024
           wc.coast := s.wc.coast || (0 < n && s.wc.set)
           led.period.flags := if 0 < n && s.wc.set && s.led.running then s.led.period.flags ||| 8 else s.led.period.flags }

/-- The timebase and the wall clock count `n` ticks (R84, R86, R508). -/
def countTicks (n : Nat) (s : State) : State := { s with clk.tb := (s.clk.tb + n) % 2 ^ 48, wc := wcAdd n s.wc }

/-- `q` quarters of a nominal tick period pass on the keeper: whole keeper cycles count (R85). -/
def keeperRun (q : Nat) (s : State) : State :=
  let t := s.clk.keepQ + q
  let n := t / 125
  let k := keeperTicks n s.clk.keepAcc
  coastBy k (countTicks k { s with clk.keepQ := t % 125, clk.keepAcc := (s.clk.keepAcc + n) % 4 })

/-- `q` quarters of a nominal tick period pass on the crystal. -/
def crystalRun (q : Nat) (s : State) : State :=
  let (n, fr) := slewed q s.clk
  countTicks n { s with clk.frac := fr }

/-- `k` nominal tick periods pass (R84-R87). A change of source to the crystal comes at its keeper edge, and no count is lost
or doubled. -/
def advance (k : Nat) (s : State) : State :=
  if s.clk.held then s
  else if !s.clk.onKeeper then crystalRun (4 * k) s
  else match s.clk.toXtal with
    | none => keeperRun (4 * k) s
    | some w =>
      let edge := 125 * w - s.clk.keepQ
      if 4 * k < edge then
        keeperRun (4 * k) { s with clk.toXtal := some (w - (s.clk.keepQ + 4 * k) / 125) }
      else
        let s := keeperRun edge s
        crystalRun (4 * k - edge) { s with clk.onKeeper := false, clk.toXtal := none }

/-- The tick and AONCLK change to the keeper (R85). -/
def toKeeper (s : State) : State :=
  if s.clk.onKeeper then { s with clk.toXtal := none } else { s with clk.onKeeper := true, clk.toXtal := none, clk.keepQ := 0 }

/-- KEEPRAIL tells whether the trim code is at a rail (R93, R99). -/
def railOf (s : State) : State := { s with clk.keepRail := s.cal.d.trim == -128 || s.cal.d.trim == 127 }

/-- CORECLK runs again; the PLL locks at once where it has locked since the crystal's last start (R83, R90; the 100 us take
no step, DESIGN CHOICE, log 14). -/
def coreRuns (s : State) : State := { s with clk.coreStopped := false, clk.lock := !s.clk.spare }

/-! ### Packets of the ring, R429 -/

/-- Sends a packet that concerns a frame (R429). The 64 last sent are kept. -/
def sendPacket (typ dst frame : Nat) (payload : List Byte) (s : State) : State :=
  let p : Packet := { typ := typ, src := s.pins.gpos, hops := 0, dst := dst, frame := frame % 256, payload := payload }
  let xs := s.spanx.sent ++ [p]
  { s with spanx.sent := xs.drop (xs.length - 64) }

/-- A READY packet: 0 ready, 1 not ready, 2 verify failure, 3 in SAFE, 4 HELD after a commit that it failed to apply; the frame, and a result of R288. -/
def sendReady (answer result : Nat) (s : State) : State :=
  sendPacket 0x06 s.span.leader s.frame.n ([b8 answer] ++ le 4 s.frame.n ++ [b8 result]) s

end Sys2Proof.Machine
end

