-- ==== Sys2Proof/Machine/FlashCore.lean ====
section
/-! DEFINITION. The flash behind the memory port: its profile and areas, programming and erasing, the intent records and the
fences (R401-R406, R412-R414). -/

namespace Sys2Proof.Machine
open Sys2Proof

/-- Erased flash reads 0xFF. -/
def erased : Byte := 0xFF#8

/-- The profile in force, empty without one. -/
def State.flashProfile (s : State) : List Byte := s.mem.profile.getD []

/-- Bytes of flash that the profile names. -/
def State.flashSize (s : State) : Nat := leAt s.flashProfile 8 4

/-- Whether two ranges share a byte. -/
def overlap (a n b m : Nat) : Bool := a < b + m && b < a + n

/-- Whether a range touches a fence. -/
def State.fenced (s : State) (a n : Nat) : Bool := s.mem.fences.any (fun f => overlap a n f.base f.len)

/-- Template of a slot, R401, R402. -/
def templ (p : List Byte) (slot : Nat) : List Byte := slice p (16 + 8 * slot) 8

/-- A template is empty: op 0 and every phase absent (R400). -/
def templEmpty (t : List Byte) : Bool :=
  byteAt t 0 == 0 && bits (byteAt t 3) 3 2 == 0 && !bit (byteAt t 4) 3 && !bit (byteAt t 7) 4

/-- Sector and block size of a profile, 0 where there is no block. -/
def sectorSize (p : List Byte) : Nat := 2 ^ byteAt p 12
def blockSize (p : List Byte) : Nat := if byteAt p 13 == 0 then 0 else 2 ^ byteAt p 13

/-- Bytes of flash. -/
def readFlash (s : State) (a n : Nat) : List Byte := Memory.readN erased s.mem.flash a n

/-- Programs bytes: a NOR flash clears bits and sets none (PRESUMED, log 6). -/
def programFlash (a : Nat) (bs : List Byte) (s : State) : State :=
  let old := readFlash s a bs.length
  { s with mem.flash := Memory.writeN erased s.mem.flash a ((old.zip bs).map (fun (o, b) => o &&& b)) }

/-- Erases a range. -/
def eraseFlash (a n : Nat) (s : State) : State := { s with mem.flash := Memory.blank s.mem.flash a n }

/-- An intent-area record, R413. -/
def intentRec (typ seq off len matches_ time : Nat) : List Byte :=
  let b := [0xC3, 0xA5, b8 typ, 0] ++ le 4 seq ++ le 4 off ++ le 4 len ++ le 6 time ++ [0, 0] ++ le 4 matches_
  b ++ le 4 (crc32c b)

/-- Start of an intent sector: 0 the lower, 1 the upper. -/
def intentBase (p : List Byte) (k : Nat) : Nat := leAt p 88 4 + k * sectorSize p

/-- Writes one record into the first blank slot of the active intent sector. -/
def putIntent (typ off len matches_ : Nat) (s : State) : State :=
  let p := s.flashProfile
  let seq := succ32 s.mem.intentSeq
  let s := programFlash (intentBase p s.mem.intentSector + 32 * s.mem.intentSlot)
    (intentRec typ seq off len matches_ s.clk.tb) s
  { s with mem.intentSeq := seq, mem.intentSlot := s.mem.intentSlot + 1 }

/-- Writes a record into the intent area; a full sector gives way to the other, with a HEAD, and is erased (R414). -/
def writeIntent (typ off len matches_ : Nat) (s : State) : State :=
  let p := s.flashProfile
  let s :=
    if s.mem.intentSlot < sectorSize p / 32 then s
    else
      let old := s.mem.intentSector
      let s := putIntent 1 0 0 0 { s with mem.intentSector := 1 - old, mem.intentSlot := 0 }
      eraseFlash (intentBase p old) (sectorSize p) s
  putIntent typ off len matches_ s

/-- The request of the memory port for an operation: ERASE or PROGRAM (R64). -/
def opClass (o : FlashOp) : Nat := if o.kind == 2 then 6 else 7

/-- The operation has its grant: continuous read is left (R409), and an erase writes its INTENT and fences its range, unless it recovers a range that is
fenced already (R411, R412, R419). -/
def opGranted (s : State) : State :=
  match s.mem.op with
  | none => s
  | some o =>
    let o := { o with granted := true, running := true }
    let s := { s with mem.cont := false }
    if o.kind == 2 && o.who != 5 then
      let s := writeIntent 2 o.addr o.len 0 s
      { s with
        mem.op := some { o with seq := s.mem.intentSeq }
        mem.fences := s.mem.fences ++ [{ base := o.addr, len := o.len, code := o.eraseCode, held := false }] }
    else { s with mem.op := some o }

end Sys2Proof.Machine
end

