-- ==== Sys2Proof/Machine/Hearth.lean ====
section
/-! DEFINITION. The Hearth: account, requests, grants, decisions, refusals and revocations (R63-R71).
Conventions that the spec leaves open: log 32 (DESIGN CHOICE). -/

namespace Sys2Proof.Machine
open Sys2Proof

/-- Rank of a class, R64. -/
def rank : Nat → Nat
  | 0 => 0 | 1 => 0 | 2 => 1 | 3 => 1 | 4 => 1 | 5 => 2 | 6 => 3 | 7 => 3
  | _ => 4

/-- Revocable by class, R64; a USER grant is as LEAVE named it. -/
def classRevocable (cls : Nat) : Bool := cls == 2 || cls == 4 || cls == 5

/-- Standing by class, R64. -/
def standing (cls : Nat) : Bool := cls == 1 || cls == 2 || cls == 5

/-- Base of a mode in hu, R63. -/
def baseOf (m : ModeSel) : Nat :=
  match m.mode with
  | .off => 0 | .hibernate => 0 | .doze => 1 | .watch => 3 | .safe => 4 | .boot => 12
  | .active | .service =>
    match m.rate with
    | 2 => 3 | 3 => 10 | 4 => 12 | 5 => 15 | 6 => 18
    | _ => 12

/-- Base of the present mode. -/
def State.base (s : State) : Nat := baseOf s.sel

/-- The held grants in slot order. -/
def State.grants (s : State) : List Grant := s.power.slots.filterMap id

/-- Sum of held costs. -/
def State.heldCost (s : State) : Nat := sumN (s.grants.map (·.cost))

/-- What is left of the cap. -/
def State.avail (s : State) : Nat := s.power.cap - s.base - s.heldCost

/-- The grant of a class that a requester holds. -/
def State.grantOf (s : State) (cls who : Nat) : Option Grant := s.grants.find? (fun g => g.cls == cls && g.who == who)

/-- Its cost, 0 without a grant. -/
def State.grantCost (s : State) (cls who : Nat) : Nat :=
  match s.grantOf cls who with
  | some g => g.cost
  | none => 0

/-- The pending request of a class and requester. -/
def State.reqOf (s : State) (cls who : Nat) : Option Req := s.power.reqs.find? (fun q => q.cls == cls && q.who == who)

/-- Releases a requester's grant of a class. -/
def releaseGrant (cls who : Nat) (s : State) : State :=
  { s with power.slots := s.power.slots.map (fun g => match g with
      | some g => if g.cls == cls && g.who == who then none else some g
      | none => none) }

/-- Sets the cost of a held grant. -/
def setCost (cls who cost : Nat) (s : State) : State :=
  { s with power.slots := s.power.slots.map (fun g => match g with
      | some g => if g.cls == cls && g.who == who then some { g with cost := cost } else some g
      | none => none) }

/-- Withdraws a pending request. -/
def withdraw (cls who : Nat) (s : State) : State :=
  { s with power.reqs := s.power.reqs.filter (fun q => !(q.cls == cls && q.who == who)) }

/-- Drops what waits to be asked again. -/
def dropReReq (cls who : Nat) (s : State) : State :=
  { s with power.rereq := s.power.rereq.filter (fun q => !(q.cls == cls && q.who == who)) }

/-- Enters a request of 1 to 255 hu (R64). A request of the same class and requester is replaced. Requests of one tick
arrive equally, and the tie order of R66 sorts them (DESIGN CHOICE, log 32). -/
def request (cls who cost : Nat) (incr : Bool) (stage : Nat) (revocable : Bool) (s : State) : State :=
  let s := dropReReq cls who (withdraw cls who s)
  let a := if s.clk.tb == s.power.arrivedAt then s.power.arrivals else s.power.arrivals + 1
  let q : Req := { cls := cls, who := who, cost := max 1 (min 255 cost), incr := incr, waits := 0, stage := stage,
                   arrival := a, revocable := revocable }
  { s with power.reqs := s.power.reqs ++ [q], power.arrivals := a, power.arrivedAt := s.clk.tb }

/-- A standing grant follows a need: it shrinks at once, asks for the increment when it grows, and asks anew when none
is held (R64). A cost is at most 255. -/
def follow (cls who need : Nat) (s : State) : State :=
  let cost := min 255 need
  let have_ := s.grantCost cls who
  if cost == 0 then dropReReq cls who (withdraw cls who (releaseGrant cls who s))
  else if (s.grantOf cls who).isNone then request cls who cost false 0 (classRevocable cls) s
  else if cost ≤ have_ then withdraw cls who (setCost cls who cost s)
  else request cls who (cost - have_) true 0 (classRevocable cls) s

/-- A requester that waits to ask again. -/
def askLater (cls who : Nat) (frames : Option Nat) (dip : Bool) (s : State) : State :=
  let s := dropReReq cls who s
  { s with power.rereq := s.power.rereq ++ [{ cls := cls, who := who, frames := frames, dip := dip }] }

/-- The total drive amplitude of the set in use, in half volts, as the profile asks (R102, R119). -/
def profileTotal (s : State) : Nat :=
  let p := s.fe.applied.getD s.fe.inUse []
  byteAt p 10 + (if s.feat 0 && bit (byteAt p 0) 3 then byteAt p 11 else 0)

/-- Cost of SCAN for a total of `h` half volts at a frame rate, R64. -/
def scanCost (h f : Nat) : Nat := if h ≤ 8 then 0 else ceilDiv ((h * h - 64) * f) (4 * 1920)

/-- The highest whole-volt amplitude, in half volts, whose cost fits, never below 4 Vpp (R68). -/
def scanFit (f budget : Nat) : Nat :=
  (List.range 21).foldl (fun a v => if 4 ≤ v && scanCost (2 * v) f ≤ budget then 2 * v else a) 8

/-- The number of a bridge in an EXCITE requester, and the requester of a bridge. -/
def exciteWho (n : Nat) : Nat := 0x51 + 256 * n
def bridgeOf (who : Nat) : Nat := who / 256

/-- Changes a bridge, a fan, a backlight output. -/
def State.modBridge (s : State) (n : Nat) (f : Bridge → Bridge) : State := { s with bridges := modAt f n s.bridges }
def State.bridge (s : State) (n : Nat) : Bridge := s.bridges.getD n .reset
def State.modFan (s : State) (n : Nat) (f : Fan → Fan) : State := { s with thermal.fans := modAt f n s.thermal.fans }
def State.fan (s : State) (n : Nat) : Fan := s.thermal.fans.getD n .reset
def State.modBl (s : State) (n : Nat) (f : Bl → Bl) : State := { s with thermal.bls := modAt f n s.thermal.bls }
def State.bl (s : State) (n : Nat) : Bl := s.thermal.bls.getD n .reset

/-- The excitation of a bridge stops. -/
def exciteOff (n : Nat) (s : State) : State :=
  s.modBridge n (fun b => { b with excited := false, reg := false, badRun := 0, goodRun := 0, satRun := 0 })

/-- Whether a pin of a bridge is treated as open (R151). -/
def State.bridgeOpen (s : State) (n : Nat) : Bool := (List.range 6).any (fun k => getBit s.clamp.opened (148 + 6 * n + k))

/-- EXCITE requests of the enabled bridges that are neither excited, pending nor waiting (R64, R146, R158). -/
def syncBridges (s : State) : State :=
  (List.range 4).foldl (fun s n =>
    let b := s.bridge n
    if s.feat 3 && s.power.domSense && b.en && !b.excited && !s.bridgeOpen n && (s.reqOf 4 (exciteWho n)).isNone &&
        !s.power.rereq.any (fun r => r.cls == 4 && r.who == exciteWho n) then
      request 4 (exciteWho n) (if b.exc5 then s.power.exc5 else s.power.exc25) false 0 true s
    else s) s

/-- A requester starts its operation on its grant (R67). -/
def granted (q : Req) (s : State) : State :=
  if q.who < 32 then notify q.who (0x01 + 256 * q.cls + 4096 * q.cost) [] s
  else match q.cls with
    | 0 => s.modFan (q.who - 0x40) (fun f => { f with
        st := if f.failed then 4 else 1, startStage := 0, inst := 0, setMil := 0, integ := 0, halfStart := q.stage != 0 })
    | 1 => s.modFan (q.who - 0x40) (fun f => { f with holdDenied := false })
    | 2 => dropReReq 2 0x50 { s with fe.scanAmp := none, fe.scanFb := false }
    | 3 => { s with meter.boostOn := true, meter.boostStarting := true, meter.soft := false }
    | 4 => s.modBridge (bridgeOf q.who) (fun b =>
        { b with excited := true, at5 := q.stage == 0 && b.exc5, discard := 4,
                 at25 := if q.stage == 0 && b.exc5 then false else b.exc5, badRun := 0, goodRun := 0, satRun := 0 })
    | 5 => s.modBl (q.who - 0x53) (fun b => { b with duty := b.pend.getD b.duty, pend := none })
    | _ => opGranted s

/-- Grants a request: an increment stays in its slot, any other takes the first free slot (R64, R66). -/
def grant (q : Req) (s : State) : State :=
  let s := withdraw q.cls q.who s
  let n := s.power.grants
  let s := { s with power.grants := n + 1 }
  let s :=
    if q.incr && (s.grantOf q.cls q.who).isSome then setCost q.cls q.who (s.grantCost q.cls q.who + q.cost) s
    else
      let k := (s.power.slots.takeWhile (·.isSome)).length
      let g : Grant := { cls := q.cls, who := q.who, cost := q.cost, revocable := q.revocable, order := n }
      { s with power.slots := s.power.slots.set k (some g) }
  granted q s

/-- Counts and records a refusal (R68, R80). -/
def denied (cls who asked taken : Nat) (s : State) : State :=
  powerRec 0x01 cls (who % 256) asked taken { s with power.denied := satAdd 65535 s.power.denied 1 }

/-- A revoked operation falls to its revoked state (R69); after a dip it asks again when the dip ends. A backlight that
stands below `BLFLOOR` keeps its duty: it falls to the lesser of the two (DESIGN CHOICE, log 32). The REVOKED record of a
USER grant, the record `o` in the order of all, is queued to its context as well (R74). -/
def fallRevoked (o : Nat) (g : Grant) (byDip : Bool) (s : State) : State :=
  if g.who < 32 then
    let s := notify g.who (0x03 + 256 * g.cls + 4096 * g.cost) [] s
    if g.cls == 8 then
      pubIdle (putQueue g.who o { time := s.clk.tb, origin := 0x40, typ := 0x40,
                                  payload := [0x02, b8 g.cls, b8 g.who, 0] ++ le 2 g.cost ++ le 2 0 } s)
    else s
  else match g.cls with
    | 2 => askLater 2 0x50 (some 256) byDip { s with fe.scanAmp := some 8, fe.scanFb := true }
    | 4 => askLater 4 g.who (some 256) byDip (exciteOff (bridgeOf g.who) s)
    | 5 => askLater 5 g.who none byDip
        (s.modBl (g.who - 0x53) (fun b => { b with duty := min b.duty (10 * s.power.blFloor), pend := none }))
    | _ => s

/-- Revokes one grant: it is released, an increment of it that is pending is withdrawn, and its operation falls to its
revoked state. The record carries the grant's cost as asked and 0 as taken (DESIGN CHOICE, log 32). -/
def revoke (byDip : Bool) (g : Grant) (s : State) : State :=
  let s := withdraw g.cls g.who (releaseGrant g.cls g.who s)
  let o := s.chan.ord
  let s := powerRec 0x02 g.cls (g.who % 256) g.cost 0 s
  fallRevoked o g byDip s

/-- The revocable grants of rank 1 and lower, lowest rank first and newest first within a rank (R68, R69). -/
def State.revocables (s : State) : List Grant :=
  sortBy (fun g => -((rank g.cls : Int) * 2 ^ 64 + g.order)) (s.grants.filter (fun g => g.revocable && 1 ≤ rank g.cls))

/-- Revokes revocable grants in order until the account fits. -/
def revokeUntil (fits : State → Bool) : List Grant → State → State
  | [], s => s
  | g :: gs, s => if fits s then s else revokeUntil fits gs (revoke false g s)

/-- Revokes until base plus held costs lie within the cap (R69). -/
def revokeToCap (s : State) : State := revokeUntil (fun s => s.base + s.heldCost ≤ s.power.cap) s.revocables s

/-- A dip or the overcap guard bars rank 1 and lower (R70, R71). -/
def State.lowbar (s : State) : Bool := s.power.dip || s.power.guard

/-- The place of a requester in the tie order of R66. -/
def reqKey (q : Req) : Int :=
  let w := if q.who < 32 then 0x100000 + q.who else (q.who % 256) * 16 + q.who / 256
  (((rank q.cls * 2 ^ 40 + q.arrival) * 16 + q.cls) * 2 ^ 24 + w : Nat)

/-- What is left for a request after those that stand before it have held back their costs (R66). -/
def State.availFor (s : State) (q : Req) : Nat :=
  s.avail - sumN ((s.power.reqs.filter (fun r => reqKey r < reqKey q)).map (·.cost))

/-- Frame rate in force, 0 when none. -/
def State.hz (s : State) : Nat := rateHz s.aon.rate

/-- The second stage of a rank-0 refusal: revocable grants are revoked until the request fits, then it is granted;
if it does not fit it stays (R68). -/
def escalate (q : Req) (s : State) : State :=
  let s := revokeUntil (fun s => q.cost ≤ s.avail) s.revocables s
  if q.cost ≤ s.avail then grant q s
  else { s with power.reqs := s.power.reqs.map (fun r =>
    if r.cls == q.cls && r.who == q.who then { r with stage := 2, waits := 5 } else r) }

/-- Slots a request of rank 1 or lower may take: 3 are kept for rank 0 (R66). -/
def State.freeSlots (s : State) : Nat :=
  (16 - s.grants.length) - (3 - (s.grants.filter (fun g => rank g.cls == 0)).length)

/-- SCAN asks again each 256 frames from its first refusal on (R68). -/
def scanLater (s : State) : State :=
  if s.power.rereq.any (fun r => r.cls == 2 && r.who == 0x50) then s else askLater 2 0x50 (some 256) false s

/-- Refuses a request after four waits, with `left` of the account remaining for it: the fall-back of its class (R68). -/
def refuse (left : Nat) (q : Req) (s : State) : State :=
  if q.who < 32 then
    let s := denied q.cls q.who q.cost 0 (withdraw q.cls q.who s)
    notify q.who (0x02 + 256 * q.cls + 4096 * q.cost) [] s
  else match q.cls with
    | 0 =>
      if q.stage == 0 then
        let half := ceilDiv q.cost 2
        denied 0 q.who q.cost half { s with power.reqs := s.power.reqs.map (fun r =>
          if r.cls == 0 && r.who == q.who then { r with stage := 1, waits := 0, cost := half } else r) }
      else escalate q s
    | 1 =>
      let s := escalate q s
      if (s.reqOf 1 q.who).isNone then s
      else
        let first := !(s.fan (q.who - 0x40)).holdDenied
        let s := askLater 1 q.who none false (withdraw 1 q.who s)
        let s := s.modFan (q.who - 0x40) (fun f => { f with holdDenied := true })
        if first then denied 1 q.who (s.grantCost 1 q.who + q.cost) (s.grantCost 1 q.who) s else s
    | 2 =>
      let have_ := s.grantCost 2 0x50
      let free := if s.lowbar || !(q.incr || 0 < s.freeSlots) then 0 else left
      let amp := scanFit s.hz (have_ + free)
      let cost := scanCost amp s.hz
      let s := withdraw 2 0x50 s
      let s :=
        if cost == 0 then releaseGrant 2 0x50 s
        else if (s.grantOf 2 0x50).isSome then setCost 2 0x50 cost s
        else
          let w := s.power.rereq
          let s := grant { q with cost := cost, incr := false } s
          { s with power.rereq := w }
      let s := { s with fe.scanAmp := some amp, fe.scanFb := true }
      denied 2 0x50 (have_ + q.cost) cost (scanLater s)
    | 3 =>
      denied 3 q.who q.cost 0 { withdraw 3 q.who s with
        meter.boostOn := true, meter.boostStarting := true, meter.soft := true }
    | 4 =>
      let n := bridgeOf q.who
      if (s.bridge n).excited then
        denied 4 q.who q.cost 0 ((withdraw 4 q.who s).modBridge n (fun b => { b with at25 := b.exc5 }))
      else if q.stage == 0 && (s.bridge n).exc5 then
        let s := denied 4 q.who q.cost s.power.exc25 (withdraw 4 q.who s)
        request 4 q.who s.power.exc25 false 1 true s
      else denied 4 q.who q.cost 0 (askLater 4 q.who (some 256) false (withdraw 4 q.who s))
    | 5 => denied 5 q.who q.cost (s.grantCost 5 q.who) (askLater 5 q.who none false (withdraw 5 q.who s))
    | c =>
      let s := askLater c q.who (some 64) false (withdraw c q.who s)
      if q.stage == 0 then denied c q.who q.cost 0 s else s

/-- Carries out the refusals that are due outside a decision. -/
def refusals (s : State) : State :=
  (s.power.reqs.filter (fun q => q.waits == 4)).foldl (fun s q =>
    if (s.reqOf q.cls q.who) == some q then refuse (s.availFor q) q s else s) s

/-- Counts a wait of a pending request. -/
def countWait (q : Req) (s : State) : State :=
  { s with power.reqs := s.power.reqs.map (fun r =>
      if r.cls == q.cls && r.who == q.who then { r with waits := r.waits + 1 } else r) }

/-- One request of the loop of R66, with what is left of the account: it is granted, or its cost is held back, a wait is
counted where waits are counted, and the fourth refuses it. A rank-0 request that only stays pending counts no more. -/
def decideOne (all count : Bool) (acc : Nat × State) (q : Req) : Nat × State :=
  let (a, s) := acc
  if !all && 0 < rank q.cls then (a, s)
  else
    let slotOk := q.incr || (if rank q.cls == 0 then s.grants.length < 16 else 0 < s.freeSlots)
    if slotOk && q.cost ≤ a && !(s.lowbar && 0 < rank q.cls) then (a - q.cost, grant q s)
    else
      let q' := if count && q.waits < 4 then { q with waits := q.waits + 1 } else q
      let s := if count && q.waits < 4 then countWait q s else s
      (a - q.cost, if q'.waits == 4 then refuse a q' s else s)

/-- A Hearth decision, R66: a new cap applies, a dip revokes first, then the loop takes the pending requests in order. A
request that the loop has changed meanwhile waits for the next decision. -/
def decideLeave (all count : Bool) (s : State) : State :=
  let s := match s.power.capNext with
    | some c => { s with power.cap := c, power.capNext := none,
                         chan.deferred := s.chan.deferred.filter (fun d => d.code != 0x70) }
    | none => s
  let s := if s.power.dip then (s.grants.filter (·.revocable)).foldl (fun s g => revoke true g s) s else s
  let s := revokeToCap s
  let s := ((sortBy reqKey s.power.reqs).foldl (fun acc q =>
    if acc.2.reqOf q.cls q.who == some q then decideOne all count acc q else acc) (s.avail, s)).2
  { s with power.overcap := s.power.guard || s.power.cap < s.base + s.heldCost }

/-- A context that leaves RUNNING gives up its requests and grants (R69, R265). -/
def ctxGiveUp (i : Nat) (s : State) : State :=
  let s := { s with
    power.reqs := s.power.reqs.filter (fun q => q.who != i)
    power.slots := s.power.slots.map (fun (g : Option Grant) => match g with
      | some g => if g.who == i then none else some g
      | none => none) }
  s.modRun i (fun r => { r with fanReq := [0, 0, 0], blReq := [none, none] })

/-- A requester asks again (R68, R69): SCAN for the profile's amplitude, EXCITE at its configured VX, BACKLIGHT for the
duty that waits, a fan for its growth, the memory port for its operation. -/
def askAgain (cls who : Nat) (s : State) : State :=
  let s := dropReReq cls who s
  match cls with
  | 0 => request 0 who s.power.fanStart false 0 false s
  | 1 => if (s.fan (who - 0x40)).st == 2 then follow 1 who (s.fan (who - 0x40)).measured s else s
  | 2 => follow 2 0x50 (scanCost (profileTotal s) s.hz) s
  | 4 => syncBridges s
  | 5 =>
    let b := s.bl (who - 0x53)
    follow 5 who (ceilDiv (s.power.blFull * b.pend.getD b.duty) 1000) s
  | 6 => if s.mem.op.isSome then request 6 who s.power.eraseHu false 1 false s else s
  | 7 => if s.mem.op.isSome then request 7 who s.power.progHu false 1 false s else s
  | _ => s

/-- Counts down the frames of those that wait to ask again, and lets those whose wait is over ask (R68). SCAN counts its
next 256 frames from there. -/
def rereqFrame (s : State) : State :=
  let due := s.power.rereq.filter (fun r => !r.dip && r.frames == some 1)
  let s := { s with power.rereq := s.power.rereq.map (fun r =>
    match r.frames with
    | some (n + 1) => if r.dip then r else { r with frames := some n }
    | _ => r) }
  due.foldl (fun s r =>
    let s := askAgain r.cls r.who s
    if r.cls == 2 && s.fe.scanFb then scanLater s else s) s

/-- A flash operation takes the port and asks for its leave (R411, R412). -/
def startFlash (o : FlashOp) (s : State) : State :=
  let cls := opClass o
  request cls 0x52 (if cls == 6 then s.power.eraseHu else s.power.progHu) false 0 false { s with mem.op := some o }

/-! ### The rows of the Hearth -/

/-- REQUEST_REFUSAL, R68. -/
def execRequestRefusal (s : State) : Host.Outcome State Fault Refusal := .next (refusals s)

/-- LEAVE_REREQUEST, R68, R69: the wait is over. A wait counted in frames ends by its own count, one that waits for a
dip ends with the dip. -/
def execLeaveRerequest (cls who : Nat) (s : State) : Host.Outcome State Fault Refusal :=
  .next (if s.power.rereq.any (fun r => r.cls == cls && r.who == who && !r.dip && (r.frames == none || r.frames == some 0))
    then askAgain cls who s else s)

end Sys2Proof.Machine
end

