-- ==== Sys2Proof/Machine/Modes.lean ====
section
/-! DEFINITION. Modes: the mode choice, wake sources and floor, HIBERNATE, SAFE and its exits, the power events of the
supplies and the signal logic of AON (R31-R57, R70-R73).
Conventions that the spec leaves open: log 14 (DESIGN CHOICE), log 29, log 34 (DEDUCED). -/

namespace Sys2Proof.Machine
open Sys2Proof

/-- Whether a mode runs frames: WATCH, ACTIVE, and SERVICE with a rate. -/
def framesIn (m : ModeSel) : Bool :=
  match m.mode with
  | .watch => true
  | .active => true
  | .service => 2 ≤ m.rate
  | _ => false

/-- Whether a mode keeps SENSE on: those that run frames, and SERVICE with no rate set (R31). -/
def senseIn (m : ModeSel) : Bool := framesIn m || m.mode == .service

/-- A fan or backlight demand, R32. -/
def State.driveDemand (s : State) : Bool :=
  s.thermal.fans.any (fun f => 0 < f.target) || s.thermal.bls.any (fun b => 0 < b.duty)

/-- In HIBERNATE and DOZE the DRIVE domain follows the demand (R32). -/
def driveFollow (s : State) : State :=
  if s.aon.mode == .hibernate || s.aon.mode == .doze then setDomains s.power.domSense s.driveDemand s else s

/-- The highest and the lowest VHV, in 10 mV, while the boost is stopped (R59). -/
def vhvIdle (v : Nat) : Nat := max 260 (min 300 v)

/-- SENSE switches off: the boost is stopped and discharged first, SCAN, BOOST_START and EXCITE grants end (R60, R64). -/
def senseOff (s : State) : State :=
  let s := (List.range 4).foldl (fun s n => exciteOff n (withdraw 4 (exciteWho n) (releaseGrant 4 (exciteWho n) s))) s
  let s := withdraw 2 0x50 (withdraw 3 0x50 (releaseGrant 2 0x50 (releaseGrant 3 0x50 s)))
  let s := setDomains false s.power.domDrive s
  { s with meter.boostOn := false, meter.boostStarting := false, meter.soft := false,
           meter.vhvMeas := if s.meter.boostOn then vhvIdle s.meter.vhvMeas else s.meter.vhvMeas,
           fe.vhvSet := 0, fe.scanAmp := none, fe.scanFb := false,
           power.rereq := s.power.rereq.filter (fun r => !(r.cls == 2)) }

/-- SENSE switches on for frames: the boost asks for leave, and enabled bridges for excitation (R60, R64). -/
def senseOn (s : State) : State :=
  let s := setDomains true true { coreRuns s with power.domCore := true }
  let s := if s.meter.boostOn || (s.reqOf 3 0x50).isSome then s else request 3 0x50 s.power.boostHu false 0 false s
  syncBridges s

/-- Candidates and contacts are cleared, an open pass ends, and the contacts wait to be listed once as ended beside those that
wait already or that the open pass lists (R183). -/
def clearTracked (s : State) : State :=
  let waits := s.frame.firstNext || s.frame.phase == 1 || s.frame.phase == 2
  { s with
    frame.phase := 0
    frame.firstNext := true
    eng.turn := none
    pipe.cands := []
    pipe.frags := []
    pipe.endedList := (if waits then s.pipe.endedList else []) ++
      s.pipe.contacts.map (fun c => { c with ended := true, oldX := c.gx, oldY := c.gy })
    pipe.idle := s.pipe.contacts.foldl (fun l c => l.set c.id 0) s.pipe.idle
    pipe.contacts := [] }

/-- Frames stop: the frame being sensed is discarded, and what is tracked is cleared (R120, R183). -/
def stopFrames (s : State) : State :=
  if !s.framesRun then s
  else
    let s := clearTracked s
    { s with frame.running := false, frame.sensed := false, frame.stoppedAt := some s.clk.tb, fe.run := false }

/-- The crystal stops: the tick and AONCLK change to the keeper, and an open gate is discarded (R85, R94). -/
def crystalOff (s : State) : State :=
  let s := toKeeper s
  { s with clk.xtal := false, clk.lock := false, clk.goodRun := 0, clk.badRun := 0, clk.spare := true }

/-- Before CORE is switched off every grant is released, except the standing fan grants while DRIVE stays on (R60). -/
def releaseForSleep (s : State) : State :=
  { s with power.slots := s.power.slots.map (fun (g : Option Grant) => match g with
      | some g => if s.power.domDrive && g.cls == 1 then some g else none
      | none => none) }

/-- The mode changes (R31, R57): registers, domains and clocks follow. A rise of the base revokes (R69). SERVICE begins with
calibration frozen (R56). -/
def enterMode (m : ModeSel) (why : Nat) (s : State) : State :=
  let s := if framesIn m then s else if senseIn m then stopFrames s else senseOff (stopFrames s)
  let hib := m.mode == .hibernate
  let drive := match m.mode with
    | .hibernate => s.driveDemand
    | .doze => s.driveDemand
    | .boot => s.power.domDrive
    | _ => true
  let s := { s with
    aon.prev := s.aon.mode
    aon.mode := m.mode
    aon.rate := m.rate
    aon.dozeHz := if m.mode == .doze then m.hz else 0
    aon.why := why
    md.pending := none
    md.hibEntry := false
    power.domCore := !hib
    md.hostService := s.md.hostService && hib
    md.houseRun := s.md.houseRun && hib
    clk.lock := !s.clk.spare && !hib && m.mode != .doze
    clk.coreStopped := hib || m.mode == .doze
    clk.sweepAt := if m.mode == .doze then 4 * s.clk.tb else s.clk.sweepAt
    cal.freeze := if m.mode == .service && s.aon.mode != .service then 0x00FF else s.cal.freeze }
  let s := setDomains (s.power.domSense && senseIn m) drive s
  let s := if hib then
      releaseForSleep (crystalOff s)
    else if senseIn m && !framesIn m then senseOn s
    else s
  revokeToCap s

/-! ### The mode choice, R40 -/

/-- What bars HIBERNATE, R40. The front end's and the force converter's own grants of classes 2 to 4 end with sensing
(R60), so that ACTIVE leads to HIBERNATE (R48; DEDUCED, log 34). -/
def State.hibBarred (s : State) : Bool :=
  s.driveDemand || s.aon.nohib || s.inSpan || s.mem.op.isSome || s.eng.compact ||
    s.grants.any (fun g => !(2 ≤ g.cls && g.cls ≤ 4 && 32 ≤ g.who))

/-- The slowest whole DOZE rate that meets a wake bound, else the fastest. -/
def dozeRate (a : Aon) (wk : Nat) : Nat :=
  ((List.range 11).find? (fun r => a.dozeMin ≤ r && r ≤ a.dozeMax && wakeOk ⟨.doze, 1, r⟩ wk)).getD a.dozeMax

/-- The ladder of R38, lowest step first. -/
def ladder (s : State) (wk : Nat) : List ModeSel :=
  [⟨.hibernate, 0, 0⟩, ⟨.doze, 1, dozeRate s.aon wk⟩, ⟨.watch, 2, 0⟩, ⟨.active, 3, 0⟩, ⟨.active, 4, 0⟩,
   ⟨.active, 5, 0⟩, ⟨.active, 6, 0⟩]

/-- Place of a mode in the ladder. -/
def stepOf (m : ModeSel) : Nat :=
  match m.mode with
  | .hibernate => 1
  | .doze => 2
  | .watch => 3
  | .active => m.rate + 1
  | _ => 0

/-- The contract mode of R40 and whether some contract is unmet. -/
def contractMode (s : State) : ModeSel × Bool :=
  let rep := leastNonzero (s.inForce.map (·.report))
  let wk := leastNonzero (s.inForce.map (·.wake))
  let ok (m : ModeSel) : Bool :=
    contractMet m { report := rep, wake := wk, wset := s.need, grace := 0 } &&
      !(m.mode == .hibernate && s.hibBarred) && !(m.rate == 6 && s.inSpan)
  match (ladder s wk).find? ok with
  | some m => (m, false)
  | none => (⟨.active, if s.inSpan then 5 else 6, 0⟩, true)

/-- The budgets of the contexts that run or have a start in flight. -/
def State.capSum (s : State) : Nat :=
  s.budSum + sumN ((filterIdx 32 (fun i => (s.ctx i).st != 3 && (s.ctx i).st != 0 &&
    s.chan.deferred.any (fun d => d.code == 0x15 && byteAt d.payload 0 == i))).map (fun i => (s.ctx i).budget))

/-- 240 Hz is withheld while the budgets exceed its context capacity, R233. -/
def rateCapped (s : State) (m : ModeSel) : ModeSel := if m.rate == 6 && 114688 < s.capSum then { m with rate := 5 } else m

/-- The wake floor, R44. -/
def floorSel (s : State) : ModeSel :=
  let r := s.aon.wakeRate + 3
  ⟨.active, if r == 6 && s.inSpan then 5 else r, 0⟩

/-- A chosen mode is put in hand: at the next frame boundary when frames run or are to run, as an entry to HIBERNATE, or
at once (R25, R40). A change that waits already keeps its cause. The leader of a span proposes it first (R41). -/
def takeMode (m : ModeSel) (why : Nat) (s : State) : State :=
  let waits : Bool := match s.md.pending with
    | some (m', _) => m' == m
    | none => false
  if s.span.role == 2 && s.framesRun && m.mode != .hibernate then { s with spanx.modeNext := some m, md.chosen := m }
  else if s.sel == m then { s with md.pending := none, md.hibEntry := false }
  else if waits then s
  else if m.mode == .hibernate then { s with md.pending := some (m, why), md.hibEntry := true, md.entryWake := 0 }
  else if s.framesRun then { s with md.pending := some (m, why), md.hibEntry := false }
  else if framesIn m then senseOn { s with md.pending := some (m, why), md.hibEntry := false }
  else enterMode m why s

/-- The choice of R40 with forced mode, floor and RATECAP: the mode, the mode before RATECAP, whether the floor raised it,
and whether a contract cannot be met. -/
def choice (s : State) : ModeSel × ModeSel × Bool × Bool :=
  match s.md.forced with
  | some f =>
    let m := rateCapped s f
    (m, f, false, s.inForce.any (fun k => !contractMet m k))
  | none =>
    let (c, un) := contractMode s
    let fl := floorSel s
    let up := s.md.floor && stepOf c < stepOf fl
    let m0 := if up then fl else c
    let m := rateCapped s m0
    (m, m0, up, un || s.inForce.any (fun k => stepOf m != stepOf m0 && !contractMet m k))

/-- The registers of the choice, and the signal of a port whose cause UNMET begins with it (R45, R50, R57). -/
def noteChoice (s : State) : State :=
  let (m, m0, up, un) := choice s
  let t := { s with md.chosen := m, md.floorUp := up, eng.rateCap := m != m0, aon.unmet := un }
  [Port.tw, Port.hs].foldl (fun t p => if t.unmetFor p && !s.unmetFor p then raise p t else t) t

/-- The choice of R40 is made; SERVICE and SAFE suspend it, and a transition to HIBERNATE completes first (R49). A span
follower leaves it to its leader (R41). In BOOT nothing is chosen before a set is accepted, nor HIBERNATE before HOSTHOLD
has passed (R55). -/
def choose (why : Nat) (s : State) : State :=
  if s.aon.mode == .safe || s.span.role == 3 || s.span.role == 4 || s.md.hibEntry then s
  else if s.aon.mode == .boot && s.chan.accepted.isNone && s.md.forced.isNone then s
  else
    let up := s.md.floorUp
    let t := noteChoice s
    let why := if t.md.forced.isSome then 4 else if why != 0 then why else if t.md.floorUp then 2 else if up then 3 else 1
    if t.md.chosen.mode == .hibernate && t.aon.mode == .boot && t.md.bootHold && t.md.forced.isNone then t
    else takeMode t.md.chosen why t

/-- MODE_CHOICE, R40. -/
def execModeChoice (s : State) : Host.Outcome State Fault Refusal := .next (choose 0 s)

/-! ### SAFE -/

/-- Entry to SAFE, R52, R69: sensing stops, grants of rank 1 and lower are released, transitions are abandoned, among them
an exit from SAFE that has not taken effect (R49). A follower tells its leader, whose proposals then do without it (R455). -/
def enterSafe (s : State) : State :=
  if s.aon.mode == .safe then
    if s.md.pending.isSome then senseOff { s with md.pending := none, md.hibEntry := false } else s
  else
    let s := { s with
      power.slots := s.power.slots.map (fun (g : Option Grant) => match g with
        | some g => if rank g.cls == 0 then some g else none
        | none => none)
      md.floor := false
      md.floorUp := false }
    let s := coreRuns (enterMode ⟨.safe, 0, 0⟩ 5 s)
    if s.span.role == 3 && s.span.joined && s.span.lock && !s.clk.xtalFail then sendReady 3 0 s else s

/-- SAFE for SHDN_N: R51, R52, with the THERMAL record SHDN of R492 written by its own row. -/
def safeShdn (s : State) : State :=
  latchFault 0 (enterSafe { s with aon.scShdn := true, aon.wakeSrc := setBit s.aon.wakeSrc 5 true })

/-- SAFE for a watchdog fault of the house program (R29, R51, R95); the record's subtype is open (DESIGN CHOICE, log 4). -/
def safeWdog (s : State) : State :=
  let s := latchFault 3 (enterSafe { s with aon.scWdog := true, md.wdogNow := true })
  record 0x40 [Config.wdogSubtype, 0xFF, 0xFF, 0, 0, 0, 0, 0] s

/-- Whether a cause of SAFE is present. -/
def State.safeCause (s : State) : Bool :=
  s.shdn.asserted || s.md.vinLow || s.aon.vhvLatch || s.md.wdogNow || s.clk.xtalFail

/-- SAFE is left for the chosen mode (R53). -/
def leaveSafe (s : State) : State :=
  if s.aon.mode != .safe || s.safeCause then s else
    let s := { s with md.vhvNow := false }
    if s.chan.accepted.isNone && s.md.forced.isNone then enterMode .boot 6 s
    else
      let s := noteChoice s
      takeMode s.md.chosen 6 s

/-- SAFE_EXIT, R53: every cause has been absent for 10 s. -/
def execSafeExit (s : State) : Host.Outcome State Fault Refusal := .next (leaveSafe s)

/-- SLIP_WATCHDOG, R29. -/
def execSlipWatchdog (s : State) : Host.Outcome State Fault Refusal :=
  .next (if 8 ≤ s.eng.slipRun then safeWdog { s with eng.slipRun := 0 } else s)

/-- SAFE_VIN, R51, R70: VIN in 10 mV, below 4.3 V for more than 10 ms. -/
def execSafeVin (vin : Nat) (s : State) : Host.Outcome State Fault Refusal :=
  .next (if vin < 430 && !(s.md.vinLow && s.aon.mode == .safe) then
      powerRec 0x07 0xFF 0xFF 0 vin (latchFault 1 (enterSafe { s with aon.scVinlow := true, md.vinLow := true }))
    else s)

/-- VHV_FAULT, R72: the boost stops and SAFE is entered; a third fault within 10 min latches (R53). -/
def execVhvFault (kind : Nat) (s : State) : Host.Outcome State Fault Refusal :=
  .next (if s.meter.boostOn && 1 ≤ kind && kind ≤ 3 && !(kind == 1 && s.meter.boostStarting) then
      let n := satAdd 3 s.aon.vhvCnt 1
      let s := { s with meter.vhvLast := kind, aon.scVhv := true, aon.vhvCnt := n, md.vhvNow := true,
                        aon.vhvLatch := s.aon.vhvLatch || 3 ≤ n }
      powerRec 0x05 0xFF 0xFF 0 0 (latchFault 2 (enterSafe (senseOff s)))
    else s)

/-- VHVCNT_AGE_OUT, R53. -/
def execVhvcntAgeOut (s : State) : Host.Outcome State Fault Refusal :=
  .next { s with aon.vhvCnt := s.aon.vhvCnt - 1 }

/-! ### Supplies -/

/-- METER_SAMPLE, R61: the 1 ms sample, averaged over 100 ms; power in units of 10 mW. While the boost is stopped VHV lies
between 2.6 V and 3.0 V (R59). -/
def execMeterSample (m : MeterSample) (s : State) : Host.Outcome State Fault Refusal :=
  let p := (m.vinMv * m.vinMa + m.vmotMv * m.vmotMa) / 10000
  let xs := (s.meter.samples ++ [(p, m.vinMa, m.vmotMa)])
  let xs := xs.drop (xs.length - 100)
  let avg (f : Nat × Nat × Nat → Nat) : Nat := sumN (xs.map f) / xs.length
  .next { wrote (fun k pl => k == 0x71 || regsFrom 0x1000 0x1000 k pl) s with
    meter.samples := xs
    meter.vinMv := min 65535 m.vinMv
    meter.vmotMv := min 65535 m.vmotMv
    meter.vinMa := min 65535 (avg (fun x => x.2.1))
    meter.vmotMa := min 65535 (avg (fun x => x.2.2))
    meter.avg := min 65535 (avg (fun x => x.1))
    meter.peak := min 65535 (max s.meter.peak p)
    meter.vhvMeas := if s.meter.boostOn then min 65535 m.vhv else vhvIdle m.vhv
    md.vinLow := s.md.vinLow && m.vinMv < 4500 }

/-- The average exceeds the cap: hu of 50 mW against units of 10 mW. -/
def State.overAvg (s : State) : Bool := s.feat 67 && 5 * s.power.cap < s.meter.avg

/-- OVERCAP, R71: the average has exceeded the cap for more than 1 s. -/
def execOvercap (s : State) : Host.Outcome State Fault Refusal :=
  .next (if s.overAvg && !s.power.guard then
      powerRec 0x04 0xFF 0xFF 0 0 { s with power.guard := true, power.overcap := true }
    else s)

/-- OVERCAP_REVOKE, R71: every 100 ms one revocable grant, until the average is within the cap. -/
def execOvercapRevoke (s : State) : Host.Outcome State Fault Refusal :=
  .next (if !s.power.guard then s
    else if !s.overAvg then { s with power.guard := false, power.overcap := s.power.cap < s.base + s.heldCost }
    else match s.revocables with
      | g :: _ => revoke false g s
      | [] => s)

/-- DIP, R70: VIN in 10 mV below 4.4 V. -/
def execDip (vin : Nat) (s : State) : Host.Outcome State Fault Refusal :=
  .next (if 440 ≤ vin then s
    else if s.power.dip then s
    else
      let s := { s with power.dip := true, power.dipSeen := true }
      let s := powerRec 0x03 0xFF 0xFF 0 vin s
      let s := latchFault 13 s
      (s.grants.filter (·.revocable)).foldl (fun s g => revoke true g s) s)

/-- DIP_END, R70: VIN at or above 4.5 V for 100 ms; revoked requesters ask again. -/
def execDipEnd (vin : Nat) (s : State) : Host.Outcome State Fault Refusal :=
  .next (if s.power.dip && 450 ≤ vin then
      let s := powerRec 0x08 0xFF 0xFF 0 vin { s with power.dip := false, md.vinLow := false }
      let due := s.power.rereq.filter (·.dip)
      due.foldl (fun s r => askAgain r.cls r.who s) s
    else s)

/-- VMOT_UV, R73: the bridges are disabled and their grants released. -/
def execVmotUv (s : State) : Host.Outcome State Fault Refusal :=
  .next (if s.power.vmotUv then s else
    let s := { s with power.vmotUv := true }
    let s := (List.range 3).foldl (fun s n =>
      let f := s.fan n
      let s := dropReReq 1 (0x40 + n) (withdraw 0 (0x40 + n) (withdraw 1 (0x40 + n) (releaseGrant 0 (0x40 + n) (releaseGrant 1 (0x40 + n) s))))
      if f.st == 1 || f.st == 2 || f.st == 4 then
        s.modFan n (fun f => { f with st := 5, drive := 0, setMil := 0, integ := 0, current := 0 })
      else s) s
    powerRec 0x06 0xFF 0xFF 0 0 s)

/-- VMOT_UV_END, R73: VMOT at or above 4.5 V for 100 ms; the fans ask for FAN_START. -/
def execVmotUvEnd (s : State) : Host.Outcome State Fault Refusal :=
  .next (if !s.power.vmotUv then s else
    (List.range 3).foldl (fun s n =>
      let s := if (s.fan n).failed then s.modFan n (fun f => { f with st := 3, retryMs := 30000 }) else s
      if (s.fan n).st == 5 then
        let s := s.modFan n (fun f => { f with st := 0 })
        if 0 < (s.fan n).target && !(s.fan n).hot then request 0 (0x40 + n) s.power.fanStart false 0 false s else s
      else s) { s with power.vmotUv := false })

/-- BOOST_START_DONE, R64: VHV within 5 %, or 3 ms. -/
def execBoostStartDone (s : State) : Host.Outcome State Fault Refusal :=
  .next (if s.meter.boostStarting then
      releaseGrant 3 0x50 { s with meter.boostStarting := false, meter.soft := false }
    else s)

/-! ### Wake sources, R42-R44 -/

/-- A wake event raises the floor (R44). -/
def raiseFloor (s : State) : State :=
  if s.aon.mode == .service || s.aon.mode == .safe || s.aon.mode == .boot then s else { s with md.floor := true }

/-- CORE starts from retention on the spare oscillator and the crystal is started (R90); continuous read counts as left, and
every line is invalid (R409). -/
def coreWake (s : State) : State :=
  if s.power.domCore then coreRuns s
  else { s with power.domCore := true, clk.coreStopped := false, clk.spare := true, clk.goodRun := 0, clk.badRun := 0,
                chan.wake := true, mem.lines := [], mem.filling := none, mem.cont := false }

/-- A source that comes during an entry to HIBERNATE is latched and served once entry completes (R49). -/
def latchEntry (k : Nat) (s : State) : State :=
  { s with aon.wakeSrc := setBit s.aon.wakeSrc k true, md.entryWake := setBit s.md.entryWake k true }

/-- ADDRESS_MATCH, R353: the full address while CORECLK is stopped, or during an entry to HIBERNATE (R49). -/
def execAddressMatch (addr : Nat) (s : State) : Host.Outcome State Fault Refusal :=
  .next (if addr != 0x28 + s.pins.haddr then s
    else if s.aon.mode == .hibernate && s.clk.coreStopped then
      if s.aon.enTw then
        coreWake { s with aon.wakeSrc := setBit s.aon.wakeSrc 0 true, md.hostService := true, tw.stretch := true }
      else s
    else if s.aon.mode == .doze && s.clk.coreStopped then { coreRuns s with tw.stretch := true }
    else if s.md.hibEntry && s.aon.enTw then latchEntry 0 { s with tw.stretch := true }
    else s)

/-- WAKE_STRETCH_END, R351: CORE takes the bus over. -/
def execWakeStretchEnd (us : Nat) (s : State) : Host.Outcome State Fault Refusal :=
  .next (if s.tw.stretch && s.power.domCore then
      { s with tw.stretch := false, tw.wakeUs := min 65535 us, chan.wake := false }
    else s)

/-- HCS_WAKE, R387: the wake is complete and WAKE is clear again (R389). The transaction that caused it is busy. -/
def execHcsWake (s : State) : Host.Outcome State Fault Refusal :=
  .next (if s.aon.mode == .hibernate && s.clk.coreStopped then
      if s.aon.enHs then
        let s := coreWake { s with aon.wakeSrc := setBit s.aon.wakeSrc 1 true, md.hostService := true }
        { s with chan.wake := false }
      else s
    else if s.aon.mode == .doze && s.clk.coreStopped then
      { coreRuns s with
               aon.wakeSrc := if s.aon.enHs then setBit s.aon.wakeSrc 1 true else s.aon.wakeSrc }
    else if s.md.hibEntry && s.aon.enHs then latchEntry 1 s
    else s)

/-- The floor that a wake source has raised makes the choice, and CORE starts where that leaves HIBERNATE or DOZE. A forced
mode holds, and CORE stays as it is (R42, R44, R49). -/
def serveFloor (s : State) : State :=
  let s := raiseFloor s
  if s.clk.coreStopped && (choose 0 s).sel == s.sel && (choose 0 s).md.pending.isNone then choose 0 s
  else choose 0 (coreWake s)

/-- GPIO_WAKE, R42: a masked pin at its wake level. -/
def execGpioWake (levels : BitVec 16) (s : State) : Host.Outcome State Fault Refusal :=
  let s := { s with pins.gp := levels }
  .next (if s.aon.enGpio && ((~~~(levels ^^^ s.aon.gpioLevel)) &&& s.aon.gpioMask) != 0 then
      if s.md.hibEntry then latchEntry 3 s
      else
        let s := { s with aon.wakeSrc := setBit s.aon.wakeSrc 3 true }
        if s.aon.mode == .hibernate || s.aon.mode == .doze || s.aon.mode == .watch then serveFloor s else s
    else s)

/-- HOUSE_RUN, R42, R44: CORE alone runs for the house program; the work due is done by its own rows. -/
def execHouseRun (s : State) : Host.Outcome State Fault Refusal :=
  .next (if s.aon.mode == .hibernate then
      coreWake { s with aon.wakeSrc := setBit s.aon.wakeSrc 4 true, md.houseRun := true }
    else if s.md.hibEntry then latchEntry 4 s
    else s)

/-- Whether no candidate and no contact stands on the part, nor, as the stitching tells it, a contact on a member of its
span (R44). -/
def State.floorIdle (s : State) : Bool :=
  s.pipe.cands.isEmpty && s.pipe.contacts.isEmpty && (!s.span.joined || s.spanx.idHeld == 0)

/-- WAKE_FLOOR_END, R44: WAKEHOLD has passed with no candidate and no contact. -/
def execWakeFloorEnd (s : State) : Host.Outcome State Fault Refusal :=
  .next (if s.md.floor && s.floorIdle then { s with md.floor := false } else s)

/-- CORE goes back to retention. -/
def coreSleep (s : State) : State :=
  releaseForSleep { crystalOff s with power.domCore := false, clk.coreStopped := true }

/-- HOST_SERVICE_END, R43, R55: HOSTHOLD has passed with no transaction; a house run ends likewise. In HIBERNATE the
part goes back to retention unless the choice now selects another mode, or flash is still busy. -/
def execHostServiceEnd (s : State) : Host.Outcome State Fault Refusal :=
  .next (if s.aon.mode == .hibernate && (s.md.hostService || s.md.houseRun) then
      let t := choose 0 s
      if t.aon.mode == .hibernate && t.md.pending.isNone && t.mem.op.isNone then
        coreSleep { t with md.hostService := false, md.houseRun := false }
      else t
    else if s.aon.mode == .doze && !s.clk.coreStopped && s.md.pending.isNone then { s with clk.coreStopped := true, clk.lock := false }
    else if s.aon.mode == .boot then choose 0 { s with md.bootHold := false }
    else s)

/-- A source latched during the entry is served as if it had come just after it (R49): host service, a house run, or the
wake floor. -/
def serveEntry (w : BitVec 6) (s : State) : State :=
  let s := if getBit w 0 || getBit w 1 then coreWake { s with md.hostService := true } else s
  let s := if getBit w 4 then coreWake { s with md.houseRun := true } else s
  if getBit w 2 || getBit w 3 then serveFloor s else s

/-- HIBERNATE_ENTRY, R48, R49: entry completes; sources latched meanwhile are then served. -/
def execHibernateEntry (s : State) : Host.Outcome State Fault Refusal :=
  .next (match s.md.pending with
    | some (m, why) =>
      if s.md.hibEntry && m.mode == .hibernate && !s.mem.op.isSome then
        serveEntry s.md.entryWake { enterMode m why s with md.entryWake := 0 }
      else s
    | none => s)

/-! ### The signal of AON -/

/-- ALERT_REASSERT, R45, R388: 1 s after the last assertion, while the cause stands. -/
def execAlertReassert (p : Port) (s : State) : Host.Outcome State Fault Refusal :=
  .next (if s.stands p then raise p s else s)

/-- PORT_LAPSE, R47: the oldest unread event is older than the grace. -/
def execPortLapse (p : Port) (s : State) : Host.Outcome State Fault Refusal :=
  .next (if (s.readable p).any (fun r => r.seq.isNone) then
      let s := match p with
        | .tw => { s with aon.lapse0 := true }
        | .hs => { s with aon.lapse1 := true }
      raise p s
    else s)

end Sys2Proof.Machine
end

