-- ==== Sys2Proof/Machine/Clock.lean ====
section
/-! DEFINITION. The clock monitor, the crystal's start and failure, and the keeper's gates and trim (R85-R99).
Conventions that the spec leaves open: log 14 (DESIGN CHOICE). -/

namespace Sys2Proof.Machine
open Sys2Proof

/-- Whether settle is in force: fast settle, resumed settle (R201); hop settle concerns baselines only. -/
def State.settle (s : State) : Bool := s.cal.fastOn || 0 < s.cal.resumed

/-- A freeze bit of R209. -/
def State.frozen (s : State) (k : Nat) : Bool := getBit s.cal.freeze k

/-- One trim instant, R91. -/
def trimStep (settle : Bool) (s : State) : State :=
  if s.clk.gates.length < 8 || s.frozen 7 then s else
    let dev2 := (median2 (s.clk.gates.map Int.ofNat)).getD 0 - 8192
    let taps := truncDiv dev2 8
    let lim : Int := if settle then 8 else 1
    let step := clampI (-lim) lim taps
    if step == 0 then s
    else railOf { s with cal.d.trim := clampI (-128) 127 (s.cal.d.trim - step), clk.gates := [] }

/-- KEEPER_GATE, R91: a gate of 125 ms against a running crystal, which the tick runs from. Gates outside frames count
towards the next trim instant. -/
def execKeeperGate (count : Nat) (s : State) : Host.Outcome State Fault Refusal :=
  .next (if !s.clk.onKeeper && !s.clk.held then
      { wrote (regsFrom 0x2000 0x100) s with
               clk.lastGate := min 65535 count
               clk.gates := (s.clk.gates ++ [count]).drop ((s.clk.gates.length + 1) - 8)
               clk.gateCount := if s.framesRun then 0 else s.clk.gateCount + 1 }
    else s)

/-- KEEPER_TRIM, R91: every 16 gates while the crystal runs without frames. A change to the keeper at the same edge goes
first, and the trim then applies (R94). -/
def execKeeperTrim (s : State) : Host.Outcome State Fault Refusal :=
  .next (if !s.framesRun && 16 ≤ s.clk.gateCount then
      trimStep s.cal.fastOn { s with clk.gateCount := 0 }
    else s)

/-- CLOCK_MONITOR_WINDOW, R95: crystal-derived cycles over 128 keeper cycles, good from 120 to 136. -/
def execClockMonitorWindow (count : Nat) (s : State) : Host.Outcome State Fault Refusal :=
  .next (if !s.power.domCore then s
    else if 120 ≤ count && count ≤ 136 then
      { s with clk.goodRun := s.clk.goodRun + 1, clk.badRun := 0, clk.xtal := s.clk.xtal || 1 ≤ s.clk.goodRun }
    else { s with clk.goodRun := 0, clk.badRun := s.clk.badRun + 1 })

/-- The failure of R95: the spare oscillator clocks CORE, SENSE and the span link stop, the memory port falls to MEMCLK/8
in SDR, the timebase coasts on the keeper, and SAFE is entered as for a watchdog fault. -/
def xtalFailed (s : State) : State :=
  let s := toKeeper s
  let s := { s with
    clk.xtalFail := true
    clk.xtal := false
    clk.lock := false
    clk.spare := true
    clk.coasted := s.clk.coasted || s.clk.held
    clk.held := false
    clk.goodRun := 0
    clk.badRun := 0
    mem.div := 2
    span.lock := false }
  safeWdog (latchFault 4 s)

/-- XTAL_FAIL, R95: two bad windows of a running crystal, or the PLL out of lock for 10 us while it is meant to run. -/
def execXtalFail (pll : Bool) (s : State) : Host.Outcome State Fault Refusal :=
  .next (if s.clk.xtalFail then s
    else if (pll && s.clk.lock && !s.clk.coreStopped) || (s.clk.xtal && 2 ≤ s.clk.badRun) then xtalFailed s
    else s)

/-- XTAL_RESTART, R96: the crystal is started again and its windows count afresh. -/
def execXtalRestart (s : State) : Host.Outcome State Fault Refusal :=
  .next (if s.clk.xtalFail then { s with clk.goodRun := 0, clk.badRun := 0, clk.xtal := false } else s)

/-- Keeper cycles until the change of R90: the next keeper edge after 16 stable AONCLK cycles, counted from the lock (DESIGN
CHOICE, log 14). -/
def stableWait (s : State) : Nat := if s.clk.keepQ == 0 then 16 else 17

/-- The PLL has locked and CORE changes to CORECLK; the tick and AONCLK change to the crystal at a keeper edge, `w` keeper
cycles on (R90, R96). While CORECLK is stopped the PLL stays off. -/
def toCrystal (w : Nat) (s : State) : State :=
  { s with clk.lock := !s.clk.coreStopped, clk.spare := false, clk.held := false, chan.wake := false
           clk.toXtal := if s.clk.onKeeper then some w else none
           mem.div := if s.mem.profile.isSome then byteAt s.flashProfile 1 else s.mem.div }

/-- XTALFAIL_CLEAR, R96: 8 good windows in a row. Starts that a boot path left for a running crystal follow (R97). -/
def execXtalfailClear (s : State) : Host.Outcome State Fault Refusal :=
  .next (if s.clk.xtalFail && 8 ≤ s.clk.goodRun then
      let ds : List Deferred := s.rst.bootStarts.map (fun i => { port := (s.ctx i).owner, code := 0x15, payload := [b8 i, 0] })
      toCrystal 1 { s with clk.xtalFail := false, chan.deferred := s.chan.deferred ++ ds, rst.bootStarts := [] }
    else s)

/-- XTAL_START_FAIL, R97: 2 windows were not passed within 20 ms of a start, whether or not the PLL has locked; a failed
restart leaves XTALFAIL standing. -/
def execXtalStartFail (s : State) : Host.Outcome State Fault Refusal :=
  .next (if s.clk.xtal || s.clk.xtalFail || !s.power.domCore then s else xtalFailed s)

/-- CRYSTAL_LOCK, R90: after a wake the crystal runs and the PLL locks. The crystal counts as running once its windows have
passed (R95, R97). -/
def execCrystalLock (s : State) : Host.Outcome State Fault Refusal :=
  .next (if s.power.domCore && !s.clk.xtalFail then (if s.clk.spare then toCrystal (stableWait s) s else coreRuns s) else s)

end Sys2Proof.Machine
end

