-- ==== Sys2Proof/Machine/Numeric.lean ====
section
/-! DEFINITION. Sine, arctangent and logarithm in fixed point, and the sine tables of R108.
Conventions that the spec leaves open: log 20 (DESIGN CHOICE). -/

namespace Sys2Proof.Machine
open Sys2Proof

/-- Fixed-point one: 48 fractional bits. -/
def fxOne : Int := 2 ^ 48

/-- The Taylor series of sine from one term on. -/
def sinTerms : Nat → Int → Int → Nat → Int → Int
  | 0, _, _, _, acc => acc
  | k + 1, x2, t, i, acc =>
    let t' := -(t * x2 / fxOne) / ((2 * i + 2) * (2 * i + 3) : Int)
    sinTerms k x2 t' (i + 1) (acc + t)

/-- Sine of an angle from 0 to a quarter turn, in units of 2^-24 turn. -/
def sinQuarter (r : Int) : Int :=
  let x := r * 1768559438007110 / 2 ^ 24
  sinTerms 14 (x * x / fxOne) x 0 0

/-- Sine of an angle in units of 2^-24 turn, with 48 fractional bits. -/
def sinT (a : Int) : Int :=
  let a := a % 2 ^ 24
  let r := a % 2 ^ 22
  match (a / 2 ^ 22).toNat with
  | 0 => sinQuarter r
  | 1 => sinQuarter (2 ^ 22 - r)
  | 2 => -sinQuarter r
  | _ => -sinQuarter (2 ^ 22 - r)

/-- Cosine. -/
def cosT (a : Int) : Int := sinT (a + 2 ^ 22)

/-- The largest angle of the first quadrant whose tangent does not exceed y / x, by bits from `k` down. -/
def atanGo : Nat → Int → Int → Int → Int
  | 0, _, _, r => r
  | k + 1, y, x, r =>
    let r' := r + 2 ^ k
    atanGo k y x (if sinQuarter r' * x ≤ sinQuarter (2 ^ 22 - r') * y then r' else r)

/-- atan2 in units of 2^-24 turn, from -2^23 to 2^23 - 1; 0 for the origin. -/
def atan2T (y x : Int) : Int :=
  if x == 0 && y == 0 then 0
  else
    let q := if y == 0 then 0 else if x == 0 then 2 ^ 22 else atanGo 22 (absN y) (absN x) 0
    if 0 ≤ x then (if 0 ≤ y then q else -q) else (if 0 ≤ y then 2 ^ 23 - q else q - 2 ^ 23)

/-- The series of the inverse hyperbolic tangent. -/
def atanhTerms : Nat → Int → Int → Nat → Int → Int
  | 0, _, _, _, acc => acc
  | k + 1, z2, t, i, acc => atanhTerms k z2 (t * z2 / fxOne) (i + 1) (acc + t / (2 * i + 1 : Int))

/-- Natural logarithm of a / b for positive a and b, with 48 fractional bits. -/
def lnRatio (a b : Nat) : Int :=
  let la := Nat.log2 a
  let lb := Nat.log2 b
  let z := fxOne * ((a * 2 ^ lb : Nat) - (b * 2 ^ la : Nat) : Int) / ((a * 2 ^ lb + b * 2 ^ la : Nat) : Int)
  195103586505167 * ((la : Int) - lb) + 2 * atanhTerms 30 (z * z / fxOne) z 0 0

/-- itab of R108 at a 10-bit phase. -/
def itabAt (p : Nat) : Int := roundDiv (2047 * sinT (p * 2 ^ 14)) (2 ^ 48)

/-- qtab of R108 at a 10-bit phase. -/
def qtabAt (p : Nat) : Int := roundDiv (-2047 * cosT (p * 2 ^ 14)) (2 ^ 48)

/-- The tables of R108. -/
def itab : List Int := (List.range 1024).map itabAt
def qtab : List Int := (List.range 1024).map qtabAt

/-- Temperature in 0.1 degrees from x of 16 bits, R143, limited to -55.0 to +150.0. -/
def thermTemp (x beta : Nat) : Int :=
  let inv : Int := 2 ^ 48 * 100 / 29815 + lnRatio x (65536 - x) / (beta : Int)
  if inv ≤ 0 then 1500
  else clampI (-550) 1500 (roundDiv (20 * 2 ^ 48 - 5463 * inv) (2 * inv).toNat)

end Sys2Proof.Machine
end

