-- ==== Sys2Proof/Machine/FrontEnd.lean ====
section
/-! DEFINITION. The front end: profiles, code book, autoranging, demodulation, charge decode, census and tone choice
(R100-R121, R128-R131).
Conventions that the spec leaves open: log 19, log 20 (DESIGN CHOICE). -/

namespace Sys2Proof.Machine
open Sys2Proof

/-! ### The profile record, R124, R157 -/

abbrev Profile := List Byte

def Profile.flag (p : Profile) (i : Nat) : Bool := bit (byteAt p 0) i
def Profile.cyc (p : Profile) : Nat := byteAt p 1
def Profile.bcyc (p : Profile) : Nat := byteAt p 2
def Profile.toneIdx (p : Profile) : Nat := byteAt p 3
def Profile.sbase (p : Profile) : Nat := byteAt p 4
def Profile.lead (p : Profile) : Nat := byteAt p 5
def Profile.mrep (p : Profile) : Nat := byteAt p 6
def Profile.dshift (p : Profile) : Nat := byteAt p 7
def Profile.lwin (p : Profile) : Nat := leAt p 8 2
def Profile.cper (p : Profile) : Nat := byteAt p 18
def Profile.clead (p : Profile) : Nat := byteAt p 19
def Profile.cncyc (p : Profile) : Nat := leAt p 20 2
def Profile.cvpp (p : Profile) : Nat := byteAt p 22
def Profile.cshift (p : Profile) : Nat := byteAt p 23

/-- Two bits of a guard byte for guard `g`. -/
def guardField (b g : Nat) : Nat := bits b (2 * g) 2

/-- The ranges of R124 and R157, and reserved bits and bytes zero (R7, R119). -/
def Profile.inRange (p : Profile) : Bool :=
  let f := byteAt p 0
  let dual := bit f 3
  let g (b : Nat) (bad : Nat) : Bool := (List.range 4).all (fun i => guardField b i != bad)
  p.length == 32 && f < 32 && 1 ≤ p.cyc && p.cyc ≤ 16 &&
  (if dual then 2 * p.cyc ≤ p.bcyc && p.bcyc ≤ 64 else p.bcyc == 0) && p.toneIdx ≤ 31 &&
  16 ≤ p.sbase && p.sbase ≤ 224 && 1 ≤ p.lead && p.lead ≤ 4 && (p.mrep == 1 || p.mrep == 2 || p.mrep == 4) &&
  12 ≤ p.dshift && p.dshift ≤ 24 && 192 ≤ p.lwin && p.lwin ≤ 4092 && p.lwin % 2 == 0 &&
  4 ≤ byteAt p 10 && byteAt p 10 ≤ 40 &&
  (if dual then 1 ≤ byteAt p 11 && byteAt p 11 ≤ 32 else byteAt p 11 == 0) && byteAt p 10 + byteAt p 11 ≤ 40 &&
  byteAt p 12 ≤ 15 && 6 ≤ byteAt p 13 && byteAt p 13 ≤ 30 && 1 ≤ byteAt p 14 && byteAt p 14 ≤ 12 && byteAt p 15 ≤ 4 &&
  leAt p 16 2 == 0 && 8 ≤ p.cper && p.cper ≤ 64 && 1 ≤ p.clead && p.clead ≤ 4 && 16 ≤ p.cncyc && p.cncyc ≤ 1024 &&
  1 ≤ p.cvpp && p.cvpp ≤ 10 && 16 ≤ p.cshift && p.cshift ≤ 28 && g (byteAt p 24) 3 && g (byteAt p 25) 2 &&
  g (byteAt p 26) 3 && byteAt p 27 ≤ 1 && leAt p 28 4 == 0

/-- LISTEN, MUTUAL and CHARGE lengths in samples, 0 for a slot the profile disables (R109, R129). -/
def Profile.listenLen (p : Profile) : Nat := if p.flag 0 then 12 + p.lwin else 0
def Profile.mutualLen (p : Profile) (s : Nat) : Nat := if p.flag 1 then 12 + (p.lead + 64 * p.mrep) * s else 0
def Profile.chargeLen (p : Profile) : Nat := if p.flag 2 then 12 + (p.clead + p.cncyc) * p.cper else 0

/-- Both tones of a step of `s` samples lie within 40 kHz to 480 kHz (R100, R110). -/
def Profile.tonesOk (p : Profile) (s : Nat) : Bool :=
  let ok (c : Nat) : Bool := 40000 * s ≤ c * 1536000 && c * 1536000 ≤ 480000 * s
  ok p.cyc && (!p.flag 3 || ok p.bcyc)

/-- The bound 0.48 P of a set at its reference rate, in samples (R110). -/
def fitBound : Nat → Nat
  | 0 => 6144
  | 1 => 3072
  | _ => 36864

/-- Whether the sensing of a step of `s` samples fits a set. -/
def Profile.fitsAt (p : Profile) (set s : Nat) : Bool :=
  p.listenLen + p.mutualLen s + p.chargeLen ≤ fitBound set && p.tonesOk s

/-- Whether a profile fits a set, R110. -/
def Profile.fits (p : Profile) (set : Nat) : Bool := p.fitsAt set (p.sbase + p.toneIdx)

/-- The set a rate code uses, R110. -/
def setOf (rate : Nat) : Nat := if rate == 6 then 1 else if rate == 2 then 2 else 0

/-- Whether a bin is eligible, R110, R441: its tones satisfy R100, in a span also on a tile of colour 3. -/
def eligible (s : State) (set : Nat) (p : Profile) (i : Nat) : Bool :=
  i < 32 && p.tonesOk (p.sbase + i) && p.fitsAt set (p.sbase + i + if s.inSpan then 3 else 0) && !getBit s.fc.censelOn i

/-- The record in effect for the set in use. -/
def State.prof (s : State) : Profile := s.fe.applied.getD s.fe.inUse []

/-- The present bin. -/
def State.bin (s : State) : Nat := s.fe.bins.getD s.fe.inUse 8

/-- Tone B runs: the profile asks for it and DUALTONE is accepted (R119). -/
def State.dual (s : State) : Bool := s.prof.flag 3 && s.feat 0

/-- Samples per code step, with the colour of the tile (R100, R440). -/
def State.stepLen (s : State) : Nat := s.prof.sbase + s.bin + s.span.colour

/-- The present tuning word of tone B, 0 when it is off. -/
def State.ftwB (s : State) : Nat := if s.dual then s.fe.wordB else 0

/-- The tuning word of `c` cycles in a step of `s` samples, R101. -/
def ftw (c s : Nat) : Nat := (2 * (c * 2 ^ 27) + s) / (2 * s)

/-! ### The code book, R103, R440 -/

/-- Reverses six bits. -/
def rev6 (v : Nat) : Nat := (List.range 6).foldl (fun a i => 2 * a + bits v i 1) 0

/-- Whether the code of line `t` is negative at step `k`, on a tile of a colour. -/
def codeNeg (colour t k : Nat) : Bool :=
  let u := rev6 (t ^^^ (t / 2))
  let w := popN 6 (u &&& k)
  let p := popN 3 ((u / 8) &&& (u % 8))
  (w + p + popN 6 ((21 * colour) &&& k)) % 2 == 1

/-! ### Autoranging, R106, R107 -/

/-- A channel within a slot. -/
structure Ranging where
  g : Nat
  down : Nat
  up : Nat
  skip : Bool
  prev : Int
  low : Nat
  changed : Bool
  clipped : Bool
  deriving DecidableEq, Repr

/-- One conversion: the normalised sample it yields, and the channel after it. A conversion that the rule replaces is neither
clipped nor counted in the runs, and the runs start at 0 in every slot (DESIGN CHOICE, log 20). -/
def rangeStep (fix : Bool) (c : Ranging) (x : Int) : Int × Ranging :=
  let v := if c.skip then c.prev else x * 4 ^ (3 - c.g)
  let a := absN x
  let c := { c with prev := v, low := min c.low c.g, clipped := c.clipped || (!c.skip && 8191 ≤ a && (c.g == 0 || fix)) }
  if fix || c.skip then (v, { c with skip := false })
  else
    let d := if 7168 < a then c.down + 1 else 0
    let u := if a < 2048 then c.up + 1 else 0
    if 2 ≤ d && 0 < c.g then (v, { c with g := c.g - 1, down := 0, up := 0, skip := true, changed := true })
    else if 16 ≤ u && c.g < 3 then (v, { c with g := c.g + 1, down := 0, up := 0, skip := true, changed := true })
    else (v, { c with down := d, up := u })

/-- All conversions of a channel in a slot. -/
def rangeRun (fix : Bool) : Ranging → List Int → List Int × Ranging
  | c, [] => ([], c)
  | c, x :: xs =>
    let (v, c) := rangeStep fix c x
    let (vs, c) := rangeRun fix c xs
    (v :: vs, c)

/-- A channel at the start of a slot. -/
def Ranging.start (g : Nat) : Ranging :=
  { g := g, down := 0, up := 0, skip := false, prev := 0, low := g, changed := false, clipped := false }

/-- The normalised samples of every channel, cut or padded with 0 to a slot's length. -/
def ranged (fix : Bool) (gs : List Nat) (n : Nat) (xs : List (List Int)) : List (List Int × Ranging) :=
  (List.range gs.length).map (fun r =>
    let x := (xs.getD r []).take n
    rangeRun fix (.start (gs.getD r 0)) (x ++ List.replicate (n - x.length) 0))

/-! ### Demodulation, R108, R130 -/

/-- Sums of products with a sine table at phases that a function gives. -/
def correlate (tab : Array Int) (ph : Nat → Nat) : Nat → Int → List Int → Int
  | _, acc, [] => acc
  | n, acc, x :: xs => correlate tab ph (n + 1) (acc + x * tab.getD (ph n) 0) xs

/-- The tables as arrays. -/
def itabA : Array Int := itab.toArray
def qtabA : Array Int := qtab.toArray

/-- The 10-bit phase at sample `j` of a step, R101, R108. -/
def phaseAt (f phi j : Nat) : Nat := (f * 32 * j + 2 ^ 32 - phi % 2 ^ 32) % 2 ^ 32 / 2 ^ 22

/-- The samples of code step `k` of repeat `r`. -/
def stepSlice (s : Nat) (xs : List Int) (r k : Nat) : List Int := (xs.drop ((r * 64 + k) * s)).take s

/-- One channel's sums per code step. -/
def stepSums (tab : Array Int) (f phi s mrep : Nat) (xs : List Int) : List Int :=
  (List.range 64).map (fun k =>
    sumI ((List.range mrep).map (fun r => correlate tab (phaseAt f phi) 0 0 (stepSlice s xs r k))))

/-- The decode of one line, with its rounding and saturation; the flag says that it saturated. -/
def decodeLine (colour sh : Nat) (sums : List Int) (t : Nat) : Int × Bool :=
  let v := sumI ((List.range 64).map (fun k => if codeNeg colour t k then -(sums.getD k 0) else sums.getD k 0))
  let w := sar (v + 2 ^ (sh - 1)) sh
  (sat16 w, sat16 w != w)

/-- A list of `m` lists of `n` as one list, element i * n + j from list j. -/
def interleave (n m : Nat) (xs : List (List Int)) : List Int :=
  (List.range m).flatMap (fun i => (List.range n).map (fun j => (xs.getD j []).getD i 0))

/-- The base-2 logarithm of the code repeats. -/
def log2rep (m : Nat) : Nat := if m == 4 then 2 else if m == 2 then 1 else 0

/-- The charge decode of one line, R130. -/
def chargeLine (p : Profile) (xs : List Int) : Int × Int × Bool :=
  let ys := (xs.drop (p.clead * p.cper)).take (p.cncyc * p.cper)
  let ph (n : Nat) : Nat := 1024 * (n % p.cper) / p.cper
  let f (tab : Array Int) : Int := sar (correlate tab ph 0 0 ys + 2 ^ (p.cshift - 1)) p.cshift
  let i := f itabA
  let q := f qtabA
  (sat16 i, sat16 q, sat16 i != i || sat16 q != q)

/-! ### The census, R112-R114 -/

/-- Channels left out of the census medians: clipping throughout, or a pin treated as open. -/
def chanOut (s : State) (r : Nat) : Bool :=
  getBit s.fc.clip r || getBit s.clamp.opened (64 + r) || getBit s.clamp.opened (104 + r)

/-- A magnitude over a window of `n` samples, with 8 fractional bits. -/
def censusMag (f n : Nat) (xs : List Int) : Nat :=
  let i := absN (correlate itabA (phaseAt f 0) 0 0 xs)
  let q := absN (correlate qtabA (phaseAt f 0) 0 0 xs)
  min (0xFFFF * 256) (isqrt (i * i + q * q) * 256 / (65504 * n))

/-- Twice the median over the channels of the stored magnitudes. -/
def medianOver (ms : List Nat) : Nat := ((median2 (ms.map (fun m => ((m / 256 : Nat) : Int)))).getD 0).toNat

/-- One bin: NA, NB, and whether its sample is rejected (R112, R113). -/
def censusBin (p : Profile) (dual : Bool) (colour : Nat) (xs : List (List Int)) (i : Nat) : Nat × Nat × Bool :=
  let s := p.sbase + i + colour
  let n := p.lwin
  let tone (c : Nat) : Nat × Bool :=
    let f := ftw c s
    let full := medianOver (xs.map (censusMag f n))
    let h1 := medianOver (xs.map (fun x => censusMag f (n / 2) (x.take (n / 2))))
    let h2 := medianOver (xs.map (fun x =>
      let y := x.drop (n / 2)
      let i := absN (correlate itabA (fun j => phaseAt f 0 (j + n / 2)) 0 0 y)
      let q := absN (correlate qtabA (fun j => phaseAt f 0 (j + n / 2)) 0 0 y)
      min (0xFFFF * 256) (isqrt (i * i + q * q) * 256 / (65504 * (n / 2)))))
    (full / 2, 32 ≤ max h1 h2 && 4 * min h1 h2 < max h1 h2)
  let (na, ra) := tone p.cyc
  let (nb, rb) := if dual then tone p.bcyc else (0, false)
  (na, nb, ra || rb)

/-- `a` times 10^(db/20) does not exceed `b`. -/
def withinDb (db a b : Nat) : Bool := a ^ 20 * 10 ^ db ≤ b ^ 20

/-- Twice the reference of the present bin, R114. Where an epoch has completed but held no accepted score of this bin, it is
the median of the scores so far of the present epoch (DESIGN CHOICE, log 20). -/
def censusRef (s : State) : Option Nat :=
  let so_far := (median2 ((s.census.acc.getD s.bin []).map Int.ofNat)).map Int.toNat
  if s.census.epochDone then
    match s.census.refs.getD s.bin none with
    | some r => some r
    | none => so_far
  else so_far

/-- The best bin among those a test accepts: the least score, the lowest bin among equals. -/
def bestBin (ok : Nat → Bool) (score : Nat → Nat) : Option Nat :=
  (filterIdx 32 ok).foldl (fun b i => match b with
    | none => some i
    | some j => if score i < score j then some i else some j) none

/-- Decides a move to a bin, within the limit of the epoch (R114). A move counts in the epoch that decides it (DEDUCED from
R114's "a move decided at the end of an epoch is a move of that epoch", log 20). -/
def decideMove (urgent : Bool) (i : Nat) (s : State) : State :=
  if s.fe.hops < byteAt s.prof 15 then
    { s with census.move := some i, census.moveUrgent := urgent, census.urgent := 0, fe.hops := s.fe.hops + 1 }
  else { s with fe.hopHeld := true }

/-- The frame belongs to an epoch after the one whose end is still to come (R188). -/
def State.pastEpoch (s : State) : Bool :=
  match s.cal.endDone with
  | some e => s.frame.n / 256 % 2 ^ 24 != e % 2 ^ 24
  | none => false

/-- The urgent move of R114: 4 consecutive loud accepted samples. The part moves itself only alone or on an island, or
as the leader of a span (R115). -/
def urgentMove (s : State) : State :=
  if s.census.urgent < 4 || !s.prof.flag 4 || s.span.role == 3 || s.census.move.isSome || getBit s.census.rejNow s.bin then s
  else
    let now (i : Nat) : Nat := s.census.scores.getD i 0
    let ok (i : Nat) : Bool :=
      i != s.bin && eligible s s.fe.inUse s.prof i && !getBit s.census.rejNow i &&
        !getBit (if s.pastEpoch then s.census.rejNext else s.census.rejEpoch) i
    match bestBin ok now with
    | some i =>
      if withinDb (byteAt s.prof 14) (now i) (now s.bin) then decideMove true i { s with fe.noQuiet := false }
      else { s with fe.noQuiet := true }
    | none => { s with fe.noQuiet := true }

/-- The epoch move of R114, and the references that the ended epoch leaves; samples of later frames begin the next epoch. A
HOPHELD that this very move sets stays through the epoch that begins (DESIGN CHOICE, log 20). -/
def epochMove (s : State) : State :=
  let meds := s.census.acc.map (fun xs => (median2 (xs.map Int.ofNat)).map Int.toNat)
  let med (i : Nat) : Nat := (meds.getD i none).getD 0
  let ok (i : Nat) : Bool :=
    i != s.bin && eligible s s.fe.inUse s.prof i && !getBit s.census.rejEpoch i && (meds.getD i none).isSome
  let s := { s with fe.hopHeld := false }
  let s :=
    if !s.prof.flag 4 || s.span.role == 3 || s.census.move.isSome || (meds.getD s.bin none).isNone then s
    else match bestBin ok med with
      | some i => if withinDb (byteAt s.prof 14) (med i) (med s.bin) then decideMove false i s else s
      | none => s
  { s with census.refs := meds, census.epochDone := true, census.acc := s.census.accNext, census.rejEpoch := s.census.rejNext,
           census.accNext := List.replicate 32 [], census.rejNext := 0, fe.hops := 0 }

/-- URGENT_MOVE, R114. -/
def execUrgentMove (s : State) : Host.Outcome State Fault Refusal := .next (urgentMove s)

/-! ### The slots -/

/-- Every element of a list changed at once by index. -/
def tabulate {α : Type} (n : Nat) (f : Nat → α) : List α := (List.range n).map f

/-- The scores of a frame enter the lists of an epoch, but for the rejected ones (R113). -/
def addScores (rej : BitVec 32) (scores : List Nat) (acc : List (List Nat)) : List (List Nat) :=
  tabulate 32 (fun i =>
    let a := acc.getD i []
    if getBit rej i then a else a ++ [scores.getD i 0])

/-- The samples of a LISTEN slot enter their epoch and the count toward an urgent move (R113, R114). The score that is judged
is not part of the reference it is judged by (DESIGN CHOICE, log 20). -/
def censusCount (s : State) : State :=
  let rej := s.census.rejNow
  let accepted := !getBit rej s.bin
  let loud : Bool := match censusRef s with
    | some r => r ^ 20 * 10 ^ byteAt s.prof 13 ≤ (2 * s.census.scores.getD s.bin 0) ^ 20
    | none => false
  let t := if s.pastEpoch then
      { s with census.rejNext := s.census.rejNext ||| rej, census.accNext := addScores rej s.census.scores s.census.accNext }
    else
      { s with census.rejEpoch := s.census.rejEpoch ||| rej, census.acc := addScores rej s.census.scores s.census.acc }
  { t with
    census.urgent := if !accepted then s.census.urgent else if loud then s.census.urgent + 1 else 0
    fe.noQuiet := s.fe.noQuiet && (!accepted || loud) }

/-- LISTEN, R112, R113: the census, the magnitudes for the noise unit, the ranges. -/
def slotListen (x : Sense) (s : State) : State :=
  let p := s.prof
  if !p.flag 0 then { s with planes.write.listen := false, fe.llen := p.listenLen }
  else
    let gs := s.fc.rngL.map (fun g => if s.fc.fixOn then s.fc.fixGOn else g)
    let rs := ranged s.fc.fixOn gs p.lwin x.listen
    let vs := rs.map (·.1)
    let used := (filterIdx 40 (fun r => !chanOut s r)).map (fun r => vs.getD r [])
    let bs := tabulate 32 (censusBin p s.dual s.span.colour used)
    let rej := maskOf 32 (fun i => (bs.getD i (0, 0, false)).2.2)
    let na := bs.map (fun b => min 65535 b.1)
    let nb := bs.map (fun b => min 65535 b.2.1)
    let fa := ftw p.cyc s.stepLen
    let fb := ftw p.bcyc s.stepLen
    let s := { s with
      fc.rngL := rs.map (·.2.g)
      planes.write.listen := true
      planes.write.censusA := na
      planes.write.censusB := nb
      planes.write.rejected := getBit rej s.bin
      planes.write.rejMask := rej
      planes.write.magA := vs.map (censusMag fa p.lwin)
      planes.write.magB := if s.dual then vs.map (censusMag fb p.lwin) else List.replicate 40 0
      planes.write.range := tabulate 144 (fun i =>
        let old := s.planes.write.range.getD i 0
        if i < 40 then old % 64 + 64 * (rs.getD i ([], .start 0)).2.g else old)
      census.scores := tabulate 32 (fun i => max (na.getD i 0) (nb.getD i 0))
      census.rejNow := rej
      fe.crej := satAdd 65535 s.fe.crej (popN 32 rej.toNat)
      fe.llen := p.listenLen }
    if s.span.role == 2 then s else censusCount s

/-- MUTUAL, R104, R108: the lead-in ranges the channels and is discarded; drive, demodulation and decode into the write bank. A silent slot leaves an invalid image (R102). -/
def slotMutual (x : Sense) (s : State) : State :=
  let p := s.prof
  if !p.flag 1 then { s with planes.write.mutualOn := false, fe.run := false, fe.mlen := 0 }
  else
    let silent := s.fe.appA + s.fe.appB == 0
    let len := s.stepLen
    let n := 64 * p.mrep * len
    let gs := s.fc.rngM.map (fun g => if s.fc.fixOn then s.fc.fixGOn else g)
    let rs := (ranged s.fc.fixOn gs (p.lead * len + n) x.mutualS).map (fun (v, c) => (v.drop (p.lead * len), c))
    let sh := p.dshift + log2rep p.mrep
    let fa := ftw p.cyc len
    let fb := ftw p.bcyc len
    let dual := s.dual && 0 < s.fe.appB
    let chan (f : Nat) (taps : List Nat) (tab : Array Int) : List (List (Int × Bool)) :=
      tabulate 40 (fun r =>
        let sums := stepSums tab f (taps.getD r 0 * 2 ^ 24) len p.mrep (rs.getD r ([], .start 0)).1
        tabulate 64 (decodeLine s.span.colour sh sums))
    let ia := chan fa s.cal.d.tapA itabA
    let qa := chan fa s.cal.d.tapA qtabA
    let ib := if dual then chan fb s.cal.d.tapB itabA else []
    let qb := if dual then chan fb s.cal.d.tapB qtabA else []
    let vals (m : List (List (Int × Bool))) : List Int := interleave 40 64 (m.map (·.map (·.1)))
    let satd (r : Nat) : Bool :=
      [ia, qa, ib, qb].any (fun m => (m.getD r []).any (·.2)) || (rs.getD r ([], .start 0)).2.clipped
    let z := List.replicate 2560 (0 : Int)
    { s with
      fc.rngM := rs.map (·.2.g)
      fc.txRuns := tabulate 64 (fun t => if getBit x.txLimit t && !silent then s.fc.txRuns.getD t 0 + 1 else 0)
      fc.clipRuns := tabulate 40 (fun r =>
        let c := (rs.getD r ([], .start 0)).2
        if c.clipped && c.g == 0 then s.fc.clipRuns.getD r 0 + 1 else 0)
      planes.write.mutualOn := true
      planes.write.minv := silent
      planes.write.ia := if silent then z else vals ia
      planes.write.qa := if silent then z else vals qa
      planes.write.ib := if silent || !dual then z else vals ib
      planes.write.qb := if silent || !dual then z else vals qb
      planes.write.range := tabulate 144 (fun i =>
        let old := s.planes.write.range.getD i 0
        if i < 40 then
          let c := (rs.getD i ([], .start 0)).2
          old / 64 * 64 + pack [(2, c.g), (2, c.low), (1, flag c.changed), (1, flag (satd i))]
        else old)
      planes.write.appA := s.fe.appA
      planes.write.appB := if dual then s.fe.appB else 0
      fe.run := true
      fe.minv := silent
      fe.toneS := len
      fe.toneCyc := p.cyc
      fe.toneBcyc := if s.dual then p.bcyc else 0
      fe.toneBin := s.bin
      fe.ftwA := fa
      fe.ftwB := if s.dual then fb else s.fe.ftwB
      fe.mutA := s.fe.appA
      fe.mutB := s.fe.appB
      fe.mlen := p.mutualLen len }

/-- The clamp index of a line's pins: a transmit line has one, a receive line has RXn and RGn (R131, R135). -/
def linePins (l : Nat) : List Nat := if l < 64 then [l] else [l, l + 40]

/-- Whether a line is treated as open or its amplifier is held in reset (R131, R151). -/
def lineOpen (s : State) (l : Nat) : Bool :=
  (linePins l).any (getBit s.clamp.opened) || (64 ≤ l && getBit s.fc.clip (l - 64))

/-- What a source code gives a guard, and whether the output is limited to VHV - 2 V (R132, R133); `vhv` is in 10 mV. -/
def guardDrive (p : Profile) (vhv : Nat) (s : State) (src g : Nat) : Drive × Bool :=
  let tap := s.cal.d.gsc.getD g 64
  let top := 640 * (vhv - 200)
  let cut (amp : Nat) : Nat × Bool := (min amp top, top < amp)
  if s.chg.goff.getD g false then (.highZ, false)
  else match src with
    | 0 => (.highZ, false)
    | 1 => (.level (guardField (byteAt p 26) g), false)
    | 2 => let (a, c) := cut (500 * s.fe.appA * tap); (.toneA a, c)
    | _ => let (a, c) := cut (250 * p.cvpp * tap); (.copy a, c)

/-- The guards and the companions of a frame or a sweep, whose slots `mu` and `charge` name (R132-R134, R161). A guard
with a source carries its fixed level in LISTEN and between slots. -/
def applyGuards (p : Profile) (vhv : Nat) (mu charge : Bool) (s : State) : State :=
  let off (g : Nat) : Bool := s.chg.goff.getD g false
  let ms := tabulate 4 (fun g => if off g then 0 else guardField (byteAt p 24) g)
  let cs := tabulate 4 (fun g => if off g then 0 else guardField (byteAt p 25) g)
  let idle := tabulate 4 (fun g => if ms.getD g 0 == 0 && cs.getD g 0 == 0 then Drive.highZ
    else .level (guardField (byteAt p 26) g))
  let m := tabulate 4 (fun g => guardDrive p vhv s (ms.getD g 0) g)
  let c := tabulate 4 (fun g => guardDrive p vhv s (cs.getD g 0) g)
  { s with
    chg.level := tabulate 4 (guardField (byteAt p 26))
    chg.csrc := cs
    chg.msrc := ms
    chg.gclip := tabulate 4 (fun g => (mu && (m.getD g (.highZ, false)).2) || (charge && (c.getD g (.highZ, false)).2))
    chg.gdIdle := idle
    chg.gdMutual := if mu then m.map (·.1) else idle
    chg.gdCharge := if charge then c.map (·.1) else idle
    chg.rgMutual := if byteAt p 12 == 0 then .level 1 else .input
    chg.rgCharge := if byteAt p 27 == 1 then .copy (250 * p.cvpp * s.cal.d.rsc) else .level 1 }

/-- A frame without a CHARGE slot; open lines show as open (R151). -/
def noCharge (s : State) : State :=
  { s with
    planes.write.charge := false
    planes.write.range := tabulate 144 (fun i =>
      if i < 40 then s.planes.write.range.getD i 0 else 64 * flag (lineOpen s (i - 40)))
    chg.run := false }

/-- CHARGE, R128-R131, under the charge fields of a profile. -/
def slotCharge (p : Profile) (samples : List (List Int)) (s : State) : State :=
  let n := (p.clead + p.cncyc) * p.cper
  let rs := ranged false s.fc.rngC n samples
  let es := tabulate 104 (fun l =>
    if lineOpen s l then ((0 : Int), (0 : Int), false) else chargeLine p (rs.getD l ([], .start 0)).1)
  let e (l : Nat) : Int × Int × Bool := es.getD l (0, 0, false)
  { s with
    fc.rngC := rs.map (·.2.g)
    planes.write.charge := true
    planes.write.stxI := tabulate 64 (fun l => (e l).1)
    planes.write.stxQ := tabulate 64 (fun l => (e l).2.1)
    planes.write.srxI := tabulate 40 (fun l => (e (64 + l)).1)
    planes.write.srxQ := tabulate 40 (fun l => (e (64 + l)).2.1)
    planes.write.range := tabulate 144 (fun i =>
      if i < 40 then s.planes.write.range.getD i 0
      else
        let l := i - 40
        let c := (rs.getD l ([], .start 0)).2
        pack [(2, c.g), (2, c.low), (1, flag c.changed), (1, flag (c.clipped || (e l).2.2)),
              (1, flag (lineOpen s l)), (1, 0)])
    chg.clen := 12 + n
    chg.cper := p.cper
    chg.cvpp := p.cvpp
    chg.run := true }

/-! ### Line failures, R121 -/

/-- TX_LINE_OFF: a line at its current limit in 16 consecutive MUTUAL slots. -/
def execTxLineOff (line : Nat) (s : State) : Host.Outcome State Fault Refusal :=
  .next (if line < 64 && 16 ≤ s.fc.txRuns.getD line 0 && !getBit s.fc.txoff line then
      latchFault 5 { s with fc.txoff := setBit s.fc.txoff line true, fc.txRuns := s.fc.txRuns.set line 0 }
    else s)

/-- A thermistor pin treated as open: its input, or with THREF every enabled one, reads +150.0 degrees (R151). -/
def State.openSensor (s : State) (k : Nat) : State :=
  { s with therm.inputs := s.therm.inputs.mapIdx (fun i t => if t.en && (k == 4 || k == i) then { t with temp := 1500 } else t) }

/-- Treats a pin as open: flags, guard off, bridge unexcited, record, fault (R151). -/
def openPin (pin : Nat) (s : State) : State :=
  let s := { s with clamp.opened := setBit s.clamp.opened pin true, clamp.restore := setBit s.clamp.restore pin false }
  let s := if 144 ≤ pin && pin < 148 then
      { s with chg.goff := s.chg.goff.set (pin - 144) true
               chg.csrc := s.chg.csrc.set (pin - 144) 0
               chg.msrc := s.chg.msrc.set (pin - 144) 0 }
    else s
  let s := if 172 ≤ pin then s.openSensor (pin - 172) else s
  let s := if 148 ≤ pin && pin < 172 then
      let n := (pin - 148) / 6
      exciteOff n (withdraw 4 (exciteWho n) (releaseGrant 4 (exciteWho n) s))
    else s
  latchFault 5 (clampRec 0x02 pin (s.clamp.counters.getD pin 0) s)

/-- CHANNEL_CLIP: a channel clipped at x1 in every MUTUAL slot for 1 s. -/
def execChannelClip (ch : Nat) (s : State) : Host.Outcome State Fault Refusal :=
  .next (if ch < 40 && 1 ≤ s.fc.clipRuns.getD ch 0 && !getBit s.fc.clip ch then
      openPin (64 + ch) { s with fc.clip := setBit s.fc.clip ch true }
    else s)

end Sys2Proof.Machine
end

