-- ==== Sys2Proof/Machine/Charge.lean ====
section
/-! DEFINITION. Clamps and open pins, the force bridges and the FORCE latch, and the thermistors (R135-R144, R150-R162,
R491).
Conventions that the spec leaves open: log 14 (DESIGN CHOICE), log 24 (DEDUCED). -/

namespace Sys2Proof.Machine
open Sys2Proof

/-! ### Clamps -/

/-- Ticks from `a` to `b` on the 48-bit timebase. -/
def ticksSince (a b : Nat) : Nat := (b + 2 ^ 48 - a % 2 ^ 48) % 2 ^ 48

/-- Whether an instant lies at least `d` ticks back; one that never was does. -/
def atLeastSince (d : Nat) (t : Option Nat) (now : Nat) : Bool :=
  match t with
  | none => true
  | some t => d ≤ ticksSince t now

/-- CLAMP, R136, R137: the latched flag, a clamp event after 1 ms without clamping or at the monitor's start, a record for
the first event after 1 s without one. The present clamping of the pin began with the first clamp after 1 ms of monitoring
without one (R151). -/
def execClamp (pin : Nat) (s : State) : Host.Outcome State Fault Refusal :=
  .next (if pin < 177 && s.monitor then
      let now := s.clk.tb
      let c := s.clamp
      let unseen : Bool := match c.lastClamp.getD pin none with
        | none => true
        | some t => ticksSince c.since now < ticksSince t now
      let ev := unseen || atLeastSince 1024 (c.lastClamp.getD pin none) now
      let m := s.monitored
      let goesOn : Bool := match c.runLast.getD pin none with
        | some t => m < t + 1024
        | none => false
      let first := ev && atLeastSince 1024000 (c.lastEvent.getD pin none) now
      let n := if ev then satAdd 255 (c.counters.getD pin 0) 1 else c.counters.getD pin 0
      let s := { s with clamp := { c with
        flags := setBit c.flags pin true
        inFrame := setBit c.inFrame pin true
        restore := setBit c.restore pin false
        counters := c.counters.set pin n
        lastClamp := c.lastClamp.set pin (some now)
        runLast := c.runLast.set pin (some m)
        runAt := if goesOn then c.runAt else c.runAt.set pin (some m)
        lastEvent := if ev then c.lastEvent.set pin (some now) else c.lastEvent } }
      if first then clampRec 0x01 pin n s else s
    else s)

/-- The present clamping of a pin has lasted for 1 000 intervals of 1 ms of monitoring (R151). -/
def State.clampedLong (s : State) (pin : Nat) : Bool :=
  match s.clamp.runAt.getD pin none with
  | some t => t + 1024000 ≤ s.monitored
  | none => false

/-- PIN_OPEN, R151: the pin has clamped in 1 000 consecutive intervals of monitoring. That the clamping still goes on is what
the row says. -/
def execPinOpen (pin : Nat) (s : State) : Host.Outcome State Fault Refusal :=
  .next (if pin < 177 && s.monitor && s.clampedLong pin && !getBit s.clamp.opened pin then openPin pin s else s)

/-- A thermistor pin treated as open no longer: its input, or every enabled one, reads its own temperature again, unless
FAIL or another open pin holds it. -/
def State.closeSensor (s : State) (k : Nat) : State :=
  { s with therm.inputs := s.therm.inputs.mapIdx (fun i t =>
    if t.en && (k == 4 || k == i) && !t.fail && !getBit s.clamp.opened (172 + i) && !getBit s.clamp.opened 176 then
      { t with temp := t.own }
    else t) }

/-- A pin is treated as open no longer. -/
def restorePin (pin : Nat) (s : State) : State :=
  let s := { s with clamp.opened := setBit s.clamp.opened pin false, clamp.restore := setBit s.clamp.restore pin false,
                    clamp.runAt := s.clamp.runAt.set pin none, clamp.runLast := s.clamp.runLast.set pin none }
  let s := if 144 ≤ pin && pin < 148 then { s with chg.goff := s.chg.goff.set (pin - 144) false } else s
  let s := if 172 ≤ pin then s.closeSensor (pin - 172) else s
  let s := clampRec 0x03 pin (s.clamp.counters.getD pin 0) s
  if 148 ≤ pin && pin < 172 then syncBridges s else s

/-- PIN_RESTORED, R151: no clamping for 1 s; a clamp restarts the time. A sensing pin is restored at the next frame boundary, another at once; a
channel that R121 holds is left to its own retry. -/
def execPinRestored (pin : Nat) (s : State) : Host.Outcome State Fault Refusal :=
  .next (if pin < 177 && getBit s.clamp.opened pin && atLeastSince 1024000 (s.clamp.lastClamp.getD pin none) s.clk.tb && !(64 ≤ pin && pin < 104 && getBit s.fc.clip (pin - 64)) then
      if pin < 148 then { s with clamp.restore := setBit s.clamp.restore pin true } else restorePin pin s
    else s)

/-- The restores that a frame boundary carries out (R151). -/
def restorePins (s : State) : State :=
  (filterIdx 177 (getBit s.clamp.restore)).foldl (fun s p => restorePin p s) s

/-- Whether a line's pins clamped in the frame (R131, R137). -/
def lineClamped (m : BitVec 177) (l : Nat) : Bool := (linePins l).any (getBit m)

/-- The CLAMP bits of RANGE for the pins that clamped in the frame (R137). -/
def markClamps (s : State) : State :=
  { s with
    planes.write.clamped := s.clamp.inFrame
    planes.write.range := tabulate 144 (fun i =>
      let v := s.planes.write.range.getD i 0
      if 40 ≤ i && lineClamped s.clamp.inFrame (i - 40) then v % 128 + 128 else v)
    clamp.inFrame := 0 }

/-! ### Force bridges -/

/-- The gain of a PGA code, R158. -/
def gainOf : Nat → Nat
  | 0 => 1 | 1 => 8 | 2 => 32
  | _ => 128

/-- One conversion, R139, and whether it saturates; the reference is the sensed excitation. With a sensed excitation of 0 the
ratio has no value: the result is the free value `v` within the converter's limits, saturated at them (DESIGN CHOICE,
log 24). -/
def convert (v : BitVec 32) (pga : Nat) (x : BridgeSample) : Int × Bool :=
  let m : Int := 8388607
  let d := if x.diffSense == 0 then toS 32 v.toNat else roundDiv (x.diffIn * gainOf pga * 2 ^ 23) x.diffSense
  (clampI (-m) m d, d < -m || m < d)

/-- Out of regulation, R152: an output at its limit, or the sensed excitation more than 2 % from VX. -/
def outOfReg (b : Bridge) (x : BridgeSample) : Bool :=
  let vx := if b.at5 then 5000 else 2500
  x.atLimit || vx < 50 * absN ((x.vexs : Int) - vx)

/-- A bridge is faulted: unexcited, EXCITE released, asked for again after 256 frames (R152, R153). -/
def faultBridge (n : Nat) (s : State) : State :=
  let s := exciteOff n (withdraw 4 (exciteWho n) (releaseGrant 4 (exciteWho n) s))
  let s := s.modBridge n (fun b => { b with fault := true })
  let s := askLater 4 (exciteWho n) (some 256) false s
  latchFault 6 (clampRec 0x04 (148 + 6 * n) (s.clamp.counters.getD (148 + 6 * n) 0) s)

/-- R152: 4 conversions out of regulation fall to 2.5 V, or at 2.5 V fault the bridge. -/
def excFault (n : Nat) (s : State) : State :=
  let b := s.bridge n
  if !(b.excited && 4 ≤ b.badRun) then s
  else if b.at5 then
    clampRec 0x04 (148 + 6 * n) (s.clamp.counters.getD (148 + 6 * n) 0) (setCost 4 (exciteWho n) s.power.exc25
      (s.modBridge n (fun b => { b with at5 := false, at25 := b.exc5, badRun := 0, discard := 4 })))
  else faultBridge n s

/-- R152: 4 conversions in regulation after re-excitation clear the fault. -/
def excRestored (n : Nat) (s : State) : State :=
  let b := s.bridge n
  if b.fault && b.excited && 4 ≤ b.goodRun then
    clampRec 0x05 (148 + 6 * n) (s.clamp.counters.getD (148 + 6 * n) 0)
      (s.modBridge n (fun b => { b with fault := false, goodRun := 0 }))
  else s

/-- R153: 16 saturated conversions fault the bridge. -/
def bridgeSaturated (n : Nat) (s : State) : State :=
  let b := s.bridge n
  if b.excited && 16 ≤ b.satRun then faultBridge n s else s

/-- What the counts of a bridge have made due. -/
def bridgeDue (n : Nat) (s : State) : State := bridgeSaturated n (excFault n (excRestored n s))

/-- EXC_FAULT, EXC_RESTORED, BRIDGE_SATURATED. -/
def execExcFault (bridge : Nat) (s : State) : Host.Outcome State Fault Refusal :=
  .next (if bridge < 4 then excFault bridge s else s)
def execExcRestored (bridge : Nat) (s : State) : Host.Outcome State Fault Refusal :=
  .next (if bridge < 4 then excRestored bridge s else s)
def execBridgeSaturated (bridge : Nat) (s : State) : Host.Outcome State Fault Refusal :=
  .next (if bridge < 4 then bridgeSaturated bridge s else s)

/-- FORCE_CONVERSION, R139: one conversion of an excited bridge. What earlier conversions made due comes first. -/
def execForceConversion (bridge : Nat) (x : BridgeSample) (s : State) : Host.Outcome State Fault Refusal :=
  .next (if 4 ≤ bridge then s else
    let s := bridgeDue bridge s
    if !(s.bridge bridge).excited then s
    else
      let (v, s) := if x.diffSense == 0 then fresh s else (0, s)
      s.modBridge bridge (fun b =>
        let (d, sat) := convert v b.pga x
        let bad := outOfReg b x
        let used := b.discard == 0
        { b with
          sat := b.sat || sat
          satRun := if sat then b.satRun + 1 else 0
          reg := bad
          badRun := if bad then b.badRun + 1 else 0
          goodRun := if bad || !used then 0 else b.goodRun + 1
          discard := b.discard - 1
          sum := if used then b.sum + d else b.sum
          count := if used then b.count + 1 else b.count
          vexp := min 65535 x.vexp
          vexs := min 65535 x.vexs }))

/-- Force in cN, R140. -/
def forceOf (gauge rel : Nat) (zero dbar : Int) : Int :=
  sat32 (sar ((dbar - zero) * ((gauge * rel) / 2 ^ 14 : Nat) + 2 ^ 19) 20)

/-- A FORCE setting takes effect (R150, R158, R162, R199): enabling asks for excitation and is followed by a capture of
ZERO from the latch after this one, unless a seed gave it for this gain (R211), as is a change of gain; a lower VX shrinks the grant, a higher one asks for the difference. -/
def applyForceCfg (n : Nat) (s : State) : State :=
  let o := s.bridge n
  let s := s.modBridge n (fun b => { b with en := b.enW, exc5 := b.exc5W, pga := b.pgaW, gauge := b.gaugeW })
  let who := exciteWho n
  let recapture (s : State) : State :=
    { s with cal.d.zcap := s.cal.d.zcap.set n false
             cal.seedZ := s.cal.seedZ.set n false
             cal.zwait := s.cal.zwait.set n true
             cal.ep.zero := s.cal.ep.zero.set n []
             cal.ep.span := s.cal.ep.span.set n [] }
  if !o.enW then
    if !o.en then s else
      let s := exciteOff n (dropReReq 4 who (withdraw 4 who (releaseGrant 4 who s)))
      s.modBridge n (fun b => { b with fault := false, at25 := false, sum := 0, count := 0 })
  else if !o.en then
    let s := s.modBridge n (fun b => { b with fault := false, at25 := false, sum := 0, count := 0 })
    syncBridges (if s.cal.seedZ.getD n false && o.pgaW == o.pga then { s with cal.seedZ := s.cal.seedZ.set n false }
      else recapture s)
  else
    let s := if o.pgaW == o.pga then s else recapture (s.modBridge n (fun b => { b with discard := 4 }))
    if o.exc5W == o.exc5 then s
    else
      let s := s.modBridge n (fun b => { b with at25 := false })
      if o.excited then
        if o.exc5W then request 4 who (s.power.exc5 - s.power.exc25) true 0 true s
        else if o.at5 then
          setCost 4 who s.power.exc25 (s.modBridge n (fun b => { b with at5 := false, discard := 4 }))
        else withdraw 4 who s
      else if (s.reqOf 4 who).isSome then syncBridges (withdraw 4 who s)
      else s

/-- The FORCE latch of K(N), R15, R141, R150, and the settings that take effect with it. The mean of a window without a
conversion is a value that the spec does not state. -/
def latchForce (s : State) : State :=
  let s := { s with pipe.lastForce := s.planes.force, pipe.lastForceValid := s.planes.forceValid,
                    pipe.lastForceEn := s.planes.forceEn, cal.zwait := List.replicate 4 false }
  (List.range 4).foldl (fun s n =>
    let b := s.bridge n
    let valid := s.feat 3 && b.en && !b.fault && 0 < b.count && !s.bridgeOpen n
    let (mean, s) :=
      if b.count == 0 then
        let (v, s) := fresh s
        (toS 24 v.toNat, s)
      else (roundDiv b.sum b.count, s)
    let f := forceOf b.gauge (s.cal.d.rel.getD n 0) (s.cal.d.zero.getD n 0) mean
    let s := s.modBridge n (fun b =>
      { b with mean := mean, nconv := min 255 b.count, valid := valid, sum := 0, count := 0 })
    applyForceCfg n { s with
      planes.force := s.planes.force.set n (if valid then f else forceInvalid)
      planes.forceValid := s.planes.forceValid.set n valid
      planes.forceEn := s.planes.forceEn.set n b.en }) s

/-! ### Thermistors -/

/-- Changes a thermistor input. -/
def State.modThm (s : State) (i : Nat) (f : Thm → Thm) : State := { s with therm.inputs := modAt f i s.therm.inputs }

/-- A thermistor input. -/
def State.thm (s : State) (i : Nat) : Thm :=
  s.therm.inputs.getD i { en := false, beta := 3435, temp := tempNone, fail := false, failSeen := false, good := 0, own := 0 }

/-- A THERMAL record, R492. -/
def thermalRec (sub item : Nat) (value : Int) (s : State) : State :=
  record 0x20 ([b8 sub, b8 item] ++ leS 2 value ++ le 4 s.frameOr) s

/-- SENSOR_OK, R144, R491: FAIL clears and the input reads its own temperature. -/
def sensorOk (i : Nat) (s : State) : State :=
  let t := s.thm i
  if t.en && t.fail && 16 ≤ t.good then
    let open_ := getBit s.clamp.opened (172 + i) || getBit s.clamp.opened 176
    thermalRec 0x04 i t.own (s.modThm i (fun t => { t with fail := false, good := 0, temp := if open_ then 1500 else t.own }))
  else s

/-- Whether x is out of the range 0.02 to 0.98. -/
def xBad (x : Nat) : Bool := 100 * x < 2 * 65536 || 98 * 65536 < 100 * x

/-- One conversion of an enabled input, R143, R144, R151. -/
def thermConvert (refBad : Bool) (i x : Nat) (s : State) : State :=
  let s := sensorOk i s
  let t := s.thm i
  if !t.en then s
  else if xBad x then
    let s' := s.modThm i (fun t => { t with temp := 1500, fail := true, failSeen := true, good := 0 })
    if t.fail then s' else latchFault 7 (thermalRec 0x03 i 1500 s')
  else
    let own := thermTemp x t.beta
    let hot := t.fail || refBad || getBit s.clamp.opened (172 + i)
    s.modThm i (fun t => { t with own := own, temp := if hot then 1500 else own, good := if t.fail then t.good + 1 else 0 })

/-- A thermistor round, R142: the four inputs, and the die in 0.1 degrees. -/
def thermRound (xs : ThermRatios) (die : Int) (s : State) : State :=
  let refBad := xs.thref || getBit s.clamp.opened 176
  let s := { s with therm.die := clampI (-32768) 32767 die }
  (List.range 4).foldl (fun s i => thermConvert refBad i (xs.inputs.getD i 32768 % 65536) s) s

/-- SENSOR_OK. -/
def execSensorOk (input : Nat) (s : State) : Host.Outcome State Fault Refusal :=
  .next (if input < 4 then sensorOk input s else s)

/-- Enables or disables TH1 to TH3, R144, R162. Until its first conversion an input just enabled reads a value that the
spec does not state. -/
def enableThm (i : Nat) (on : Bool) (s : State) : State :=
  let t := s.thm i
  if t.en == on then s
  else if on then
    let (v, s) := fresh s
    s.modThm i (fun t => { t with en := true, temp := toS 16 v.toNat, good := 0 })
  else
    let s' := s.modThm i (fun t => { t with en := false, temp := tempNone, fail := false, good := 0 })
    if t.fail then thermalRec 0x04 i tempNone s' else s'

end Sys2Proof.Machine
end

