-- ==== Sys2Proof/Machine/Calib.lean ====
section
/-! DEFINITION. Calibration traced to the signal: captures, transfers, the noise unit, the Tarn, the moves of an epoch
end, seeds and the save point (R187-R215).
Conventions that the spec leaves open: log 20 (DESIGN CHOICE), log 25 (DEDUCED). -/

namespace Sys2Proof.Machine
open Sys2Proof

/-- Baselines move fast: settle, or hop settle (R201). -/
def State.settleBase (s : State) : Bool := s.settle || 0 < s.cal.hop

/-- Element of an array of numbers, 0 beyond its end. -/
def at_ (a : Array Int) (i : Nat) : Int := a.getD i 0

/-- Changes the calibrated data. -/
def State.modCal (s : State) (f : CalData → CalData) : State := { s with cal.d := f s.cal.d }

/-- A channel left out because it is treated as open or held (R151, R193). -/
def deadChan (s : State) (r : Nat) : Bool := getBit s.planes.comp.openRx r

/-- The Tarn histories are cleared. -/
def clearTarns (s : State) : State := { s with cal.tarns := .empty }

/-! ### The noise unit, R190 -/

/-- The noise unit in I counts with 4 fractional bits that a window gives, at least one count. -/
def nuOf (window : List Nat) (s lwin mrep dshift : Nat) : Nat :=
  let m2 := (median2 (window.map Int.ofNat)).getD 0
  let mad2 := ((median2 (window.map (fun x => ((absN (2 * (x : Int) - m2) : Nat) : Int)))).getD 0).toNat
  let sq := isqrt (s * lwin * 2 ^ 40 / mrep)
  let n := 14826 * mad2 * sq * 16 * 2 ^ 19
  let d := 10000 * 1024 * 2 ^ 20 * 2 ^ dshift
  clampN 16 65535 ((2 * n + d) / (2 * d))

/-- A new statistic moves nu: a rise at once, a fall by at most 1/16. A frozen nu that is valid holds. -/
def nuMove (frozen : Bool) (x : NuSt) (new : Nat) : NuSt :=
  if x.nu == 0 then { x with nu := new, due := true }
  else if frozen then x
  else if x.nu ≤ new then { x with nu := new }
  else { x with nu := max new ((x.nu * 15 + 8) / 16) }

/-- NOISE_UNIT_UPDATE: a channel that has taken 16 values since its last computation computes. -/
def nuUpdate (s : State) : State :=
  let p := s.prof
  s.modCal (fun d => { d with nus := d.nus.map (fun x =>
    if 16 ≤ x.fresh then
      nuMove (s.frozen 1) { x with fresh := 0 } (nuOf x.window s.stepLen p.lwin p.mrep p.dshift)
    else x) })

/-- The magnitudes of an accepted LISTEN slot enter the windows of the channels that R151 leaves in; a hop frame gives no
sample (R204). -/
def nuSample (s : State) : State :=
  let b := s.planes.comp
  let s := s.modCal (fun d => { d with nus := d.nus.map (fun x => { x with due := false }) })
  if !b.listen || b.rejected || b.hop then s
  else
    let m := b.magA.toArray
    s.modCal (fun d => { d with nus := tabulate 40 (fun r =>
      let x := d.nus.getD r { nu := 0, window := [], fresh := 0, due := false }
      if deadChan s r then x
      else
        let w := x.window ++ [m.getD r 0]
        { x with window := w.drop (w.length - 64), fresh := x.fresh + 1 }) })

/-- The nu that the pipeline uses, 0 while invalid; a first value holds from the next computed frame (R540). -/
def State.nu (s : State) (r : Nat) : Nat :=
  match s.cal.d.nus[r]? with
  | some x => if x.due then 0 else x.nu
  | none => 0

/-- Every nu is valid among the channels that R193 waits for. -/
def State.nuValid (s : State) : Bool := (List.range 40).all (fun r => deadChan s r || 0 < s.nu r)

/-! ### Captures and transfers, R193, R194, R204 -/

/-- Multiplies a baseline by a quarter of four times a ratio with 32 fractional bits. -/
def scaleBase (ratio4 : Int) (b : Int) : Int := sat16 (roundDiv (b * ratio4) (2 ^ 34))

/-- Charge baselines are captured; those of a line treated as open hold their values (R151). -/
def captureCharge (b : Bank) (s : State) : State :=
  let take (raw old : List Int) : List Int := (raw.zip old).mapIdx (fun l (r, o) => if bit (b.range.getD (40 + l) 0) 6 then o else r)
  s.modCal (fun d => { d with cbI := take (b.stxI ++ b.srxI) d.cbI, cbQ := take (b.stxQ ++ b.srxQ) d.cbQ, capturedC := true })

/-- Captures due in a computed frame (R193). -/
def captures (counted : Bool) (s : State) : State :=
  let b := s.planes.comp
  let s := if b.mutualOn && !b.minv && b.appB == 0 then s.modCal (fun d => { d with capturedB := false }) else s
  if !counted then s
  else
    let s :=
      if !s.cal.d.captured then
        calRec 0x04 0xFF 0 s.frame.comp (s.modCal (fun d => { d with
          bia := b.ia, bqa := b.qa, bib := b.ib, bqb := b.qb, captured := true, capturedB := 0 < b.appB,
          thr := List.replicate 2560 s.cal.tInit }))
      else if 0 < b.appB && !s.cal.d.capturedB then
        s.modCal (fun d => { d with bib := b.ib, bqb := b.qb, capturedB := true })
      else s
    if b.charge && !s.cal.d.capturedC then captureCharge b s else s

/-- R194: an amplitude change scales the baselines of its tone, by the amplitude applied now over the last at which
MUTUAL ran. -/
def scaleAmp (a b : Nat) (s : State) : State :=
  let f (new old : Nat) (xs : List Int) : List Int :=
    if new == 0 || old == 0 || new == old then xs else xs.map (fun x => sat16 (roundDiv (x * new) old))
  let s := s.modCal (fun d => { d with
    bia := f a s.cal.lastA d.bia, bqa := f a s.cal.lastA d.bqa, bib := f b s.cal.lastB d.bib, bqb := f b s.cal.lastB d.bqb })
  { s with cal.lastA := if a == 0 then s.cal.lastA else a, cal.lastB := if b == 0 then s.cal.lastB else b }

/-- The boundary of a move or a new profile: each phase tap keeps its delay (R204). -/
def convertTaps (oldA newA oldB newB : Nat) (s : State) : State :=
  let f (o n t : Nat) : Nat := if o == 0 || n == 0 then t else (roundDiv ((t * n : Nat) : Int) o).toNat % 256
  s.modCal (fun d => { d with tapA := d.tapA.map (f oldA newA), tapB := d.tapB.map (f oldB newB) })

/-- The median ratio of new I over old baseline of the nodes that a test accepts, with 32 fractional bits. -/
def ratioOf (new old : Array Int) (nodes : List Nat) (ok : Nat → Bool) : List Int :=
  (nodes.filter (fun i => ok i && 64 ≤ absN (at_ old i))).map (fun i =>
    if 0 ≤ at_ old i then roundDiv (at_ new i * 2 ^ 32) (absN (at_ old i))
    else roundDiv (-(at_ new i) * 2 ^ 32) (absN (at_ old i)))

/-- Four times the ratio that each channel's baselines take in the hop frame, none to keep them (R204): a median of an even
count is carried exactly (R589). -/
def hopRatios (new old : Array Int) (quiet : Array Bool) : List (Option Int) :=
  let chan (r : Nat) : List Nat := (List.range 64).map (fun t => t * 40 + r)
  let per := tabulate 40 (fun r => ratioOf new old (chan r) (fun i => quiet.getD i false))
  let meds := per.map (fun xs => if 8 ≤ xs.length then median2 xs else none)
  let all := meds.filterMap id
  let fall := if all.isEmpty then (median2 (ratioOf new old (List.range 2560) (fun _ => true))).map (2 * ·) else median2 all
  meds.map (fun m => match m with
    | some x => some (2 * x)
    | none => fall)

/-- Scales every node's baseline by its channel's ratio. -/
def scaleChan (rs : List (Option Int)) (xs : List Int) : List Int :=
  let a := rs.toArray
  xs.mapIdx (fun i x => match a.getD (i % 40) none with
    | some q => scaleBase q x
    | none => x)

/-- What a move or a new profile restarts: Tarn histories, the nu windows, hop settle; nu is held, scaled by the root of
the step lengths (R201, R204). -/
def hopRestart (s : State) : State :=
  let k := isqrt (s.stepLen * 2 ^ 40 / max 1 s.cal.stepS)
  let s := clearTarns s
  let s := s.modCal (fun d => { d with nus := d.nus.map (fun x =>
    { x with window := [], fresh := 0,
             nu := if x.nu == 0 then 0 else clampN 16 65535 ((x.nu * k + 2 ^ 19) / 2 ^ 20) }) })
  { s with cal.hop := 2, cal.xfer := true, cal.stepS := s.stepLen }

/-- The transfer of the baselines in the pre-pass of the hop frame, or of the first frame after it whose MUTUAL ran. -/
def hopTransfer (s : State) : State :=
  let b := s.planes.comp
  if !(s.cal.xfer && b.mutualOn && !b.minv) then s
  else
    let s' := { s with cal.xfer := false }
    if !s.cal.d.captured then s'
    else
      let q := s.pipe.quiet.toArray
      let ra := hopRatios b.ia.toArray s.cal.d.bia.toArray q
      let s' := s'.modCal (fun d => { d with bia := scaleChan ra d.bia, bqa := scaleChan ra d.bqa })
      if 0 < b.appB && s.cal.d.capturedB && s.cal.xferB then
        let rb := hopRatios b.ib.toArray s.cal.d.bib.toArray q
        s'.modCal (fun d => { d with bib := scaleChan rb d.bib, bqb := scaleChan rb d.bqb })
      else s'

/-! ### The Tarn, R191, R192 -/

/-- One sample against its baseline: the sign enters the history. -/
def tarnPush (t : Tarn) (v b : Int) : Tarn :=
  let bit := if b < v then 1 else if v < b then 0 else flag t.alt
  { hist := (2 * t.hist + bit) % 2 ^ 64, n := min (t.n + 1) 64, k := t.k + 1, alt := if v == b then !t.alt else t.alt }

/-- After 8 samples the baseline steps toward the median of its history. -/
def tarnMove (frozen up : Bool) (step : Int) (t : Tarn) (b : Int) : Tarn × Int × Nat :=
  if t.k < 8 then (t, b, 0)
  else
    let t := { t with k := 0 }
    let ones := popN t.n t.hist
    if frozen then (t, b, 0)
    else if up && t.n * 5 ≤ ones * 8 then (t, sat16 (b + step), 1)
    else if ones * 8 ≤ t.n * 3 then (t, sat16 (b - step), 1)
    else (t, b, 0)

/-- The elements of a plane that pass a test take their sample. -/
def pushPlane (takes : Nat → Bool) (ts : List Tarn) (vs bs : List Int) : List Tarn :=
  (ts.zip (vs.zip bs)).mapIdx (fun i (t, v, b) => if takes i then tarnPush t v b else t)

/-- The baselines of a plane that have taken 8 samples step; how many moved. -/
def movePlane (frozen up : Bool) (step : Nat → Int) (ts : List Tarn) (bs : List Int) : List Tarn × List Int × Nat :=
  let rs := (ts.zip bs).mapIdx (fun i (t, b) => tarnMove frozen up (step i) t b)
  (rs.map (·.1), rs.map (·.2.1), sumN (rs.map (·.2.2)))

/-- The step of a node's baseline: a quarter of its channel's nu, at least one count, eightfold in settle. -/
def nodeStep (s : State) : Nat → Int :=
  let st : Array Int := ((List.range 40).map (fun r =>
    (max 1 ((s.nu r + 32) / 64) * (if s.settleBase then 8 else 1) : Nat) |> Int.ofNat)).toArray
  fun i => at_ st (i % 40)

/-- Quiet nodes enter the Tarn, R191; in WET one under film does not, in FLOODED none does. Values of tone B enter while
tone B is on. -/
def pushNodes (s : State) : State :=
  let b := s.planes.comp
  if !s.cal.d.captured || s.pipe.surface.flooded then s
  else
    let q := s.pipe.quiet.toArray
    let f := s.planes.film.toArray
    let takes (i : Nat) : Bool := q.getD i false && !(s.pipe.surface.wet && 48 ≤ absN (at_ f i))
    let t := s.cal.tarns
    let d := s.cal.d
    let s := { s with cal.tarns.ia := pushPlane takes t.ia b.ia d.bia, cal.tarns.qa := pushPlane takes t.qa b.qa d.bqa }
    if b.appB == 0 then s
    else { s with cal.tarns.ib := pushPlane takes t.ib b.ib d.bib, cal.tarns.qb := pushPlane takes t.qb b.qb d.bqb }

/-- Quiet lines of a bank enter, R192, but none in FLOODED (R191); a line treated as open gives no sample (R151). -/
def pushLines (b : Bank) (quietLine : Nat → Bool) (s : State) : State :=
  if !(b.charge && s.cal.d.capturedC) || s.pipe.surface.flooded then s
  else
    let takes (l : Nat) : Bool := quietLine l && !bit (b.range.getD (40 + l) 0) 6
    let t := s.cal.tarns
    { s with cal.tarns.ci := pushPlane takes t.ci (b.stxI ++ b.srxI) s.cal.d.cbI
             cal.tarns.cq := pushPlane takes t.cq (b.stxQ ++ b.srxQ) s.cal.d.cbQ }

/-- BASELINE_STEP, R191, R192: baselines that have taken 8 quiet samples step; in WET a charge Q baseline moves only
downward. -/
def baselineStep (s : State) : State :=
  let fz := s.frozen 0
  let step := nodeStep s
  let lstep (_ : Nat) : Int := if s.settleBase then 32 else 4
  let t := s.cal.tarns
  let d := s.cal.d
  let (ia, bia, n1) := movePlane fz true step t.ia d.bia
  let (qa, bqa, n2) := movePlane fz true step t.qa d.bqa
  let (ib, bib, n3) := movePlane fz true step t.ib d.bib
  let (qb, bqb, n4) := movePlane fz true step t.qb d.bqb
  let (ci, cbI, n5) := movePlane fz true lstep t.ci d.cbI
  let (cq, cbQ, n6) := movePlane fz (!s.pipe.surface.wet) lstep t.cq d.cbQ
  { s with
    cal.tarns := { ia := ia, qa := qa, ib := ib, qb := qb, ci := ci, cq := cq }
    cal.d := { d with bia := bia, bqa := bqa, bib := bib, bqb := bqb, cbI := cbI, cbQ := cbQ }
    cal.ep.steps := s.cal.ep.steps + n1 + n2 + n3 + n4 + n5 + n6 }

/-- A line is quiet in a frame when every node on it is (R192). -/
def quietLine (q : Array Bool) (l : Nat) : Bool :=
  if l < 64 then (List.range 40).all (fun r => q.getD (l * 40 + r) false)
  else (List.range 64).all (fun t => q.getD (t * 40 + (l - 64)) false)

/-- The samples of one counted frame that calibration takes after the quiet map (R191, R192, R197). -/
def tarnFrame (counted : Bool) (s : State) : State :=
  if !counted then s
  else
    let q := s.pipe.quiet.toArray
    let s := baselineStep (pushLines s.planes.comp (quietLine q) (pushNodes s))
    if !s.cal.d.captured then s
    else
      let dl := s.planes.delta.toArray
      let th := s.cal.d.thr.toArray
      { s with
        cal.ep.quiet := s.cal.ep.quiet.mapIdx (fun i n => if q.getD i false then n + 1 else n)
        cal.ep.near := s.cal.ep.near.mapIdx (fun i n =>
          if q.getD i false && th.getD i 0 ≤ 2 * absN (at_ dl i) then n + 1 else n) }

/-! ### Phase, guard and force samples -/

/-- One phase sample in taps with 16 fractional bits, R195. -/
def phaseSample (bi bq i q : Int) : Int := atan2T (bq - q) (bi - i)

/-- Phase samples of a counted frame, R195. -/
def phaseFrame (s : State) : State :=
  let b := s.planes.comp
  let (ia, qa, ib, qb) := (b.ia.toArray, b.qa.toArray, b.ib.toArray, b.qb.toArray)
  let d := s.cal.d
  let f := s.planes.film.toArray
  let dl := s.planes.delta.toArray
  let use := s.pipe.contacts.filter (fun c =>
    (c.cls == 1 || c.cls == 2) && !c.coasted && !c.edge && 64 ≤ at_ dl c.peak &&
      (!s.pipe.surface.wet || absN (at_ f c.peak) < 16))
  use.foldl (fun s c =>
    let r := c.peak % 40
    let add (l : List (List Int)) (x : Int) : List (List Int) := modAt (fun xs => xs ++ [x]) r l
    let pa := phaseSample (d.bia.getD c.peak 0) (d.bqa.getD c.peak 0) (at_ ia c.peak) (at_ qa c.peak)
    let s := { s with cal.ep.psiA := add s.cal.ep.psiA pa }
    if b.appB == 0 then s
    else
      let pb := phaseSample (d.bib.getD c.peak 0) (d.bqb.getD c.peak 0) (at_ ib c.peak) (at_ qb c.peak)
      { s with cal.ep.psiB := add s.cal.ep.psiB pb }) s

/-- The ratios of a CHARGE slot enter the epoch (R198): guards on the excitation copy, and the companions while RGLG is
1. -/
def gammaSample (rglg : Bool) (gs rs : List Nat) (s : State) : State :=
  { s with
    cal.ep.gamma := tabulate 4 (fun g =>
      let xs := s.cal.ep.gamma.getD g []
      if s.chg.csrc.getD g 0 == 3 then (match gs[g]? with
        | some x => xs ++ [x]
        | none => xs)
      else xs)
    cal.ep.gammaR := if rglg then s.cal.ep.gammaR ++ rs else s.cal.ep.gammaR }

/-- The force F of the part: the sum of its valid elements (R173). -/
def forceSum (fs : List Int) (vs : List Bool) : Int := sumI ((fs.zip vs).map (fun (f, v) => if v then f else 0))

/-- Force is valid: a bridge is enabled, and every enabled bridge is valid (R177). -/
def forceOk (vs en : List Bool) : Bool := en.any id && (vs.zip en).all (fun (v, e) => v || !e)

/-- F(N) and F(N-1). -/
def State.fsum (s : State) : Int := forceSum s.planes.force s.planes.forceValid
def State.fsumLast (s : State) : Int := forceSum s.pipe.lastForce s.pipe.lastForceValid
def State.fvalid (s : State) : Bool := forceOk s.planes.forceValid s.planes.forceEn

/-- Bilinear weights of R200 with 24 fractional bits. -/
def bridgeWeights (s : State) (x y : Int) : List Int :=
  let one : Int := 2 ^ 24
  let share (p : Int) (lo hi : Nat) : Int :=
    clampI 0 one (truncDiv ((p - 65536 * lo) * one) (65536 * ((hi : Int) - lo)))
  let u := share x s.cal.x0 s.cal.x1
  let v := share y s.cal.y0 s.cal.y1
  [(one - u) * (one - v) / one, u * (one - v) / one, (one - u) * v / one, u * v / one]

/-- Quiet latches and span samples of a frame, R199, R200. A latch formed under an older gain gives no ZERO. -/
def forceFrame (counted : Bool) (s : State) : State :=
  let still := s.pipe.cands.isEmpty && s.pipe.contacts.isEmpty && absN (s.fsum - s.fsumLast) < 20
  let s := if !still then s else
    (List.range 4).foldl (fun s n =>
      if !s.planes.forceValid.getD n false || s.cal.zwait.getD n false then s
      else
        let m := (s.bridge n).mean
        if s.cal.d.zcap.getD n false then { s with cal.ep.zero := modAt (fun xs => xs ++ [m]) n s.cal.ep.zero }
        else { s with cal.d.zero := s.cal.d.zero.set n m, cal.d.zcap := s.cal.d.zcap.set n true }) s
  match s.pipe.contacts with
  | [c] =>
    let f := s.fsum
    if counted && (c.cls == 1 || c.cls == 2) && !c.coasted && c.still && s.fvalid && s.planes.forceEn.all id &&
        100 ≤ f && f ≤ 5000 then
      let ws := bridgeWeights s c.x c.y
      (List.range 4).foldl (fun s n =>
        let w := ws.getD n 0
        if 15 * 2 ^ 24 ≤ 100 * w then
          let x := truncDiv (s.planes.force.getD n 0 * 2 ^ 48) (w * f)
          { s with cal.ep.span := modAt (fun xs => xs ++ [x]) n s.cal.ep.span }
        else s) s
    else s
  | _ => s

/-! ### The epoch end, R188, R189, R196-R206 -/

/-- Rounds a half of `m2` to nearest, given in units of 1/`u`. -/
def roundHalf (m2 : Int) (u : Nat) : Int := roundDiv m2 (2 * u)

/-- The tap step of a phase median (R196), twice the median in taps with 16 fractional bits. -/
def phaseStep (settle : Bool) (m2 : Int) : Int :=
  if settle then clampI (-8) 8 (roundHalf m2 65536)
  else if 65536 ≤ absN m2 then (if 0 < m2 then 1 else -1) else 0

/-- Turns a baseline pair by a number of taps (R196). -/
def turnPair (step : Int) (bi bq : Int) : Int × Int :=
  let c := cosT (step * 65536)
  let n := sinT (step * 65536)
  (sat16 (roundDiv (bi * c + bq * n) (2 ^ 48)), sat16 (roundDiv (bq * c - bi * n) (2 ^ 48)))

/-- Turns the baselines of every channel by its step. -/
def turnBases (steps : List Int) (bi bq : List Int) : List Int × List Int :=
  let st := steps.toArray
  let ps := (bi.zip bq).mapIdx (fun i (x, y) => if at_ st (i % 40) == 0 then (x, y) else turnPair (at_ st (i % 40)) x y)
  (ps.map (·.1), ps.map (·.2))

/-- A condition of R206 as an epoch end finds it: index into the counts, whether it holds, and its value. -/
abbrev Cond := Nat × Bool × Int

/-- Moves the phase taps; also the conditions PHASE_FAR. -/
def movePhases (settle : Bool) (s : State) : State × List Cond :=
  let med (xs : List Int) : Option Int := if 16 ≤ xs.length then median2 xs else none
  let ma := s.cal.ep.psiA.map med
  let mb := s.cal.ep.psiB.map med
  let step (m : Option Int) : Int := match m with
    | some m => phaseStep settle m
    | none => 0
  let far (base : Nat) (ms : List (Option Int)) : List Cond := ms.mapIdx (fun i m => match m with
    | some m => (base + i, 8 * 131072 ≤ absN m, roundHalf m 65536)
    | none => (base + i, false, 0))
  let conds := far 14 ma ++ far 54 mb
  if s.frozen 2 then ({ s with cal.mvPhase := 0 }, conds)
  else
    let sa := ma.map step
    let sb := mb.map step
    let tap (ts : List Nat) (st : List Int) : List Nat := (ts.zip st).map (fun (t, x) => (((t : Int) + x) % 256).toNat)
    let d := s.cal.d
    let (bia, bqa) := turnBases sa d.bia d.bqa
    let (bib, bqb) := turnBases sb d.bib d.bqb
    ({ s with cal.d.tapA := tap d.tapA sa, cal.d.tapB := tap d.tapB sb, cal.d.bia := bia, cal.d.bqa := bqa,
              cal.d.bib := bib, cal.d.bqb := bqb,
              cal.mvPhase := ((sa ++ sb).filter (· != 0)).length }, conds)

/-- The new threshold of a node, R197. -/
def moveThr (tap tmin tmax q n t : Nat) : Nat :=
  if tmax < t then max tmax (t - tap)
  else if t < tmin then min tmin (t + tap)
  else if q < 64 then t
  else if q < n * 100 then min (t + tap) tmax
  else if n * 400 < q && tmin < t then max (t - tap) tmin
  else t

/-- Moves the thresholds; also THRESH_RAIL. -/
def moveThrs (settle : Bool) (s : State) : State × List Cond :=
  let tap := if settle then 4 else 1
  let xs := (s.cal.d.thr.zip (s.cal.ep.quiet.zip s.cal.ep.near))
  let hot := xs.any (fun (t, q, n) => t == s.cal.tMax && q < n * 100)
  let atMax := (xs.filter (fun x => x.1 == s.cal.tMax)).length
  let new := xs.map (fun (t, q, n) => moveThr tap s.cal.tMin s.cal.tMax q n t)
  let moved := ((new.zip s.cal.d.thr).filter (fun (a, b) => a != b)).length
  ((if s.frozen 3 then { s with cal.mvThresh := 0 } else { s with cal.d.thr := new, cal.mvThresh := moved }),
   [(0, hot, (atMax : Int))])

/-- The tap step of a guard or of the companions (R198): twice the median with 16 fractional bits. -/
def guardStep (settle : Bool) (m2 : Int) : Int :=
  if settle then clampI (-8) 8 (roundHalf ((131072 - m2) * 64) 65536)
  else if m2 < 131072 - 1024 then 1
  else if 131072 + 1024 < m2 then -1
  else 0

/-- Moves `GSC` and `RSC`; a guard whose CHARGE source is not the excitation copy keeps its tap (R198). Also GUARD_RAIL. -/
def moveGuards (settle : Bool) (s : State) : State × List Cond :=
  let one (tap : Nat) (xs : List Nat) : Nat × Bool :=
    if xs.length < 64 then (tap, false)
    else
      let t := (tap : Int) + guardStep settle ((median2 (xs.map Int.ofNat)).getD 131072)
      let c := clampI 32 96 t
      (c.toNat, c != t && c == (tap : Int))
  let g := (s.cal.d.gsc.zip s.cal.ep.gamma).mapIdx (fun i (t, xs) =>
    if s.chg.csrc.getD i 0 == 3 then one t xs else (t, false))
  let r := one s.cal.d.rsc s.cal.ep.gammaR
  let conds := (g ++ [r]).mapIdx (fun i x => (1 + i, x.2, (x.1 : Int)))
  let moved := (((g.map (·.1)).zip s.cal.d.gsc).filter (fun (a, b) => a != b)).length + flag (r.1 != s.cal.d.rsc)
  ((if s.frozen 4 then { s with cal.mvGuard := 0 }
    else { s with cal.d.gsc := g.map (·.1), cal.d.rsc := r.1, cal.mvGuard := moved }), conds)

/-- Moves `ZERO`; also ZERO_FAR. -/
def moveZeros (settle : Bool) (s : State) : State × List Cond :=
  let xs := tabulate 4 (fun n =>
    let g := gainOf (s.bridge n).pga
    let l := s.cal.ep.zero.getD n []
    let z := s.cal.d.zero.getD n 0
    let taps := if l.length < 32 || !s.cal.d.zcap.getD n false then 0
      else roundDiv ((median2 l).getD 0 - 2 * z) (2 * g)
    let step := if settle then clampI (-8) 8 taps else if 0 < taps then 1 else if taps < 0 then -1 else 0
    (taps, clampI (-2147483648) 2147483647 (z + step * g)))
  let conds := xs.mapIdx (fun i x => (10 + i, (64 ≤ absN x.1 : Bool), x.1))
  let moved := (((xs.map (·.2)).zip s.cal.d.zero).filter (fun (a, b) => a != b)).length
  ((if s.frozen 5 then { s with cal.mvZero := 0 } else { s with cal.d.zero := xs.map (·.2), cal.mvZero := moved }), conds)

/-- Moves `REL`, judged together; also SPAN_RAIL (R200). -/
def moveRels (settle : Bool) (s : State) : State × List Cond :=
  let none_ : List Cond := (List.range 4).map (fun i => (6 + i, false, 0))
  let en := (List.range 4).all (fun n => (s.bridge n).en)
  if !en || s.cal.ep.span.any (fun l => l.length < 64) then ({ s with cal.mvRel := 0 }, none_)
  else
    let ms := s.cal.ep.span.map (fun l => (median2 l).getD 0)
    let sum := sumI ms
    if sum ≤ 0 then ({ s with cal.mvRel := 0 }, none_)
    else
      let xs := (ms.zip s.cal.d.rel).map (fun (m, rel) =>
        let e := 4 * m - sum
        let t : Int := if settle then (rel : Int) - 64 * clampI (-8) 8 (roundDiv (e * rel) (64 * sum.toNat))
          else if sum < 512 * e then (rel : Int) - 64
          else if 512 * e < -sum then (rel : Int) + 64
          else (rel : Int)
        let c := clampI 8192 32767 t
        (c.toNat, c != t && c == (rel : Int)))
      let conds := xs.mapIdx (fun i x => (6 + i, x.2, (x.1 : Int)))
      let new := xs.map (·.1)
      let tot : Int := (sumN new : Nat)
      if s.frozen 6 || tot < 65536 - 128 || 65536 + 128 < tot then ({ s with cal.mvRel := 0 }, conds)
      else
        ({ s with cal.d.rel := new, cal.mvRel := ((new.zip s.cal.d.rel).filter (fun (a, b) => a != b)).length }, conds)

/-- Counts the conditions of R206 after fast settle has ended; an epoch end at which one does not hold ends its
episode. -/
def countRails (conds : List Cond) (s : State) : State :=
  if s.cal.fastOn then s
  else
    conds.foldl (fun s (i, holds, v) =>
      if holds then { s with cal.railRuns := s.cal.railRuns.set i (s.cal.railRuns.getD i 0 + 1),
                             cal.railVal := s.cal.railVal.set i v }
      else { s with cal.railRuns := s.cal.railRuns.set i 0, cal.railDone := s.cal.railDone.set i false }) s

/-- The subtype, item and rail bit of a condition of R206. -/
def railItem (i : Nat) : Nat × Nat × Nat :=
  if i == 0 then (0x05, 0xFF, 0)
  else if i < 6 then (0x06, i - 1, 1)
  else if i < 10 then (0x07, i - 6, 2)
  else if i < 14 then (0x08, i - 10, 3)
  else if i < 54 then (0x09, i - 14, 4)
  else (0x09, i - 54 + 128, 4)

/-- CAL_RAIL_REPORT, R206: conditions that have held at 4 consecutive epoch ends are reported once per episode. -/
def railReport (s : State) : State :=
  (filterIdx 94 (fun i => 4 ≤ s.cal.railRuns.getD i 0 && !s.cal.railDone.getD i false)).foldl (fun s i =>
    let (sub, item, rb) := railItem i
    let v := toU 16 (clampI (-32768) 65535 (s.cal.railVal.getD i 0))
    let s := { s with cal.railDone := s.cal.railDone.set i true, cal.rail := setBit s.cal.rail rb true }
    latchFault 12 (calRec sub item v s.frame.comp s)) s

/-- Fast settle ends: SETTLE_END (R201). -/
def endFast (s : State) : State :=
  if s.cal.fastOn then calRec 0x01 0xFF 0 s.frame.comp { s with cal.fastOn := false, cal.fast := 0 } else s

/-- The epoch that a frame's end would close: the number of epochs whose last frame is not after it, modulo 2^24. -/
def epochsThrough (n : Nat) : Nat := (n + 1) / 256 % 2 ^ 24

/-- The moves of an epoch end (R189), then its reports, and the settle counts. -/
def calEpochEnd (s : State) : State :=
  let st := s.settle
  let (s, c1) := movePhases st s
  let (s, c2) := moveThrs st s
  let (s, c3) := moveGuards st s
  let (s, c4) := moveZeros st s
  let (s, c5) := moveRels st s
  let u := trimStep st s
  let s := { u with cal.mvKeeper := if u.cal.d.trim == s.cal.d.trim then 0 else 1 }
  let s := railReport (countRails (c1 ++ c2 ++ c3 ++ c4 ++ c5) s)
  let s := if s.cal.fastOn then (if s.cal.fast ≤ 1 then endFast s else { s with cal.fast := s.cal.fast - 1 }) else s
  { s with
    cal.resumed := s.cal.resumed - 1
    cal.hop := s.cal.hop - 1
    cal.mvSteps := s.cal.ep.steps
    cal.ep := .empty }

/-- Resumed settle (R201): the pause before frames resumed exceeded 60 s. -/
def resumeSettle (s : State) : State := { s with cal.resumed := 2, cal.tarns := .empty, cal.ep := .empty }

/-- CAL_RAIL_REPORT. -/
def execCalRailReport (s : State) : Host.Outcome State Fault Refusal := .next (railReport s)

/-- NOISE_UNIT_UPDATE. -/
def execNoiseUnitUpdate (s : State) : Host.Outcome State Fault Refusal := .next (nuUpdate s)

/-! ### Seeds and the save point, R210-R213 -/

/-- The flags of R158 as a bridge last had them written. -/
def bridgeFlags (b : Bridge) : Nat := pack [(1, flag b.enW), (1, flag b.exc5W), (2, b.pgaW)]

/-- The seed record of the present state (R210, R212). -/
def seedBytes (s : State) : List Byte :=
  let p := s.prof
  let d := s.cal.d
  let body := le 2 1 ++ le 2 (flag s.cal.fastOn) ++ le 8 s.otp.uid ++ le 4 s.fe.wordA ++ le 4 s.ftwB ++
    [b8 p.dshift, b8 p.mrep] ++ le 2 p.lwin ++ d.tapA.map b8 ++ d.tapB.map b8 ++
    (d.nus.map (fun x => le 2 x.nu)).flatten ++ d.gsc.map b8 ++ [b8 d.rsc] ++ leS 1 d.trim ++
    s.bridges.map (fun b => b8 (bridgeFlags b)) ++ zeros 2 ++ (d.zero.map (leS 4)).flatten ++ (d.rel.map (le 2)).flatten ++
    zeros 16
  body ++ le 4 (crc32c body)

/-- The checks of R211, reserved bits among them (R7). -/
def seedOk (s : State) (p : List Byte) : Bool :=
  p.length == 240 && leAt p 236 4 == crc32c (p.take 236) && leAt p 0 2 == 1 && leAt p 2 2 < 2 &&
  leAt p 4 8 == s.otp.uid && leAt p 12 4 != 0 && 12 ≤ byteAt p 20 && byteAt p 20 ≤ 24 &&
  (byteAt p 21 == 1 || byteAt p 21 == 2 || byteAt p 21 == 4) && 192 ≤ leAt p 22 2 && leAt p 22 2 ≤ 4092 &&
  leAt p 22 2 % 2 == 0 && (List.range 40).all (fun r => leAt p (104 + 2 * r) 2 == 0 || 16 ≤ leAt p (104 + 2 * r) 2) &&
  (List.range 5).all (fun g => 32 ≤ byteAt p (184 + g) && byteAt p (184 + g) ≤ 96) &&
  (List.range 4).all (fun n => byteAt p (190 + n) < 16 && 8192 ≤ leAt p (212 + 2 * n) 2 && leAt p (212 + 2 * n) 2 ≤ 32767) &&
  leAt p 194 2 == 0 && leAt p 220 16 == 0

/-- A seed takes effect (R211). -/
def applySeed (p : List Byte) (s : State) : State :=
  let prof := s.prof
  let conv (o n t : Nat) : Nat := (roundDiv ((t * n : Nat) : Int) (max 1 o)).toNat % 256
  let diff (new old : List Nat) : List Int := (new.zip old).map (fun (a, b) => ((a : Int) - b + 128) % 256 - 128)
  let d := s.cal.d
  let ta := tabulate 40 (fun r => conv (leAt p 12 4) s.fe.wordA (byteAt p (24 + r)))
  let useB := leAt p 16 4 != 0 && s.ftwB != 0
  let tb := if useB then tabulate 40 (fun r => conv (leAt p 16 4) s.fe.wordB (byteAt p (64 + r))) else d.tapB
  let (bia, bqa) := if d.captured then turnBases (diff ta d.tapA) d.bia d.bqa else (d.bia, d.bqa)
  let (bib, bqb) := if d.captured then turnBases (diff tb d.tapB) d.bib d.bqb else (d.bib, d.bqb)
  let match_ := leAt p 12 4 == s.fe.wordA && leAt p 16 4 == s.ftwB && byteAt p 20 == prof.dshift &&
    byteAt p 21 == prof.mrep && leAt p 22 2 == prof.lwin
  let nus := d.nus.mapIdx (fun r x =>
    let v := leAt p (104 + 2 * r) 2
    if match_ && v != 0 then { nu := v, window := [], fresh := 0, due := false } else x)
  let same (n : Nat) : Bool := byteAt p (190 + n) / 4 % 4 == (s.bridge n).pga
  let s := s.modCal (fun d => { d with
    tapA := ta, tapB := tb, bia := bia, bqa := bqa, bib := bib, bqb := bqb, nus := nus
    gsc := tabulate 4 (fun g => byteAt p (184 + g))
    rsc := byteAt p 188
    trim := leAtS p 189 1
    zero := d.zero.mapIdx (fun n z => if same n then leAtS p (196 + 4 * n) 4 else z)
    zcap := d.zcap.mapIdx (fun n c => same n || c)
    rel := tabulate 4 (fun n => leAt p (212 + 2 * n) 2) })
  let s := railOf { s with
    cal.seeded := true
    cal.seedZ := tabulate 4 (fun n => same n && !(s.bridge n).en)
    clk.gates := []
    cal.ep := { s.cal.ep with psiA := List.replicate 40 [], psiB := if useB then List.replicate 40 [] else s.cal.ep.psiB,
                              gamma := List.replicate 4 [], gammaR := [],
                              zero := s.cal.ep.zero.mapIdx (fun n xs => if same n then [] else xs),
                              span := List.replicate 4 [] } }
  let s := calRec 0x02 0xFF 0 s.frameOr s
  if byteAt p 2 == 0 then endFast s else s

/-- The save point is restored whole (R213). -/
def applyRestore (s : State) : State :=
  match s.cal.save with
  | none => s
  | some d =>
    let nus := d.nus.map (fun x => { x with window := [], fresh := 0, due := false })
    let s := railOf { s with cal.d := { d with nus := nus }, cal.tarns := .empty, cal.ep := .empty, clk.gates := [] }
    endFast (calRec 0x03 0xFF 0 s.frameOr s)

/-- The reply of CAL_STATE, R208. The nu median and the largest nu are taken over the channels whose nu is valid (DESIGN
CHOICE, log 20). -/
def calStateBytes (s : State) : List Byte :=
  let c := s.cal
  let vs := (c.d.nus.map (·.nu)).filter (· != 0)
  let full := (c.tarns.ia.filter (fun t => t.n == 64)).length
  let flags := flagsOf [s.settleBase, c.fastOn, c.seeded, c.save.isSome, s.nuValid, c.d.captured]
  [b8 flags, b8 c.fast] ++ le 2 c.freeze.toNat ++ le 4 c.epoch ++
    le 2 (medianStored (vs.map Int.ofNat)).toNat ++ le 2 (vs.foldl max 0) ++
    [b8 (min 255 c.mvPhase), b8 (min 255 c.mvGuard)] ++ le 2 (min 65535 c.mvThresh) ++ le 2 (min 65535 c.mvSteps) ++
    [b8 (min 255 c.mvZero), b8 (min 255 c.mvRel), b8 c.mvKeeper, b8 (100 * full / 2560), 0, 0]

/-! ### The registers of block 0x5000, R215 -/

/-- A register of block 0x5000 with the channel and the node that its selectors name; none where no register lies. -/
def calReg (s : State) (addr ch node : Nat) : Option Nat :=
  let c := s.cal
  let d := c.d
  let two (hi lo : Int) : Nat := pack [(16, toU 16 lo), (16, toU 16 hi)]
  match addr with
  | 0x5000 => some (pack [(5, c.fast), (3, 0), (1, flag s.nuValid), (1, flag c.seeded), (1, flag c.save.isSome), (5, 0), (8, c.epoch)])
  | 0x5004 => some (c.freeze.toNat % 256)
  | 0x5008 => some (pack [(8, c.tMin), (8, c.tMax), (8, c.tInit)])
  | 0x500C => some c.chSel
  | 0x5010 => some (pack [(16, (d.nus.map (·.nu)).getD ch 0), (8, d.tapA.getD ch 0), (8, d.tapB.getD ch 0)])
  | 0x5014 => some c.nodeSel
  | 0x5018 => some (two (d.bqa.getD node 0) (d.bia.getD node 0))
  | 0x501C => some (two (d.bqb.getD node 0) (d.bib.getD node 0))
  | 0x5020 => some (pack [(8, d.thr.getD node 0), (8, (c.tarns.ia.map (·.n)).getD node 0), (8, min 255 (c.ep.near.getD node 0))])
  | 0x5024 => some (pack [(16, c.x0), (16, c.x1)])
  | 0x5028 => some (pack [(16, c.y0), (16, c.y1)])
  | 0x502C => some (pack ((List.range 4).flatMap (fun n =>
      [(7, min 127 (c.ep.span.getD n []).length), (1, flag (d.zcap.getD n false))])))
  | 0x5030 => some (pack [(16, min 65535 c.mvThresh), (8, min 255 c.mvGuard), (8, min 255 c.mvPhase)])
  | 0x5034 => some c.rail.toNat
  | _ => none

end Sys2Proof.Machine
end

