-- ==== Sys2Proof/Machine/Crypto.lean ====
section
/-! DEFINITION. CRC-8 of the two-wire port (R300), SHA-256 and HMAC-SHA-256 (R275, R513), and the verification of ECDSA
P-256 (R275, R277). The spec names the last three by their names alone; their arithmetic is the published one (PRESUMED, log 7). -/

namespace Sys2Proof.Machine
open Sys2Proof

/-! ### CRC-8, R300 -/

/-- One bit of the CRC-8 with polynomial 0x07. -/
def crc8Bits : Nat → Nat → Nat
  | 0, c => c
  | k + 1, c => crc8Bits k (if 128 ≤ c then (2 * c) % 256 ^^^ 7 else 2 * c)

/-- The SMBus packet error code. -/
def crc8 (bs : List Byte) : Nat := bs.foldl (fun c b => crc8Bits 8 (c ^^^ b.toNat)) 0

/-! ### SHA-256 (PRESUMED, log 7) -/

/-- Round constants. -/
def shaK : List Word :=
  ([0x428A2F98, 0x71374491, 0xB5C0FBCF, 0xE9B5DBA5, 0x3956C25B, 0x59F111F1, 0x923F82A4, 0xAB1C5ED5,
    0xD807AA98, 0x12835B01, 0x243185BE, 0x550C7DC3, 0x72BE5D74, 0x80DEB1FE, 0x9BDC06A7, 0xC19BF174] : List Word) ++
  ([0xE49B69C1, 0xEFBE4786, 0x0FC19DC6, 0x240CA1CC, 0x2DE92C6F, 0x4A7484AA, 0x5CB0A9DC, 0x76F988DA,
    0x983E5152, 0xA831C66D, 0xB00327C8, 0xBF597FC7, 0xC6E00BF3, 0xD5A79147, 0x06CA6351, 0x14292967] : List Word) ++
  ([0x27B70A85, 0x2E1B2138, 0x4D2C6DFC, 0x53380D13, 0x650A7354, 0x766A0ABB, 0x81C2C92E, 0x92722C85,
    0xA2BFE8A1, 0xA81A664B, 0xC24B8B70, 0xC76C51A3, 0xD192E819, 0xD6990624, 0xF40E3585, 0x106AA070] : List Word) ++
  ([0x19A4C116, 0x1E376C08, 0x2748774C, 0x34B0BCB5, 0x391C0CB3, 0x4ED8AA4A, 0x5B9CCA4F, 0x682E6FF3,
    0x748F82EE, 0x78A5636F, 0x84C87814, 0x8CC70208, 0x90BEFFFA, 0xA4506CEB, 0xBEF9A3F7, 0xC67178F2] : List Word)

/-- Initial values. -/
def shaInit : List Word :=
  [0x6A09E667, 0xBB67AE85, 0x3C6EF372, 0xA54FF53A, 0x510E527F, 0x9B05688C, 0x1F83D9AB, 0x5BE0CD19]

/-- A rotation to the right. -/
def rotr (x : Word) (n : Nat) : Word := (x >>> n) ||| (x <<< (32 - n))

/-- The words of a block, most significant byte first. -/
def shaWords : Nat → List Byte → List Word
  | 0, _ => []
  | n + 1, bs => BitVec.ofNat 32 (ofBe (bs.take 4)) :: shaWords n (bs.drop 4)

/-- The message schedule, newest word first. -/
def shaSchedule : Nat → List Word → List Word
  | 0, w => w
  | n + 1, w =>
    let w15 := w.getD 14 0
    let w2 := w.getD 1 0
    let s0 := rotr w15 7 ^^^ rotr w15 18 ^^^ (w15 >>> 3)
    let s1 := rotr w2 17 ^^^ rotr w2 19 ^^^ (w2 >>> 10)
    shaSchedule n ((w.getD 15 0 + s0 + w.getD 6 0 + s1) :: w)

/-- One round on the eight working words. -/
def shaRound (v : List Word) (kw : Word × Word) : List Word :=
  match v with
  | [a, b, c, d, e, f, g, h] =>
    let s1 := rotr e 6 ^^^ rotr e 11 ^^^ rotr e 25
    let t1 := h + s1 + ((e &&& f) ^^^ (~~~e &&& g)) + kw.1 + kw.2
    let s0 := rotr a 2 ^^^ rotr a 13 ^^^ rotr a 22
    let t2 := s0 + ((a &&& b) ^^^ (a &&& c) ^^^ (b &&& c))
    [t1 + t2, a, b, c, d + t1, e, f, g]
  | _ => v

/-- One block of 64 bytes. -/
def shaBlock (h : List Word) (bs : List Byte) : List Word :=
  let w := (shaSchedule 48 (shaWords 16 bs).reverse).reverse
  (h.zip ((shaK.zip w).foldl shaRound h)).map (fun (x, y) => x + y)

/-- The blocks of a padded message. -/
def shaBlocks : Nat → List Word → List Byte → List Word
  | 0, h, _ => h
  | n + 1, h, bs => shaBlocks n (shaBlock h (bs.take 64)) (bs.drop 64)

/-- SHA-256. -/
def sha256 (bs : List Byte) : List Byte :=
  let n := bs.length
  let pad := (119 - n % 64) % 64
  let m := bs ++ 0x80#8 :: zeros pad ++ be 8 (8 * n)
  (shaBlocks (m.length / 64) shaInit m).flatMap (fun w => be 4 w.toNat)

/-- HMAC-SHA-256 with a key of at most 64 bytes. -/
def hmac256 (key msg : List Byte) : List Byte :=
  let k := fit 64 0 key
  sha256 (k.map (· ^^^ 0x5C#8) ++ sha256 (k.map (· ^^^ 0x36#8) ++ msg))

/-! ### ECDSA P-256 (PRESUMED, log 7) -/

/-- The field, the order of the group, and the coefficient b of the curve y^2 = x^3 - 3 x + b. -/
def ecP : Nat := 0xFFFFFFFF00000001000000000000000000000000FFFFFFFFFFFFFFFFFFFFFFFF
def ecN : Nat := 0xFFFFFFFF00000000FFFFFFFFFFFFFFFFBCE6FAADA7179E84F3B9CAC2FC632551
def ecB : Nat := 0x5AC635D8AA3A93E7B3EBBD55769886BC651D06B0CC53B0F63BCE3C3E27D2604B

/-- A point, none at infinity. -/
abbrev EcPoint := Option (Nat × Nat)

/-- The base point. -/
def ecG : EcPoint :=
  some (0x6B17D1F2E12C4247F8BCE6E563A440F277037D812DEB33A0F4A13945D898C296,
        0x4FE342E2FE1A7F9B8EE7EB4A7C0F9E162BCE33576B315ECECBB6406837BF51F5)

/-- A power modulo `m`, by the bits of the exponent from bit `k - 1` down. -/
def powMod (m x e : Nat) : Nat → Nat → Nat
  | 0, r => r
  | k + 1, r => powMod m x e k (let q := r * r % m; if bit e k then q * x % m else q)

/-- The inverse modulo a prime. -/
def invMod (m x : Nat) : Nat := powMod m (x % m) (m - 2) 256 1

/-- The sum of two points. -/
def ecAdd (a b : EcPoint) : EcPoint :=
  match a, b with
  | none, b => b
  | a, none => a
  | some (x1, y1), some (x2, y2) =>
    if x1 == x2 && (y1 + y2) % ecP == 0 then none
    else
      let l :=
        if x1 == x2 then (3 * (x1 * x1 + ecP * ecP - 1)) % ecP * invMod ecP (2 * y1) % ecP
        else (y2 + ecP - y1) * invMod ecP (x2 + ecP - x1) % ecP
      let x3 := (l * l + 2 * ecP - x1 - x2) % ecP
      some (x3, (l * (x1 + ecP - x3) + ecP - y1) % ecP)

/-- A multiple of a point, by the bits of the factor from bit `k - 1` down. -/
def ecMul (p : EcPoint) (e : Nat) : Nat → EcPoint → EcPoint
  | 0, r => r
  | k + 1, r => ecMul p e k (let q := ecAdd r r; if bit e k then ecAdd q p else q)

/-- Whether a signature (r, s) over a 32-byte digest verifies under the key (x, y). -/
def ecdsaOk (digest qx qy r s : List Byte) : Bool :=
  let x := ofBe qx
  let y := ofBe qy
  let r := ofBe r
  let s := ofBe s
  let onCurve := x < ecP && y < ecP && y * y % ecP == (x * x * x + 3 * ecP * ecP + ecB - 3 * x) % ecP
  onCurve && 1 ≤ r && r < ecN && 1 ≤ s && s < ecN &&
    (let w := invMod ecN s
     let u1 := ofBe digest * w % ecN
     let u2 := r * w % ecN
     match ecAdd (ecMul ecG u1 256 none) (ecMul (some (x, y)) u2 256 none) with
     | none => false
     | some (v, _) => v % ecN == r)

end Sys2Proof.Machine
end

