-- ==== Sys2Proof/Decode.lean ====
section
/-! DEFINITION. The words of Dyrel, R239-R242: the decoder, total on every word, and the encoder of the instructions it
yields. The operation table gives its rows no bits, so decodeTableWord answers none. -/

namespace Sys2Proof

/-! ### Fields, R240 -/

/-- The major opcode. -/
def opField (w : Word) : BitVec 6 := w.extractLsb' 26 6

/-- Register fields d, a and b. -/
def dField (w : Word) : Reg := w.extractLsb' 22 4
def aField (w : Word) : Reg := w.extractLsb' 18 4
def bField (w : Word) : Reg := w.extractLsb' 14 4

/-- The operands of each form. -/
def formA (w : Word) : OpA := { d := dField w, a := aField w, b := bField w, fn := w.extractLsb' 0 14 }
def formI (w : Word) : OpI := { d := dField w, a := aField w, imm := w.extractLsb' 0 18 }
def formB (w : Word) : OpB := { cond := w.extractLsb' 22 4, off := w.extractLsb' 0 22 }
def formP (w : Word) : OpP := { d := dField w, a := aField w, plane := w.extractLsb' 12 6, fn := w.extractLsb' 0 12 }
def formR (w : Word) : OpR :=
  { d := dField w, a := aField w, b := bField w, s := w.getLsbD 13, rsv := w.extractLsb' 5 8 }
def formT (w : Word) : OpT := { d := dField w, a := aField w, b := bField w, off := w.extractLsb' 0 12 }
def formL (w : Word) : OpL :=
  { d := dField w, a := aField w, b := bField w, hi := w.extractLsb' 6 8, lo := w.extractLsb' 0 5 }
def formS (w : Word) : OpS := { d := dField w, a := aField w, b := bField w, rsv := w.extractLsb' 4 10 }
def formM (w : Word) : OpM := { d := dField w, a := aField w, b := bField w, rsv := w.extractLsb' 1 13 }

/-! ### The decoder -/

/-- Opcode 0x00, by fn[4:0] (R247). -/
def decodeAlu (w : Word) : Instr :=
  match (w.extractLsb' 0 5).toNat with
  | 0 => .add (formR w)
  | 1 => .sub (formR w)
  | 2 => .and (formR w)
  | 3 => .or (formR w)
  | 4 => .xor (formR w)
  | 5 => .shl (formR w)
  | 6 => .shr (formR w)
  | 7 => .sar (formR w)
  | 8 => .mul (formR w)
  | 9 => .mulh (formR w)
  | 10 => .mulhu (formR w)
  | 11 => .min (formR w)
  | 12 => .max (formR w)
  | 13 => .minu (formR w)
  | 14 => .maxu (formR w)
  | 15 => .adc (formR w)
  | 16 => .sbc (formR w)
  | 17 => .abs (formR w)
  | 18 => .clz (formR w)
  | 19 => .popc (formR w)
  | 20 => .sat16 (formR w)
  | 21 => .andn (formR w)
  | _ => .reservedOpcode w

/-- Opcode 0x15, by fn[13:12] (R250). -/
def decodeStore (w : Word) : Instr :=
  match (w.extractLsb' 12 2).toNat with
  | 0 => .stw (formT w)
  | 1 => .sth (formT w)
  | 2 => .stb (formT w)
  | _ => .reservedOpcode w

/-- Opcode 0x3C, by fn[3:0] (R265). -/
def decodeSys (w : Word) : Instr :=
  match (w.extractLsb' 0 4).toNat with
  | 0 => .sysLedger (formS w)
  | 1 => .sysFan (formS w)
  | 2 => .sysBacklight (formS w)
  | 3 => .sysProfile (formS w)
  | 4 => .sysFreeze (formS w)
  | 5 => .sysCalrd (formS w)
  | _ => .reservedOpcode w

/-- The instruction that a word is: every word is one, a reserved encoding the one that is always illegal (R242). -/
def decodeWord (w : Word) : Instr :=
  match (opField w).toNat with
  | 0 => decodeAlu w
  | 1 => .addi (formI w)
  | 2 => .andi (formI w)
  | 3 => .ori (formI w)
  | 4 => .xori (formI w)
  | 5 => .shli (formI w)
  | 6 => .shri (formI w)
  | 7 => .sari (formI w)
  | 8 => .muli (formI w)
  | 9 => .cmpi (formI w)
  | 10 => .lui (formI w)
  | 11 => .mini (formI w)
  | 12 => .maxi (formI w)
  | 13 => .tsti (formI w)
  | 14 => .csel (formA w)
  | 16 => .ldw (formI w)
  | 17 => .ldh (formI w)
  | 18 => .ldhu (formI w)
  | 19 => .ldb (formI w)
  | 20 => .ldbu (formI w)
  | 21 => decodeStore w
  | 22 => .bCond (formB w)
  | 23 => .callCond (formB w)
  | 24 => .jmp (formI w)
  | 25 => .loop (formI w)
  | 26 => .bz (formI w)
  | 27 => .bnz (formI w)
  | 32 => .pld (formP w)
  | 33 => .pred (formP w)
  | 34 => .pcnt (formP w)
  | 35 => .pcent (formP w)
  | 36 => .pcopy (formP w)
  | 44 => .cnext (formA w)
  | 45 => .cget (formA w)
  | 46 => .cdist (formA w)
  | 47 => .cin (formA w)
  | 48 => .ccount (formA w)
  | 52 => .emit (formA w)
  | 53 => .mailp (formA w)
  | 54 => .mailack (formA w)
  | 56 => if w.getLsbD 5 then .leaveRelease (formL w) else .leave (formL w)
  | 57 => .yield (formA w)
  | 58 => .time (formA w)
  | 59 => if w.getLsbD 5 then .spanReceive (formL w) else .spanSend (formL w)
  | 60 => decodeSys w
  | 61 => if w.getLsbD 0 then .memPoll (formM w) else .memStart (formM w)
  | 62 => .brk (w.extractLsb' 0 26)
  | _ => .reservedOpcode w

/-! ### The encoder -/

def wordA (op : BitVec 6) (o : OpA) : Word := op ++ o.d ++ o.a ++ o.b ++ o.fn
def wordI' (op : BitVec 6) (o : OpI) : Word := op ++ o.d ++ o.a ++ o.imm
def wordB (op : BitVec 6) (o : OpB) : Word := op ++ o.cond ++ o.off
def wordP (op : BitVec 6) (o : OpP) : Word := op ++ o.d ++ o.a ++ o.plane ++ o.fn
def wordR (fn : BitVec 5) (o : OpR) : Word := 0#6 ++ o.d ++ o.a ++ o.b ++ BitVec.ofBool o.s ++ o.rsv ++ fn
def wordT (k : BitVec 2) (o : OpT) : Word := 0x15#6 ++ o.d ++ o.a ++ o.b ++ k ++ o.off
def wordL (op : BitVec 6) (k : BitVec 1) (o : OpL) : Word := op ++ o.d ++ o.a ++ o.b ++ o.hi ++ k ++ o.lo
def wordS (k : BitVec 4) (o : OpS) : Word := 0x3C#6 ++ o.d ++ o.a ++ o.b ++ o.rsv ++ k
def wordM (k : BitVec 1) (o : OpM) : Word := 0x3D#6 ++ o.d ++ o.a ++ o.b ++ o.rsv ++ k

/-- The word of a Dyrel instruction; a command that is no instruction has none. -/
def encodeWord (i : Instr) : Option Word :=
  match i with
  | .add o => some (wordR 0#5 o)
  | .sub o => some (wordR 1#5 o)
  | .and o => some (wordR 2#5 o)
  | .or o => some (wordR 3#5 o)
  | .xor o => some (wordR 4#5 o)
  | .shl o => some (wordR 5#5 o)
  | .shr o => some (wordR 6#5 o)
  | .sar o => some (wordR 7#5 o)
  | .mul o => some (wordR 8#5 o)
  | .mulh o => some (wordR 9#5 o)
  | .mulhu o => some (wordR 10#5 o)
  | .min o => some (wordR 11#5 o)
  | .max o => some (wordR 12#5 o)
  | .minu o => some (wordR 13#5 o)
  | .maxu o => some (wordR 14#5 o)
  | .adc o => some (wordR 15#5 o)
  | .sbc o => some (wordR 16#5 o)
  | .abs o => some (wordR 17#5 o)
  | .clz o => some (wordR 18#5 o)
  | .popc o => some (wordR 19#5 o)
  | .sat16 o => some (wordR 20#5 o)
  | .andn o => some (wordR 21#5 o)
  | .addi o => some (wordI' 0x01#6 o)
  | .andi o => some (wordI' 0x02#6 o)
  | .ori o => some (wordI' 0x03#6 o)
  | .xori o => some (wordI' 0x04#6 o)
  | .shli o => some (wordI' 0x05#6 o)
  | .shri o => some (wordI' 0x06#6 o)
  | .sari o => some (wordI' 0x07#6 o)
  | .muli o => some (wordI' 0x08#6 o)
  | .cmpi o => some (wordI' 0x09#6 o)
  | .lui o => some (wordI' 0x0A#6 o)
  | .mini o => some (wordI' 0x0B#6 o)
  | .maxi o => some (wordI' 0x0C#6 o)
  | .tsti o => some (wordI' 0x0D#6 o)
  | .ldw o => some (wordI' 0x10#6 o)
  | .ldh o => some (wordI' 0x11#6 o)
  | .ldhu o => some (wordI' 0x12#6 o)
  | .ldb o => some (wordI' 0x13#6 o)
  | .ldbu o => some (wordI' 0x14#6 o)
  | .jmp o => some (wordI' 0x18#6 o)
  | .loop o => some (wordI' 0x19#6 o)
  | .bz o => some (wordI' 0x1A#6 o)
  | .bnz o => some (wordI' 0x1B#6 o)
  | .csel o => some (wordA 0x0E#6 o)
  | .cnext o => some (wordA 0x2C#6 o)
  | .cget o => some (wordA 0x2D#6 o)
  | .cdist o => some (wordA 0x2E#6 o)
  | .cin o => some (wordA 0x2F#6 o)
  | .ccount o => some (wordA 0x30#6 o)
  | .emit o => some (wordA 0x34#6 o)
  | .mailp o => some (wordA 0x35#6 o)
  | .mailack o => some (wordA 0x36#6 o)
  | .yield o => some (wordA 0x39#6 o)
  | .time o => some (wordA 0x3A#6 o)
  | .bCond o => some (wordB 0x16#6 o)
  | .callCond o => some (wordB 0x17#6 o)
  | .pld o => some (wordP 0x20#6 o)
  | .pred o => some (wordP 0x21#6 o)
  | .pcnt o => some (wordP 0x22#6 o)
  | .pcent o => some (wordP 0x23#6 o)
  | .pcopy o => some (wordP 0x24#6 o)
  | .stw o => some (wordT 0#2 o)
  | .sth o => some (wordT 1#2 o)
  | .stb o => some (wordT 2#2 o)
  | .sysLedger o => some (wordS 0#4 o)
  | .sysFan o => some (wordS 1#4 o)
  | .sysBacklight o => some (wordS 2#4 o)
  | .sysProfile o => some (wordS 3#4 o)
  | .sysFreeze o => some (wordS 4#4 o)
  | .sysCalrd o => some (wordS 5#4 o)
  | .leave o => some (wordL 0x38#6 0#1 o)
  | .leaveRelease o => some (wordL 0x38#6 1#1 o)
  | .spanSend o => some (wordL 0x3B#6 0#1 o)
  | .spanReceive o => some (wordL 0x3B#6 1#1 o)
  | .memStart o => some (wordM 0#1 o)
  | .memPoll o => some (wordM 1#1 o)
  | .brk r => some (0x3E#6 ++ r)
  | .reservedOpcode w => some w
  | _ => none

/-- The command that a word spells by the bits of the operation table: the table gives its rows none. -/
def decodeTableWord (_nbits _w : Nat) : Option Instr := none

end Sys2Proof
end

