-- ==== Sys2Proof/Machine/Flags.lean ====
section
/-! DEFINITION. Dyrel arithmetic with its flags, and the conditions (R243, R244, R247). -/

namespace Sys2Proof.Machine
open Sys2Proof

/-- A result with the C and V that go with it; Z and N follow from the value (R244). -/
structure Alu where
  val : Word
  c : Bool
  v : Bool
  deriving DecidableEq, Repr

/-- A result whose flags are "ZN": C and V are cleared. -/
def aluZN (w : Word) : Alu := { val := w, c := false, v := false }

/-- Whether a number fits in 32 signed bits. -/
def fitsS (x : Int) : Bool := -2147483648 ≤ x && x ≤ 2147483647

/-- a + b + c: C is the carry out of bit 31. -/
def aluAdd (a b : Word) (cin : Bool) : Alu :=
  { val := a + b + BitVec.ofNat 32 (flag cin)
    c := 2 ^ 32 ≤ a.toNat + b.toNat + flag cin
    v := !fitsS (a.toInt + b.toInt + (flag cin : Nat)) }

/-- a - b - borrow: C is 1 when no borrow comes out. -/
def aluSub (a b : Word) (borrow : Bool) : Alu :=
  { val := a - b - BitVec.ofNat 32 (flag borrow)
    c := b.toNat + flag borrow ≤ a.toNat
    v := !fitsS (a.toInt - b.toInt - (flag borrow : Nat)) }

/-- Left shift by 0 to 31: C is the last bit shifted out. -/
def aluShl (a : Word) (n : Nat) : Alu :=
  { val := a <<< n, c := n != 0 && a.getLsbD (32 - n), v := false }

/-- Logical right shift. -/
def aluShr (a : Word) (n : Nat) : Alu :=
  { val := a >>> n, c := n != 0 && a.getLsbD (n - 1), v := false }

/-- Arithmetic right shift. -/
def aluSar (a : Word) (n : Nat) : Alu :=
  { val := a.sshiftRight n, c := n != 0 && a.getLsbD (n - 1), v := false }

/-- Low 32 bits of a product: V when the signed product does not fit. -/
def aluMul (a b : Word) : Alu := { val := a * b, c := false, v := !fitsS (a.toInt * b.toInt) }

/-- High 32 bits of the signed product. -/
def aluMulh (a b : Word) : Alu := aluZN (BitVec.ofInt 32 (Int.fdiv (a.toInt * b.toInt) (2 ^ 32)))

/-- High 32 bits of the unsigned product. -/
def aluMulhu (a b : Word) : Alu := aluZN (BitVec.ofNat 32 (a.toNat * b.toNat / 2 ^ 32))

/-- Signed and unsigned minimum and maximum. -/
def aluMin (a b : Word) : Alu := aluZN (if a.slt b then a else b)
def aluMax (a b : Word) : Alu := aluZN (if a.slt b then b else a)
def aluMinu (a b : Word) : Alu := aluZN (if a.ult b then a else b)
def aluMaxu (a b : Word) : Alu := aluZN (if a.ult b then b else a)

/-- Absolute value: the most negative word stays and sets V. -/
def aluAbs (a : Word) : Alu :=
  { val := if a.msb then -a else a, c := false, v := a == 0x80000000#32 }

/-- Leading zeros, by bits from `k` down. -/
def clzGo (a : Word) : Nat → Nat
  | 0 => 0
  | k + 1 => if a.getLsbD k then 0 else clzGo a k + 1

/-- Leading zeros, 32 for 0. -/
def aluClz (a : Word) : Alu := aluZN (BitVec.ofNat 32 (clzGo a 32))

/-- Set bits. -/
def aluPopc (a : Word) : Alu := aluZN (BitVec.ofNat 32 (popN 32 a.toNat))

/-- Clamp to 16 signed bits: V when clamped. -/
def aluSat16 (a : Word) : Alu :=
  { val := BitVec.ofInt 32 (sat16 a.toInt), c := false, v := sat16 a.toInt != a.toInt }

/-- A condition of R243 on the flags; reserved codes hold of nothing. -/
def condHolds (z n c v : Bool) (code : Nat) : Bool :=
  match code with
  | 0 => z
  | 1 => !z
  | 2 => n != v
  | 3 => n == v
  | 4 => !c
  | 5 => c
  | 6 => n
  | 7 => !n
  | 8 => v
  | 9 => !v
  | 10 => !z && n == v
  | 11 => z || n != v
  | 12 => true
  | _ => false

end Sys2Proof.Machine
end

