-- ==== Sys2Proof/Machine/Geometry.lean ====
section
/-! DEFINITION. Tile geometry: placement of a tile on the surface, seams and edges (R176, R432, R433). Lengths are in
0.1 mm, positions within a tile in 1/65536 of it. -/

namespace Sys2Proof.Machine
open Sys2Proof

/-- The configuration record in force for geometry: the span's for a member or an island, the default otherwise. -/
def State.geom (s : State) : List Byte := if s.inSpan || s.span.split then s.span.config else spanDefault

/-- The position in force for geometry. -/
def State.tilePos (s : State) : Nat := if s.inSpan || s.span.split then s.pins.gpos else 0

/-- Fields of a configuration record, R464. -/
def cfgW (c : List Byte) : Nat := max 1 (byteAt c 1)
def cfgH (c : List Byte) : Nat := max 1 (byteAt c 2)
def cfgPitch (c : List Byte) : Nat := byteAt c 3
def cfgCW (c : List Byte) : Nat := leAt c 4 2
def cfgCH (c : List Byte) : Nat := leAt c 6 2
def cfgPresent (c : List Byte) (p : Nat) : Bool := bit (leAt c 8 2) p
def cfgRot (c : List Byte) (p : Nat) : Nat := byteAt c (10 + p) % 4
def cfgMirror (c : List Byte) (p : Nat) : Bool := bit (byteAt c (10 + p)) 2

/-- The colour of a tile, R440: set in the record, or by its cell. -/
def cfgColour (c : List Byte) (p : Nat) : Nat :=
  let g := byteAt c (10 + p)
  if bit g 5 then bits g 3 2 else p % cfgW c % 2 + 2 * (p / cfgW c % 2)

/-- Extent of a tile along the surface's x and y, R432. -/
def cfgExtent (c : List Byte) (p : Nat) : Nat × Nat :=
  let tw := 64 * cfgPitch c
  let th := 40 * cfgPitch c
  if cfgRot c p % 2 == 0 then (tw, th) else (th, tw)

/-- The pitch in force. -/
def State.pitch (s : State) : Nat := cfgPitch s.geom

/-- The centre of a node in the tile's own frame, R176. -/
def nodeX (pitch i : Nat) : Int := ((2 * (i / 40) + 1) * pitch * 32768 : Nat)
def nodeY (pitch i : Nat) : Int := ((2 * (i % 40) + 1) * pitch * 32768 : Nat)

/-- A point of a tile in the surface's frame, R432. -/
def placeAt (c : List Byte) (p : Nat) (x y : Int) : Int × Int :=
  let tw : Int := 64 * cfgPitch c * 65536
  let th : Int := 40 * cfgPitch c * 65536
  let x0 : Int := (p % cfgW c) * cfgCW c * 65536
  let y0 : Int := (p / cfgW c) * cfgCH c * 65536
  let u := if cfgMirror c p then tw - x else x
  match cfgRot c p with
  | 0 => (x0 + u, y0 + y)
  | 1 => (x0 + th - y, y0 + u)
  | 2 => (x0 + tw - u, y0 + th - y)
  | _ => (x0 + y, y0 + tw - u)

/-- Span-global x and y in 0.1 mm: rounded, limited to the surface (R176). -/
def globalPos (s : State) (x y : Int) : Nat × Nat :=
  let c := s.geom
  let (gx, gy) := placeAt c s.tilePos x y
  ((clampI 0 (min 65535 (cfgW c * cfgCW c) : Nat) (roundDiv gx 65536)).toNat,
   (clampI 0 (min 65535 (cfgH c * cfgCH c) : Nat) (roundDiv gy 65536)).toNat)

/-- The sides of a tile that lie at a seam, in the surface's frame: left, right, low y, high y (R433). -/
def seamSides (c : List Byte) (p : Nat) : List Bool :=
  let w := cfgW c
  let col := p % w
  let row := p / w
  let ext := cfgExtent c p
  let near (q : Nat) (gap : Nat) : Bool := cfgPresent c q && gap ≤ cfgPitch c
  [ 0 < col && near (p - 1) (cfgCW c - (cfgExtent c (p - 1)).1),
    col + 1 < w && near (p + 1) (cfgCW c - ext.1),
    0 < row && near (p - w) (cfgCH c - (cfgExtent c (p - w)).2),
    row + 1 < cfgH c && near (p + w) (cfgCH c - ext.2) ]

/-- Distance of a point of a tile from each of its sides in the surface's frame. -/
def sideDist (c : List Byte) (p : Nat) (x y : Int) : List Int :=
  let (gx, gy) := placeAt c p x y
  let x0 : Int := (p % cfgW c) * cfgCW c * 65536
  let y0 : Int := (p / cfgW c) * cfgCH c * 65536
  let e := cfgExtent c p
  [gx - x0, x0 + e.1 * 65536 - gx, gy - y0, y0 + e.2 * 65536 - gy]

/-- Whether a node lies at a seam: within 2 pitches of it (R433). -/
def atSeam (c : List Byte) (p i : Nat) : Bool :=
  let ds := sideDist c p (nodeX (cfgPitch c) i) (nodeY (cfgPitch c) i)
  ((seamSides c p).zip ds).any (fun (b, d) => b && d ≤ 2 * cfgPitch c * 65536)

/-- Whether a node lies on the outermost row or column of the sensing surface (R177): on a side of the tile that is no
seam. -/
def atEdge (c : List Byte) (p i : Nat) : Bool :=
  let ds := sideDist c p (nodeX (cfgPitch c) i) (nodeY (cfgPitch c) i)
  ((seamSides c p).zip ds).any (fun (b, d) => !b && d < cfgPitch c * 65536)

/-- Squared distance. -/
def dist2 (x y x' y' : Int) : Nat := absN (x - x') ^ 2 + absN (y - y') ^ 2

/-- Squared distance of two nodes in pitches. -/
def nodeDist2 (i j : Nat) : Nat := dist2 (i / 40 : Nat) (i % 40 : Nat) (j / 40 : Nat) (j % 40 : Nat)

/-- The up to 8 neighbours of a node on the tile. -/
def nbrs8 (i : Nat) : List Nat :=
  let t := i / 40
  let r := i % 40
  ([(0, 0), (0, 1), (0, 2), (1, 0), (1, 2), (2, 0), (2, 1), (2, 2)] : List (Nat × Nat)).filterMap (fun (a, b) =>
    if 1 ≤ t + a && t + a ≤ 64 && 1 ≤ r + b && r + b ≤ 40 then some ((t + a - 1) * 40 + (r + b - 1)) else none)

end Sys2Proof.Machine
end

