-- ==== Sys2Proof/Machine/Pipeline.lean ====
section
/-! DEFINITION. From image to contacts: film, classes, surface state, blobs and palms, matching, confirmation, positions,
the quiet map and the approach decision (R163-R186).
Conventions that the spec leaves open: log 19, log 20 (DESIGN CHOICE), log 25 (DEDUCED). -/

namespace Sys2Proof.Machine
open Sys2Proof

/-! ### Film, FILM and DELTA, R164, R165 -/

/-- One with the 32 fractional bits that the estimate carries. -/
def fx : Int := 2 ^ 32

/-- The film estimate of one node, R164: the film in I counts and the residue in I counts, both with 32 fractional bits.
`nu` has 4 fractional bits; `rho` is BCYC/CYC. -/
def filmNode (dual wetLine : Bool) (nu : Nat) (rho : Int) (bia bqa bib bqb ia qa ib qb : Int) : Int × Int :=
  let ma : Int := max (absN bia) 1
  let mb : Int := max (absN bib) 1
  let are := (bia - ia) * fx / ma
  let aim := (qa - bqa) * fx / ma
  let bre := (bib - ib) * fx / mb
  let bim := (qb - bqb) * fx / mb
  let resid0 : Int := absN (bre - are) * ma
  if dual && (nu ≤ 8 * absN (qa - bqa) || wetLine) then
    let m := if aim == 0 then rho else bim * fx / aim
    let u :=
      if m * rho ≤ fx * fx then 10 * fx
      else if rho ≤ m then fx / 10
      else
        let den := rho * (m * rho / fx - fx) / fx
        if den ≤ 0 then 10 * fx
        else clampI (fx / 10) (10 * fx) (isqrt (((rho - m) * fx / den) * fx).toNat)
    let u2 := u * u / fx
    let h := aim * (fx + u2) / u
    let q := fx + rho * rho / fx * u2 / fx
    let fa := h * fx / (fx + u2)
    let fb := h * fx / q
    let k := are - fa
    (fa * ma, (absN (bre - fb - k) + absN (bim - h * rho / fx * u / fx * fx / q) : Nat) * ma)
  else (0, resid0)

/-- What the estimate leaves for one node. -/
structure NodeImage where
  filt : Int
  film : Int
  delta : Int
  resid : Nat
  deriving DecidableEq, Repr

/-- The estimator runs (R165): tone B is on and FILM is accepted. -/
def State.filmOn (s : State) : Bool := 0 < s.planes.comp.appB && s.feat 2

/-- Whether a line is loaded by a film (R164). -/
def wetLine (s : State) : Array Bool :=
  let b := s.planes.comp
  let on := b.charge && s.feat 1 && s.cal.d.capturedC
  let q := (b.stxQ ++ b.srxQ).toArray
  let c := s.cal.d.cbQ.toArray
  ((List.range 104).map (fun l => on && 64 ≤ at_ q l - at_ c l)).toArray

/-- Nodes within 1 pitch of the peak of a candidate or contact of the previous frame (R164). -/
def frozenNodes (s : State) : Array Bool :=
  let ps := s.pipe.cands.map (·.peak) ++ s.pipe.contacts.map (·.peak)
  ((List.range 2560).map (fun i => ps.any (fun p => nodeDist2 i p ≤ 1))).toArray

/-- The baselines that the estimate needs are captured: tone B's too while it takes part (R165, R193). -/
def State.baseOn (s : State) : Bool := s.cal.d.captured && (!s.filmOn || s.cal.d.capturedB)

/-- Film, `FILM`, `DELTA` and the residue of every node (R164, R165). A hop frame leaves `filt` as it is. -/
def filmImage (s : State) : List NodeImage :=
  let b := s.planes.comp
  let d := s.cal.d
  let dual := s.filmOn
  let p := s.prof
  let rho : Int := (p.bcyc : Int) * fx / max 1 p.cyc
  let wl := wetLine s
  let fz := frozenNodes s
  let (ia, qa, ib, qb) := (b.ia.toArray, b.qa.toArray, b.ib.toArray, b.qb.toArray)
  let (bia, bqa, bib, bqb) := (d.bia.toArray, d.bqa.toArray, d.bib.toArray, d.bqb.toArray)
  let nus := ((List.range 40).map (fun r => Int.ofNat (s.nu r))).toArray
  let filt := s.pipe.filt.toArray
  (List.range 2560).map (fun i =>
    let nu := (at_ nus (i % 40)).toNat
    if nu == 0 || !s.baseOn then { filt := 0, film := 0, delta := 0, resid := 0 }
    else
      let (f, r) := filmNode dual (wl.getD (i / 40) false || wl.getD (64 + i % 40) false) nu rho
        (at_ bia i) (at_ bqa i) (at_ bib i) (at_ bqb i) (at_ ia i) (at_ qa i) (at_ ib i) (at_ qb i)
      let old := at_ filt i
      let new := if b.hop || fz.getD i false then old else old + (f - old) / 4
      let w := if s.pipe.surface.wet then new else 0
      { filt := new
        film := if dual then sat16 (roundDiv (256 * new) (nu * 2 ^ 32)) else 0
        delta := sat16 (roundDiv (256 * ((at_ bia i - at_ ia i) * fx - w)) (nu * 2 ^ 32))
        resid := if dual then (256 * r / (nu * fx)).toNat else 0 })

/-! ### Classes, R166 -/

/-- The marks of order 1 of a line or channel of the computed bank: open, clamped, clipped. -/
def txNoise (b : Bank) (t : Nat) : Bool :=
  getBit b.openTx t || bit (b.range.getD (40 + t) 0) 7 || bit (b.range.getD (40 + t) 0) 5
def rxNoise (b : Bank) (r : Nat) : Bool :=
  getBit b.openRx r || bit (b.range.getD (104 + r) 0) 7 || bit (b.range.getD (104 + r) 0) 5 || bit (b.range.getD r 0) 5

/-- The class of a node before palms and shadows. `nu` has 4 fractional bits, so 4 nu counts are `nu` / 4. -/
def classOf (noise valid dual glove : Bool) (thr : Nat) (nu : Nat) (qd : Nat) (x : NodeImage) : Nat :=
  if noise then 4
  else if !valid then 0
  else if 64 ≤ x.resid then 4
  else if (thr : Int) ≤ x.delta then 1
  else if glove && (3 * thr / 8 : Nat) ≤ x.delta then 2
  else if 48 ≤ absN x.film || x.delta ≤ -64 || (!dual && nu ≤ 4 * qd) then 3
  else 0

/-- The classes of all nodes. -/
def classes (s : State) (xs : List NodeImage) : List Nat :=
  let b := s.planes.comp
  let tx := ((List.range 64).map (txNoise b)).toArray
  let rx := ((List.range 40).map (rxNoise b)).toArray
  let th := s.cal.d.thr.toArray
  let qa := b.qa.toArray
  let bqa := s.cal.d.bqa.toArray
  let nus := ((List.range 40).map (fun r => Int.ofNat (s.nu r))).toArray
  xs.mapIdx (fun i x =>
    let nu := (at_ nus (i % 40)).toNat
    classOf (tx.getD (i / 40) false || rx.getD (i % 40) false) (0 < nu && s.baseOn) s.filmOn (s.feat 4)
      (th.getD i 128) nu (absN (at_ qa i - at_ bqa i)) x)

/-! ### The surface state, R167, R184 -/

/-- State code of a CAL record of the pipeline. -/
def surfaceCode (wet flooded : Bool) : Nat := if wet then (if flooded then 2 else 1) else 0

/-- A CAL record of the pipeline, R184: it reports sensed data, so it carries the time of the MUTUAL slot (R20). -/
def senseRec (sub item value : Nat) (s : State) : State :=
  putHouse s.frame.mutComp 0x50 ([b8 sub, b8 item] ++ le 2 value ++ le 4 s.frame.comp) s

/-- WET_ENTER: E at or above 12 in 2 counted frames; FLOOD_ENTER follows when half the tile is decided with it. -/
def wetEnter (s : State) : State :=
  let u := s.pipe.surface
  if u.nextWet || u.wetRun < 2 then s
  else
    let fl : Bool := 1280 ≤ u.e
    let s := { s with pipe.surface.nextWet := true, pipe.surface.wetRun := 0, pipe.surface.dryRun := 0,
                      pipe.surface.nextFlooded := fl }
    let s := senseRec 0x40 (surfaceCode true fl) u.e s
    if fl then senseRec 0x44 2 u.e s else s

/-- WET_LEAVE: E below 4 in 256 counted frames; FLOOD_LEAVE comes first. -/
def wetLeave (s : State) : State :=
  let u := s.pipe.surface
  if !u.nextWet || u.dryRun < 256 then s
  else
    let s := { s with pipe.surface.nextWet := false, pipe.surface.nextFlooded := false, pipe.surface.wetRun := 0,
                      pipe.surface.dryRun := 0 }
    let s := if u.nextFlooded then senseRec 0x45 0 u.e s else s
    senseRec 0x41 0 u.e s

/-- FLOODED while E is at or above half the tile. -/
def floodStep (s : State) : State :=
  let u := s.pipe.surface
  let fl : Bool := u.nextWet && 1280 ≤ u.e
  if fl == u.nextFlooded then s
  else senseRec (if fl then 0x44 else 0x45) (surfaceCode u.nextWet fl) u.e
    { s with pipe.surface.nextFlooded := fl }

/-- SWAMPED: noise and film on 90 % of the nodes in 8 counted frames. -/
def swampEnter (s : State) : State :=
  let u := s.pipe.surface
  if u.swamped || u.swampRun < 8 then s
  else senseRec 0x42 (surfaceCode u.wet u.flooded) u.swampCount
    { s with pipe.surface.swamped := true, pipe.surface.swampRun := 0, pipe.surface.clearRun := 0 }

/-- SWAMP_END: 8 counted frames below it. -/
def swampLeave (s : State) : State :=
  let u := s.pipe.surface
  if !u.swamped || u.clearRun < 8 then s
  else senseRec 0x43 (surfaceCode u.wet u.flooded) u.swampCount
    { s with pipe.surface.swamped := false, pipe.surface.swampRun := 0, pipe.surface.clearRun := 0 }

/-- The counts of one counted frame, and the changes they make due. -/
def surfaceStep (film : List Int) (cls : List Nat) (s : State) : State :=
  let e := (film.filter (fun f => 48 ≤ absN f)).length
  let n := (cls.filter (fun c => c == 3 || c == 4)).length
  let u := s.pipe.surface
  let s := { s with pipe.surface := { u with
    e := e
    wetRun := if s.filmOn && 12 ≤ e then u.wetRun + 1 else 0
    dryRun := if e < 4 then u.dryRun + 1 else 0
    swampHold := u.swamped
    swampCount := n
    swampRun := if 2304 ≤ n then u.swampRun + 1 else 0
    clearRun := if n < 2304 then u.clearRun + 1 else 0 } }
  swampLeave (swampEnter (floodStep (wetLeave (wetEnter s))))

/-! ### Blobs, peaks and palms, R168-R170 -/

/-- The 8-connected set of a node within a set, by a frontier; the set shrinks as nodes are taken. -/
def floodGo : Nat → Array Bool → List Nat → List Nat → Array Bool × List Nat
  | 0, set, _, acc => (set, acc)
  | _ + 1, set, [], acc => (set, acc)
  | n + 1, set, i :: fr, acc =>
    if set.getD i false then floodGo n (set.setIfInBounds i false) (nbrs8 i ++ fr) (i :: acc)
    else floodGo n set fr acc

/-- The blobs of a set, in order of their lowest node. -/
def blobsOf (set : Array Bool) : List (List Nat) :=
  ((List.range 2560).foldl (fun (acc : Array Bool × List (List Nat)) i =>
    if acc.1.getD i false then
      let (set, b) := floodGo 23041 acc.1 [i] []
      (set, b :: acc.2)
    else acc) (set, [])).2.reverse

/-- Whether node `i` stands above node `j`: the greater DELTA, the lower index among equals. -/
def above (d : Array Int) (i j : Nat) : Bool := at_ d j < at_ d i || (at_ d i == at_ d j && i < j)

/-- The topmost of some nodes, or a given one. -/
def topmost (d : Array Int) (i : Nat) (xs : List Nat) : Nat := xs.foldl (fun a j => if above d j a then j else a) i

/-- Steepest ascent within a blob. -/
def ascend (d : Array Int) (inBlob : Nat → Bool) : Nat → Nat → Nat
  | 0, i => i
  | n + 1, i =>
    let j := topmost d i ((nbrs8 i).filter inBlob)
    if j == i then i else ascend d inBlob n j

/-- The peak that a removed peak's nodes belong to. -/
def follow_ (rem : List (Nat × Nat)) : Nat → Nat → Nat
  | 0, i => i
  | n + 1, i => match rem.find? (fun x => x.1 == i) with
    | some x => follow_ rem n x.2
    | none => i

/-- The DELTA-weighted centroid of the 3 x 3 nodes around a peak, R176. -/
def centroid (pitch : Nat) (d : Array Int) (cls : Array Nat) (pk : Nat) : Int × Int × Int :=
  let pos (v : Int) : Int := max v 0
  let weight (i : Nat) : Int × Int :=
    if cls.getD i 0 == 4 then
      let nb := ((if 40 ≤ i then [i - 40] else []) ++ (if i + 40 < 2560 then [i + 40] else [])).filter
        (fun j => cls.getD j 0 != 4)
      match nb with
      | [] => (0, 1)
      | [a] => (pos (at_ d a), 1)
      | a :: b :: _ => (pos (at_ d a) + pos (at_ d b), 2)
    else (pos (at_ d i), 1)
  let ws := (pk :: nbrs8 pk).map (fun i => (i, (weight i).1 * 2 / (weight i).2))
  let sum := sumI (ws.map (·.2))
  if sum ≤ 0 then (nodeX pitch pk, nodeY pitch pk, 0)
  else (sumI (ws.map (fun (i, w) => w * nodeX pitch i)) / sum, sumI (ws.map (fun (i, w) => w * nodeY pitch i)) / sum,
        sum / 2)

/-- The major axis of a blob: the largest distance between two of its nodes, plus one pitch (R169). -/
def majorAxis (pitch : Nat) (blob : List Nat) : Int :=
  let m := blob.foldl (fun a i => blob.foldl (fun a j => max a (nodeDist2 i j)) a) 0
  (isqrt (pitch * pitch * m * 2 ^ 32) + pitch * 65536 : Nat)

/-- The fragments of a blob, R168, R169. -/
def fragsOf (palm : Bool) (pitch : Nat) (d : Array Int) (cls thr : Array Nat) (blob : List Nat) : List Frag :=
  let axis := majorAxis pitch blob
  let top (b : List Nat) : Nat := topmost d (b.headD 0) b
  if palm && (9 < blob.length || 400 * 65536 < axis) then
    let sum := sumI (blob.map (at_ d))
    let pk := top blob
    let c (f : Nat → Int) : Int := if sum ≤ 0 then f pk else sumI (blob.map (fun i => at_ d i * f i)) / sum
    [{ peak := pk, amp := at_ d pk, cls := 5, nodes := blob, x := c (nodeX pitch), y := c (nodeY pitch), axis := axis }]
  else
    let set := blob.foldl (fun (a : Array Bool) i => a.setIfInBounds i true) (Array.replicate 2560 false)
    let inBlob (i : Nat) : Bool := set.getD i false
    let peaks := blob.filter (fun i => ((nbrs8 i).filter inBlob).all (fun j => above d i j))
    let rem := peaks.filterMap (fun i =>
      match peaks.filter (fun j => above d j i && 4 * nodeDist2 i j ≤ 9) with
      | [] => none
      | j :: js => some (i, topmost d j js))
    let kept := sortBy Int.ofNat (peaks.filter (fun i => !rem.any (fun x => x.1 == i)))
    let owner (i : Nat) : Nat := follow_ rem 2560 (ascend d inBlob 2560 i)
    let owned := blob.map (fun i => (i, owner i))
    kept.map (fun pk =>
      let (x, y, _) := centroid pitch d cls pk
      { peak := pk, amp := at_ d pk, cls := if (thr.getD pk 128 : Int) ≤ at_ d pk then 1 else 2,
        nodes := (owned.filter (fun p => p.2 == pk)).map (·.1), x := x, y := y, axis := axis })

/-- Whether a node's centre lies in a shadow: within 0.75 of the major axis of its centre (R170). -/
def inShadow (pitch : Nat) (i : Nat) (h : Shadow) : Bool :=
  16 * dist2 (nodeX pitch i) (nodeY pitch i) h.x h.y ≤ 9 * absN h.axis ^ 2

/-- SHADOW_EXPIRE, R170: a shadow whose palm is gone and whose 8 counted frames have passed. -/
def shadowExpire (s : State) : State := { s with pipe.shadows := s.pipe.shadows.filter (fun h => h.live || 0 < h.left) }

/-- The shadows of a frame. `palms` gives each palm fragment with the number of the candidate or contact that it was matched
to or that it forms: a palm that formed it in an earlier frame moves its shadow, any other casts a new one, and the shadows
of no palm of the frame count down. -/
def shadowStep (counted : Bool) (palms : List (Frag × Nat)) (s : State) : State :=
  let moved (h : Shadow) : Bool := h.foreign.isNone && palms.any (fun p => p.2 == h.key)
  let s := { s with pipe.shadows := (s.pipe.shadows.filter (fun h => !moved h)).map (fun h => { h with live := false }) }
  let s := if counted then shadowExpire s else s
  let old := s.pipe.shadows.map (fun h => if counted then { h with left := h.left - 1 } else h)
  { s with pipe.shadows := palms.map (fun (f, k) =>
      { x := f.x, y := f.y, axis := f.axis, left := 8, key := k, foreign := none, amp := f.amp, live := true }) ++ old }

/-! ### Matching, R171, R175 -/

/-- Pairs taken in order, each side once. -/
def takePairs : List (Nat × Nat) → List (Nat × Nat) → List (Nat × Nat)
  | [], acc => acc
  | (a, b) :: ps, acc => if acc.any (fun x => x.1 == a || x.2 == b) then takePairs ps acc else takePairs ps ((a, b) :: acc)

/-- Contacts matched to fragments: the index of each. -/
def matchContacts (pitch : Nat) (cs : List Contact) (fs : List Frag) : List (Nat × Nat) :=
  let gate := 9 * (pitch * 65536) ^ 2
  let ps := (cs.mapIdx (fun i c => fs.mapIdx (fun j f =>
    (dist2 f.x f.y (c.x + c.dx) (c.y + c.dy), c.id, f.peak, i, j)))).flatten.filter (fun p => p.1 ≤ gate)
  takePairs ((sortBy (fun (p : Nat × Nat × Nat × Nat × Nat) => (p.1 * 2 ^ 24 + p.2.1 * 2 ^ 12 + p.2.2.1 : Nat)) ps).map
    (fun p => p.2.2.2)) []

/-- Candidates matched to the fragments that no contact took. A tie goes to the lower peak of the candidate, then of the
fragment: R171 does not say whose peak it means (DESIGN CHOICE, log 25). -/
def matchCands (cs : List Cand) (fs : List Frag) (used : List Nat) : List (Nat × Nat) :=
  let ps := (cs.mapIdx (fun i c => fs.mapIdx (fun j f =>
    (nodeDist2 f.peak c.peak, c.peak, f.peak, i, j)))).flatten.filter
      (fun p => 4 * p.1 ≤ 9 && !used.contains p.2.2.2.2)
  takePairs ((sortBy (fun (p : Nat × Nat × Nat × Nat × Nat) => (p.1 * 2 ^ 24 + p.2.1 * 2 ^ 12 + p.2.2.1 : Nat)) ps).map
    (fun p => p.2.2.2)) []

/-- The coast limit, R175. -/
def State.coastLimit (s : State) : Nat := if s.pipe.surface.wet then 3 else 2

/-- CONTACT_END, R175: contacts unmatched beyond their coast limit end; their IDs begin to be idle. -/
def contactEnd (s : State) : State :=
  let lim := s.coastLimit
  let gone := s.pipe.contacts.filter (fun c => lim < c.coast)
  { s with
    pipe.contacts := s.pipe.contacts.filter (fun c => c.coast ≤ lim)
    pipe.endedList := s.pipe.endedList ++ gone.map (fun c => { c with ended := true, coasted := false })
    pipe.idle := gone.foldl (fun l c => l.set c.id 0) s.pipe.idle }

/-- Whether the peak or a neighbour of it carries a mark arising from CLAMP (R172). -/
def clampNear (b : Bank) (pk : Nat) : Bool :=
  (pk :: nbrs8 pk).any (fun i => bit (b.range.getD (40 + i / 40) 0) 7 || bit (b.range.getD (104 + i % 40) 0) 7)

/-- A fragment as a new candidate. -/
def Frag.toCand (f : Frag) (key onset : Nat) (held : Bool) : Cand :=
  { key := key, peak := f.peak, amp := f.amp, cls := f.cls, count := 1, onset := onset, areaOk := f.nodes.length ≤ 9,
    nodes := f.nodes.length, x := f.x, y := f.y, axis := f.axis, matched := true, waiting := false, byForce := false,
    held := held, isNew := true }

/-- Step 5: contacts and candidates take their fragments; new candidates form in a counted frame once every nu is valid
(R171, R175, R180, R183, R193). Answers the palms with the numbers of what they were matched to or form. A candidate that
qualified by force and waits keeps that, so that its contact shows `FCONF` (DESIGN CHOICE, log 25). -/
def matchFrame (counted : Bool) (fs : List Frag) (s : State) : State × List (Frag × Nat) :=
  let b := s.planes.comp
  let pitch := s.pitch
  let mc := matchContacts pitch s.pipe.contacts fs
  let usedC := mc.map (·.2)
  let mk := matchCands s.pipe.cands fs usedC
  let used := usedC ++ mk.map (·.2)
  let partner (ps : List (Nat × Nat)) (i : Nat) : Option Frag := (ps.find? (fun p => p.1 == i)).bind (fun p => fs[p.2]?)
  let keyOf (j : Nat) : Nat := match mc.find? (fun p => p.2 == j), mk.find? (fun p => p.2 == j) with
    | some p, _ => ((s.pipe.contacts[p.1]?).map (·.key)).getD 0
    | none, some p => ((s.pipe.cands[p.1]?).map (·.key)).getD 0
    | none, none => s.pipe.keys + j
  let lim := s.coastLimit
  let contacts := s.pipe.contacts.mapIdx (fun i c => match partner mc i with
    | some f => { c with
        peak := f.peak, amp := f.amp, cls := f.cls, dx := f.x - c.x, dy := f.y - c.y, axis := f.axis, x := f.x, y := f.y,
        matched := true, coast := 0, coasted := false, still := 4 * dist2 f.x f.y c.x c.y < (pitch * 65536) ^ 2 }
    | none =>
      if !counted then { c with matched := false, coasted := false }
      else if c.coast < lim then
        { c with matched := false, coast := c.coast + 1, coasted := true, x := c.x + c.dx, y := c.y + c.dy, still := false }
      else { c with matched := false, coast := c.coast + 1 })
  let cands := s.pipe.cands.mapIdx (fun i c => match partner mk i with
    | some f => { c with
        peak := f.peak, amp := f.amp, cls := f.cls, nodes := f.nodes.length, x := f.x, y := f.y, axis := f.axis,
        areaOk := c.areaOk && (!counted || f.nodes.length ≤ 9)
        matched := true, isNew := false, byForce := c.byForce && c.waiting, held := !counted || clampNear b f.peak }
    | none => { c with matched := false, isNew := false, byForce := c.byForce && c.waiting, held := !counted || clampNear b c.peak })
  let free := (fs.mapIdx (fun j f => (j, f))).filter (fun x => !used.contains x.1)
  let rest := sortBy (fun (x : Nat × Frag) => -(x.2.amp * 4096) + x.2.peak) free
  let stay := (cands.filter (fun c => c.matched || c.held)).length
  let new := if counted && s.nuValid && s.cal.d.captured then
      (rest.take (32 - stay)).map (fun (j, f) => f.toCand (keyOf j) s.frame.mutComp (clampNear b f.peak))
    else []
  let palms := (fs.mapIdx (fun j f => (f, keyOf j))).filter (fun p => p.1.cls == 5)
  ({ s with pipe.contacts := contacts, pipe.cands := cands ++ new, pipe.frags := fs, pipe.keys := s.pipe.keys + fs.length },
   palms)

/-! ### Collisions, R182 -/

/-- Row 1: candidates within 1.5 pitches merge into the stronger, with the earlier onset and count. -/
def mergeCands : List Cand → List Cand → List Cand
  | [], kept => kept.reverse
  | c :: cs, kept =>
    if kept.any (fun k => 4 * nodeDist2 k.peak c.peak ≤ 9) then
      mergeCands cs (kept.map (fun k =>
        if 4 * nodeDist2 k.peak c.peak ≤ 9 && c.onset < k.onset then
          { k with onset := c.onset, count := c.count, isNew := c.isNew, waiting := k.waiting || c.waiting,
                   areaOk := k.areaOk && c.areaOk, held := k.held || c.held }
        else k))
    else mergeCands cs (c :: kept)

/-- The largest |FILM| of the film blobs that hold a neighbour of a peak, none without one (row 3). -/
def filmNear (film : Array Int) (cls : Array Nat) (pk : Nat) : Option Nat :=
  let set : Array Bool := ((List.range 2560).map (fun i => cls.getD i 0 == 3 && 48 ≤ absN (at_ film i))).toArray
  let seeds := (nbrs8 pk).filter (fun i => set.getD i false)
  if seeds.isEmpty then none
  else some (((floodGo 23041 set seeds []).2.map (fun i => absN (at_ film i))).foldl max 0)

/-- Row 3 for a candidate beside a film blob: `DELTA` with w = 1 still meets its class threshold, or no film blob is the
stronger. The blobs are of the classes of R166, before shadows. -/
def filmOk (s : State) (film : Array Int) (cls : Array Nat) (c : Cand) : Bool :=
  match filmNear film cls c.peak with
  | none => true
  | some f =>
    if (f : Int) ≤ c.amp then true
    else
      let nu := s.nu (c.peak % 40)
      let x := (s.cal.d.bia.getD c.peak 0 - s.planes.comp.ia.getD c.peak 0) * fx - s.pipe.filt.getD c.peak 0
      let d1 := sat16 (roundDiv (256 * x) (max 1 nu * 2 ^ 32))
      let t := s.cal.d.thr.getD c.peak 128
      ((if c.cls == 2 then 3 * t / 8 else t : Nat) : Int) ≤ d1

/-- The collision rule on the candidates of a counted frame. Candidates without a fragment, held ones, and those that wait
while the surface is swamped (R172, R184) take no part. A shadow governs before a film blob does. -/
def collide (s : State) : State :=
  let idle (c : Cand) : Bool := !c.matched || c.held || (c.waiting && (s.pipe.surface.swamped || s.pipe.surface.swampHold))
  let sorted := sortBy (fun (c : Cand) => -(c.amp * 4096) + c.peak) (s.pipe.cands.filter (fun c => !idle c))
  let film := s.planes.film.toArray
  let cls := s.planes.cls.toArray
  let stays (c : Cand) : Bool :=
    let hs := s.pipe.shadows.filter (inShadow s.pitch c.peak)
    if c.cls != 5 && !hs.isEmpty then !hs.any (fun h => c.amp < h.amp) else filmOk s film cls c
  { s with pipe.cands := s.pipe.cands.filter idle ++ (mergeCands sorted []).filter stays }

/-! ### Confirmation, R172-R174, R180 -/

/-- The counted frames that a candidate needs (R172); none for a glove whose area disqualifies it. -/
def required (s : State) (c : Cand) : Option Nat :=
  let wet := s.pipe.surface.wet
  if c.cls == 2 then (if s.feat 4 && c.areaOk then some (if wet then 5 else 4) else none)
  else some (if wet then 3 else 2)

/-- The rise of force that R173 asks for. -/
def forceRise (s : State) : Bool :=
  s.feat 3 && s.feat 4 && s.planes.forceEn.any id &&
    (List.range 4).all (fun n => !s.planes.forceEn.getD n false ||
      (s.planes.forceValid.getD n false && s.pipe.lastForceValid.getD n false)) &&
    50 ≤ s.fsum - s.fsumLast

/-- Step 6 up to the question of IDs: unmatched candidates drop, counts advance, the force rule is applied, and the
candidates that qualify wait. A held candidate keeps its count, and shares a rise of force with the others (R173). -/
def advanceCands (s : State) : State :=
  let kept := s.pipe.cands.filter (fun c => c.matched || c.held)
  let near (c : Cand) : Bool := c.cls == 2 && (c.isNew || c.count == 1)
  let lone := (kept.filter near).length == 1 && forceRise s
  let cs := kept.map (fun c =>
    if c.held then c
    else
      let byF := lone && near c
      let c := { c with
        count := if c.isNew || c.waiting then c.count else c.count + 1
        byForce := c.byForce || byF }
      let due := c.byForce || (match required s c with
        | some n => n ≤ c.count
        | none => false)
      { c with waiting := c.waiting || due })
  { s with pipe.cands := cs }

/-- A held frame for every candidate: they are as before the frame's collisions and counting (R446). -/
def holdCands (s : State) : State := { s with pipe.cands := s.pipe.before.map (fun c => { c with held := true }) }

/-- The frame is a held one for the candidate of one peak. -/
def holdPeak (pk : Nat) (s : State) : State :=
  let was (c : Cand) : Cand := ((s.pipe.before.find? (fun k => k.key == c.key)).getD c)
  { s with pipe.cands := s.pipe.cands.map (fun c => if c.peak == pk then { was c with held := true } else c) }

/-- Whether a rectangle holds a point (R220). -/
def Rect.holds (r : Rect) (x y : Nat) : Bool := r.x0 ≤ x && x < r.x1 && r.y0 ≤ y && y < r.y1

/-- The contexts that a contact is assigned to, R221. -/
def assignOf (s : State) (x y : Nat) : BitVec 32 :=
  let excl := s.running.filter (fun i => (s.ctx i).region.any (fun r => r.excl && r.holds x y))
  match excl with
  | i :: is =>
    let best := is.foldl (fun a j => if (s.ctx j).prio < (s.ctx a).prio then j else a) i
    BitVec.ofNat 32 (2 ^ best)
  | [] => maskOf 32 (fun i => (s.ctx i).st == 3 && (s.ctx i).region.any (fun r => r.holds x y))

/-- A candidate as a contact. -/
def Cand.toContact (s : State) (c : Cand) (id : Nat) : Contact :=
  let (gx, gy) := globalPos s c.x c.y
  { id := id, key := c.key, peak := c.peak, amp := c.amp, cls := c.cls, onset := c.onset, x := c.x, y := c.y, dx := 0, dy := 0,
    axis := c.axis, matched := true, coast := 0, coasted := false, fconf := c.byForce, edge := atEdge s.geom s.tilePos c.peak,
    isNew := true, ended := false, gx := gx, gy := gy, strength := (clampI 0 65535 c.amp).toNat,
    flags := pack [(3, c.cls), (1, flag c.byForce), (1, flag (atEdge s.geom s.tilePos c.peak)), (2, 0),
                   (1, flag s.pipe.surface.wet)],
    oldX := gx, oldY := gy,
    ctxs := assignOf s gx gy, age := 0, still := false }

/-- The configured positions of a span, and the rank of this part among them (R458). -/
def islandRank (s : State) : Nat × Nat :=
  let ps := filterIdx 16 (fun p => cfgPresent s.span.config p)
  (max 1 ps.length, (ps.filter (· < s.pins.gpos)).length)

/-- The most contacts held: 20, or an island's share (R180, R458). -/
def State.maxContacts (s : State) : Nat := if s.span.split then min 20 (64 / (islandRank s).1) else 20

/-- The lowest ID that meets R174, of an island's own when the span is split. -/
def freeId (s : State) : Option Nat :=
  let (m, k) := islandRank s
  (List.range 64).find? (fun i => !s.pipe.contacts.any (fun c => c.id == i) && 4 ≤ s.pipe.idle.getD i 0 &&
    (!s.span.split || i % m == k))

/-- Places free among the contacts; one that ended in this frame is free in the next (R180). -/
def State.places (s : State) : Nat :=
  s.maxContacts - (s.pipe.contacts.length + (s.pipe.endedList.filter (fun e => s.pipe.idle.getD e.id 4 == 0)).length)

/-- Confirms one waiting candidate if an ID and a place remain (R174, R180). -/
def confirmOne (s : State) (c : Cand) : State :=
  if s.places == 0 then s
  else match freeId s with
    | none => s
    | some id =>
      { s with
        pipe.cands := s.pipe.cands.filter (fun k => k.key != c.key)
        pipe.contacts := insertBy (fun k => Int.ofNat k.id) (c.toContact s id) s.pipe.contacts
        pipe.touches := s.pipe.touches + 1 }

/-- The candidates that qualify, highest amplitude first; none while the surface is swamped (R180, R184). -/
def dueCands (s : State) : List Cand :=
  if s.pipe.surface.swamped || s.pipe.surface.swampHold || !s.pipe.counted then []
  else sortBy (fun (c : Cand) => -(c.amp * 4096) + c.peak) (s.pipe.cands.filter (fun c => c.waiting && !c.held))

/-- CONFIRM_BY_COUNT, R172, R180, R184: the candidates that qualify are confirmed one at a time. In a span the leader issues
the IDs. -/
def confirmCands (s : State) : State := if s.inSpan then s else (dueCands s).foldl confirmOne s

/-! ### Positions, strength and flags, R176, R177 -/

/-- Shares of a force among contacts in proportion to amplitude; the remainder goes to the first (R177). -/
def shareForce (f : Nat) (amps : List Nat) : List Nat :=
  let tot := sumN amps
  let xs := amps.map (fun a => if tot == 0 then 0 else f * a / tot)
  match xs with
  | [] => []
  | x :: r => (x + (f - sumN xs)) :: r

/-- Step 7 for every contact: span-global position, strength and flags. The strength is a force where the force was valid at
K(N) (R177) and at K(N-1) (R183). -/
def placeContacts (s : State) : State :=
  let fv := s.feat 3 && s.fvalid && forceOk s.pipe.lastForceValid s.planes.forceEn
  let f := (clampI 0 65535 s.fsum).toNat
  let cs := s.pipe.contacts
  let strengths := if fv then shareForce f (cs.map (fun c => (max c.amp 0).toNat))
    else cs.map (fun c => (clampI 0 65535 c.amp).toNat)
  { s with pipe.contacts := cs.mapIdx (fun i c =>
      let (gx, gy) := globalPos s c.x c.y
      let edge := atEdge s.geom s.tilePos c.peak
      { c with
        oldX := if c.isNew then gx else c.oldX
        oldY := if c.isNew then gy else c.oldY
        gx := gx
        gy := gy
        edge := edge
        strength := strengths.getD i 0
        flags := pack [(3, c.cls), (1, flag c.fconf), (1, flag edge), (1, flag c.coasted), (1, flag fv),
                       (1, flag s.pipe.surface.wet)] }) }

/-! ### The quiet map and approach, R178, R179 -/

/-- Clears the nodes within 3 pitches of a point. -/
def clearDisc (pitch : Nat) (q : Array Bool) (x y : Int) : Array Bool :=
  let u : Int := pitch * 65536
  let t0 := x / u
  let r0 := y / u
  (List.range 9).foldl (fun q a => (List.range 9).foldl (fun q b =>
    let t := t0 + a - 4
    let r := r0 + b - 4
    if 0 ≤ t && t < 64 && 0 ≤ r && r < 40 then
      let i := (t * 40 + r).toNat
      if dist2 (nodeX pitch i) (nodeY pitch i) x y ≤ 9 * (pitch * 65536) ^ 2 then q.setIfInBounds i false else q
    else q) q) q

/-- The quiet map of a counted frame, R178, on the classes before palms and shadows. Any other frame's map is empty and
leaves the last counted frame's for R204. -/
def quietMap (s : State) : List Bool :=
  let q0 : Array Bool := (s.planes.cls.map (· != 4)).toArray
  let p := s.pitch
  let q := s.pipe.cands.foldl (fun q c => clearDisc p q (nodeX p c.peak) (nodeY p c.peak)) q0
  let q := s.pipe.contacts.foldl (fun q c => clearDisc p q c.x c.y) q
  let q := (s.pipe.frags.filter (fun f => f.cls == 5)).foldl (fun q f =>
    f.nodes.foldl (fun q i => clearDisc p q (nodeX p i) (nodeY p i)) q) q
  q.toList

/-- Whether a line rises, R179. -/
def lineRises (b : Bank) (d : CalData) (l : Nat) : Bool :=
  let i := (b.stxI ++ b.srxI).getD l 0 - d.cbI.getD l 0
  let q := (b.stxQ ++ b.srxQ).getD l 0 - d.cbQ.getD l 0
  96 ≤ i && 2 * q < i

/-- A transmit and a receive line rise. -/
def bankRises (s : State) (b : Bank) : Bool :=
  s.cal.d.capturedC && (List.range 64).any (lineRises b s.cal.d) && (List.range 40).any (fun r => lineRises b s.cal.d (64 + r))

/-- One sweep or counted frame of the approach decision. -/
def approachStep (rises : Bool) (s : State) : State :=
  let n := if rises then s.pipe.riseRun + 1 else 0
  { s with pipe.riseRun := n, pipe.approachDue := s.pipe.approachDue || n == 2 }

/-- The wake floor that a WAKE event raises (R42, R44). -/
def floorWake (s : State) : State :=
  if s.md.hibEntry then latchEntry 2 s
  else if s.aon.mode == .doze || s.aon.mode == .watch || s.aon.mode == .active then
    choose 0 (raiseFloor { s with aon.wakeSrc := setBit s.aon.wakeSrc 2 true })
  else s

/-- WAKE records that the house program queues for contexts whose WSET holds a bit, as records of the house (R37, R314). -/
def wakeEvents (k time : Nat) (s : State) : State :=
  let is := s.running.filter (fun i => getBit (s.ctx i).contract.wset k)
  let s := is.foldl (fun s i =>
    putCtx i { time := time, origin := 0x40, typ := 0x06, payload := fit 8 0 [b8 k] } s) s
  if is.isEmpty || s.framesRun then s else floorWake s

/-- APPROACH, R179: recognised once per run of rising sweeps or frames. -/
def approach (s : State) : State :=
  if s.pipe.approachDue then
    let time := if s.framesRun then s.frame.mutComp else s.clk.tb
    wakeEvents 0 time { s with pipe.approachDue := false }
  else s

/-! ### The pre-pass -/

/-- The palm and shadow classes of the CLASS plane, R169, R170. -/
def lateClasses (s : State) : State :=
  let palm := (s.pipe.frags.filter (fun f => f.cls == 5)).foldl (fun (a : Array Bool) f =>
    f.nodes.foldl (fun a i => a.setIfInBounds i true) a) (Array.replicate 2560 false)
  { s with planes.cls := s.planes.cls.mapIdx (fun i c =>
      if palm.getD i false then 5
      else if c != 4 && s.pipe.shadows.any (inShadow s.pitch i) then 6
      else c) }

/-- What every computed frame begins with: the surface state decided before it, idle IDs, and nothing new yet. -/
def beginPass (counted : Bool) (s : State) : State :=
  let u := s.pipe.surface
  { s with
    pipe.counted := counted
    pipe.endedList := if s.frame.first then s.pipe.endedList else []
    pipe.surface := if counted then { u with wet := u.nextWet, flooded := u.nextFlooded } else u
    pipe.idle := if counted then s.pipe.idle.mapIdx (fun i n =>
        if s.pipe.contacts.any (fun c => c.id == i) then n else min 4 (n + 1))
      else s.pipe.idle
    pipe.contacts := s.pipe.contacts.map (fun c => { c with isNew := false, age := min 255 (c.age + 1), oldX := c.gx, oldY := c.gy })
    pipe.cands := s.pipe.cands.map (fun c => { c with isNew := false })
    planes.frame := s.frame.comp }

/-- Steps 1 to 7 in a blind frame, R183: the planes read 0, candidates are held, contacts keep their state. -/
def blindPass (s : State) : State :=
  let cs := s.pipe.cands.map (fun c => { c with held := true, matched := true })
  { s with
    planes.film := List.replicate 2560 0
    planes.delta := List.replicate 2560 0
    planes.cls := List.replicate 2560 0
    pipe.resid := List.replicate 2560 0
    pipe.frags := []
    pipe.cands := cs
    pipe.before := cs
    pipe.contacts := s.pipe.contacts.map (fun c => { c with
      coasted := false, matched := false, flags := c.flags - 32 * flag (bit c.flags 5) }) }

/-- Steps 1 to 4, and the matching of step 5: planes, surface, fragments, what they match, shadows. -/
def imagePass (counted : Bool) (s : State) : State :=
  let xs := filmImage s
  let film := if s.planes.comp.hop then s.planes.film else xs.map (·.film)
  let delta := xs.map (·.delta)
  let cls := classes s (xs.zip film |>.map (fun (x, f) => { x with film := f }))
  let s := { s with planes.film := film, planes.delta := delta, planes.cls := cls, pipe.filt := xs.map (·.filt),
                    pipe.resid := xs.map (·.resid) }
  let s := if counted then surfaceStep film cls s else s
  let set : Array Bool := (cls.map (fun c => c == 1 || c == 2)).toArray
  let fs := (blobsOf set).flatMap (fragsOf (s.feat 5) s.pitch delta.toArray cls.toArray s.cal.d.thr.toArray)
  let (s, palms) := matchFrame counted fs s
  shadowStep counted palms (contactEnd s)

/-- The collisions of step 5, then steps 6 and 7. In a span the IDs of step 6 come with DECIDE. -/
def contactPass (counted : Bool) (s : State) : State :=
  let s := { s with pipe.before := s.pipe.cands }
  let s := if counted then confirmCands (advanceCands (collide s)) else s
  lateClasses (placeContacts s)

/-- The pre-pass, R17, R163: what calibration samples first, the steps of the pipeline, then what calibration takes from them.
The quiet map of step 8 is of the frame's candidates and contacts as step 7 leaves them, before any stitch decision. -/
def prePass (s : State) : State :=
  let s := wrote (regsFrom 0x3000 0x3000) s
  let b := s.planes.comp
  let valid := b.mutualOn && !b.minv
  let counted := valid && !b.hop
  let s := nuUpdate (nuSample (captures counted (hopTransfer (beginPass counted s))))
  let s := if valid then contactPass counted (imagePass counted s) else blindPass s
  let s := if counted then { s with pipe.quiet := quietMap s } else s
  let s := if counted then phaseFrame (tarnFrame true s) else s
  let s := if b.hop then s else forceFrame counted s
  if counted && s.feat 1 && b.charge then approach (approachStep (bankRises s b) s) else s

/-! ### The rows of the pipeline -/

def execWetEnter (s : State) : Host.Outcome State Fault Refusal := .next (wetEnter s)
def execWetLeave (s : State) : Host.Outcome State Fault Refusal := .next (wetLeave s)
def execSwamped (s : State) : Host.Outcome State Fault Refusal := .next (swampEnter s)
def execSwampEnd (s : State) : Host.Outcome State Fault Refusal := .next (swampLeave s)
def execShadowExpire (s : State) : Host.Outcome State Fault Refusal := .next (shadowExpire s)
def execConfirmByCount (s : State) : Host.Outcome State Fault Refusal := .next (confirmCands s)
def execContactEnd (s : State) : Host.Outcome State Fault Refusal := .next (contactEnd s)
def execApproach (s : State) : Host.Outcome State Fault Refusal := .next (approach s)

def execBaselineStep (s : State) : Host.Outcome State Fault Refusal := .next (baselineStep s)

end Sys2Proof.Machine
end

