-- ==== Sys2Proof/Machine/Contexts.lean ====
section
/-! DEFINITION. The contexts: resets, closing, the shelves, the contacts a context sees, the code store and its
compaction (R216-R238). -/

namespace Sys2Proof.Machine
open Sys2Proof

/-! ### Contacts as a context sees them -/

/-- Phase of a contact in the CONTACTS shelf, R223. -/
def phaseOf (c : Contact) : Nat := if c.ended then 3 else if c.isNew then 1 else 2

/-- The contacts of the part and those listed as ended in the frame (R175, R183). -/
def State.table (s : State) : List Contact := s.pipe.contacts ++ s.pipe.endedList

/-- The contact of an ID that a context sees: assigned to it, and owned by its member (R257). -/
def State.contactFor (s : State) (i id : Nat) : Option Contact :=
  s.table.find? (fun c => c.id == id && getBit c.ctxs i)

/-- The contacts a context sees, by ID. -/
def State.visible (s : State) (i : Nat) : List Contact := (List.range 64).filterMap (s.contactFor i)

/-- One entry of the CONTACTS shelf, R223. -/
def contactEntry (c : Contact) : List Byte :=
  [b8 c.id, b8 c.flags, b8 (phaseOf c), b8 (min 255 c.age)] ++ le 2 c.gx ++ le 2 c.gy ++ le 2 c.strength ++
    leS 2 (sat16 c.amp) ++ le 4 c.onset

/-- The contact payload, R315. -/
def contactPayload (c : Contact) : List Byte := [b8 c.id, b8 c.flags] ++ le 2 c.gx ++ le 2 c.gy ++ le 2 c.strength

/-- No contact is assigned to a context any more (R236). -/
def unassign (i : Nat) (s : State) : State :=
  { s with
    pipe.contacts := s.pipe.contacts.map (fun c => { c with ctxs := setBit c.ctxs i false })
    pipe.endedList := s.pipe.endedList.map (fun c => { c with ctxs := setBit c.ctxs i false })
    spanx.assign := s.spanx.assign.map (fun m => setBit m i false) }

/-! ### Records of layouts -/

/-- A contract record, R33. -/
def contractBytes (k : Contract) : List Byte := le 2 k.report ++ le 2 k.wake ++ le 2 k.wset.toNat ++ le 2 k.grace

/-- The contract that a record spells. -/
def contractOf (p : List Byte) : Contract :=
  { report := leAt p 0 2, wake := leAt p 2 2, wset := BitVec.ofNat 16 (leAt p 4 2), grace := leAt p 6 2 }

/-- A rectangle in the layout of the SELF shelf, R223. -/
def rectBytes (r : Rect) : List Byte := le 2 r.x0 ++ le 2 r.y0 ++ le 2 r.x1 ++ le 2 r.y1 ++ [b8 (flag r.excl), 0]

/-- The rectangle that 10 bytes spell. -/
def rectOf (p : List Byte) : Rect :=
  { x0 := leAt p 0 2, y0 := leAt p 2 2, x1 := leAt p 4 2, y1 := leAt p 6 2, excl := bit (byteAt p 8) 0 }

/-- The source code of a program, R295: 0 none, 1 stock, 2 code store, 3 execute in place. -/
def sourceOf (c : Ctx) : Nat :=
  match c.prog with
  | .none => 0
  | .stock _ _ => 1
  | .image => if c.img.xip then 3 else 2

/-! ### Shelves, R223 -/

/-- F(N) as the FRAME shelf shows it. -/
def State.fsumShown (s : State) : Int := if s.feat 3 && s.fvalid then s.fsum else forceInvalid

/-- The FRAME shelf of the frame being computed. -/
def frameShelfOf (s : State) : List Byte :=
  let b := s.planes.comp
  fit 64 0 (le 4 s.frame.comp ++ le 6 s.frame.mutComp ++ zeros 2 ++
    [b8 s.aon.mode.code, b8 s.aon.rate, b8 (surfaceCode s.pipe.surface.wet s.pipe.surface.flooded), b8 b.bin] ++
    leS 4 s.fsumShown ++ (s.planes.force.map (leS 4)).flatten ++
    [b8 s.pipe.contacts.length, b8 (flagsOf [b.hop, s.frame.first, s.inSpan, s.span.split]), b8 s.pins.gpos, 0] ++
    le 8 s.frame.utcComp)

/-- The fan state flags of R485. -/
def fanFlags (s : State) : Nat :=
  flagsOf [(s.fan 0).failed, (s.fan 1).failed, (s.fan 2).failed, s.thermal.override, s.shdn.asserted,
           s.thermal.bls.any (·.derating)]

/-- Temperatures of the four inputs and of the die, R143. -/
def tempsOf (s : State) : List Int := s.therm.inputs.map (·.temp) ++ [s.therm.die]

/-- The THERMAL shelf. -/
def thermShelfOf (s : State) : List Byte :=
  fit 32 0 ((tempsOf s).flatMap (leS 2) ++ (s.thermal.fans.map (fun f => le 2 (min 65535 f.speed))).flatten ++ [b8 (fanFlags s)])

/-- Length of the host mail that the program sees. -/
def mailLen (c : Ctx) : Nat := if c.mailVis then c.mailIn.length else 0

/-- The SELF shelf of a context. -/
def selfShelfOf (i : Nat) (s : State) : List Byte :=
  let c := s.ctx i
  fit 64 0 ([b8 i, b8 c.prio] ++ le 2 c.caps.toNat ++ le 4 c.budget ++ le 4 (s.run i).used ++
    [b8 (flagsOf [c.lostNotice, c.lostQueue]), b8 (mailLen c), b8 (flag (!c.mailOut.isEmpty)),
     b8 c.queue.recs.length] ++ contractBytes c.contract ++ (c.region.take 4).flatMap rectBytes)

/-- One byte of the shelves as a context reads it; none where no shelf lies (R222). -/
def shelfByte (s : State) (i a : Nat) : Option Byte :=
  if a < 0x20000000 then none
  else if a < 0x20000040 then some (s.eng.frameShelf.getD (a - 0x20000000) 0)
  else if a < 0x20000080 then some ((s.run i).self.getD (a - 0x20000040) 0)
  else if a < 0x20000100 then none
  else if a < 0x20000500 then
    let o := a - 0x20000100
    some (match s.contactFor i (o / 16) with
      | some c => (contactEntry c).getD (o % 16) 0
      | none => 0)
  else if a < 0x20000520 then some (s.eng.thermShelf.getD (a - 0x20000500) 0)
  else if a < 0x20000600 then none
  else if a < 0x20000640 then
    some (if (s.ctx i).mailVis then (s.ctx i).mailIn.getD (a - 0x20000600) 0 else 0)
  else none

/-! ### Resets -/

/-- The room after a context reset: the room initialisation, then zeros (R218). -/
def roomOf (g : Image) : List Host.Cell := Memory.cells 0 0 (g.roomInit.take 8192)

/-- A context reset, R218, R272: a transfer of the context under way ends without it. -/
def ctxReset (i : Nat) (s : State) : State :=
  let s := ctxGiveUp i s
  let s := s.modCtx i (fun c => { c with
    room := match c.prog with
      | .image => roomOf c.img
      | _ => []
    regs := (List.range 16).map (fun k => if k == 14 then c.regs.getD 14 0 else 0)
    z := false
    n := false
    c := false
    v := false
    notices := []
    mailIn := []
    mailNew := false
    mailVis := false
    mailOut := []
    queue := { c.queue with recs := [] } })
  let s := { s with
    spanx.msgsIn := s.spanx.msgsIn.filter (fun m => m.1 != i)
    mem.toRoom := s.mem.toRoom.filter (fun d => d.1 != i)
    mem.xfer := s.mem.xfer.map (fun (x : MemXfer) => if x.ctx == i then { x with ctx := 32 } else x) }
  settle (s.modRun i (fun r => { r with poll := 0, stock := .empty }))

/-- A context's load session, and its load from flash; whether one of them is verifying. -/
def State.session (s : State) (i : Nat) : Option Session := s.eng.sessions.find? (fun e => e.ctx == i && e.flash.isNone)
def State.loading (s : State) (i : Nat) : Option Session := s.eng.sessions.find? (fun e => e.ctx == i && e.flash.isSome)
def State.verifies (s : State) (i : Nat) : Bool := s.eng.sessions.any (fun e => e.ctx == i && e.verifying.isSome)

/-- Whether a record of a load is a context's session, or its load from flash. -/
def Session.isOf (fl : Bool) (i : Nat) (e : Session) : Bool := e.ctx == i && e.flash.isSome == fl

/-- A session, or a load from flash, ends and leaves no trace. -/
def dropSession (fl : Bool) (i : Nat) (s : State) : State :=
  { s with eng.sessions := s.eng.sessions.filter (fun e => !e.isOf fl i) }

/-- A context's load session ends without a binding: its space is freed, its tag completes with ABORTED (R286, R287). -/
def abortSession (i : Nat) (s : State) : State :=
  match s.session i with
  | none => s
  | some e =>
    let s := dropSession false i s
    completeOpt e.verifying 0x09 [0x0D] { s with
      eng.aborted := if s.eng.aborted.contains i then s.eng.aborted else s.eng.aborted ++ [i] }

/-- A load from flash ends with its context. -/
def abortLoad (i : Nat) (s : State) : State :=
  match s.loading i with
  | none => s
  | some e => completeOpt e.verifying 0x09 [0x0D] (dropSession true i s)

/-- A binding that waits is given up with its context. -/
def dropBind (i : Nat) (s : State) : State :=
  let ws := s.eng.binds.filter (fun w => w.ctx == i)
  ws.foldl (fun s w => completeTag w.tag 0x09 [0x0D] s) { s with eng.binds := s.eng.binds.filter (fun w => w.ctx != i) }

/-- CTX_CLOSE takes effect: a context reset, the segment freed, the loads aborted (R217, R287). -/
def closeCtx (i : Nat) (s : State) : State :=
  let s := unassign i (dropBind i (abortLoad i (abortSession i (ctxReset i s))))
  (s.modCtx i (fun _ => .closed)).modRun i (fun _ => .reset)

/-- A context leaves RUNNING (R69, R265). -/
def leaveRunning (st : Nat) (i : Nat) (s : State) : State :=
  let s := s.modCtx i (fun c => { c with st := st })
  ctxGiveUp i s

/-- A context faults, R236: it ends its turn, gives up what it holds and sees no contacts; every other context runs on. In a
span a message without words tells the other members (R235; log 13). -/
def faultCtx (i cause detail pc : Nat) (s : State) : State :=
  let s := unassign i (leaveRunning 5 i s)
  let s := if s.inSpan then { s with spanx.msgsOut := s.spanx.msgsOut ++ [(i, (setBit s.span.members s.pins.gpos false).toNat, [])] }
    else s
  let s := s.modRun i (fun r => { r with cause := cause, detail := detail, faultPc := pc })
  let s := putCtx i { time := s.clk.tb, origin := s.originOf i, typ := 0x10,
                      payload := [b8 cause, b8 detail, 0, 0] ++ le 4 pc } s
  latchFault 11 s

/-! ### The code store, R224 -/

/-- Kibibytes that a segment takes. -/
def kibOf (n : Nat) : Nat := max 1 (ceilDiv n 1024)

/-- The blocks in use, as (start, length) in KiB, by start: bound images, sessions and waiting bindings. -/
def State.segs (s : State) : List (Nat × Nat) :=
  let own := s.ctxs.filterMap (fun c => match c.prog with
    | .image => if c.img.xip then none else some (c.img.base / 1024, kibOf c.img.size)
    | _ => none)
  let se := s.eng.sessions.filterMap (fun e => e.place.map (fun b => (b / 1024, kibOf e.reserved)))
  let bi := s.eng.binds.filterMap (fun w => if w.img.xip then none else w.place.map (fun b => (b / 1024, kibOf w.reserved)))
  sortBy (fun x => Int.ofNat x.1) (own ++ se ++ bi)

/-- KiB reserved and not yet placed. -/
def State.unplaced (s : State) : Nat :=
  sumN (s.eng.sessions.map (fun e => if e.place.isNone && 0 < e.reserved then kibOf e.reserved else 0)) +
  sumN (s.eng.binds.map (fun w => if w.place.isNone && !w.img.xip then kibOf w.reserved else 0))

/-- Free KiB of the code store. -/
def State.freeKib (s : State) : Nat := 256 - sumN (s.segs.map (·.2)) - s.unplaced

/-- The gaps between blocks, as (start, length) in KiB. -/
def gapsFrom : Nat → List (Nat × Nat) → List (Nat × Nat)
  | a, [] => [(a, 256 - a)]
  | a, (b, n) :: xs => (a, b - a) :: gapsFrom (max a (b + n)) xs

/-- The first gap that holds `n` KiB. -/
def firstFit (s : State) (n : Nat) : Option Nat :=
  ((gapsFrom 0 s.segs).find? (fun g => n ≤ g.2)).map (fun g => 1024 * g.1)

/-- The largest gap in KiB. -/
def State.largestKib (s : State) : Nat := (gapsFrom 0 s.segs).foldl (fun a g => max a g.2) 0

/-- Where each block lies once all are moved down: (old start, length, new start) in KiB. -/
def packFrom : Nat → List (Nat × Nat) → List (Nat × Nat × Nat)
  | _, [] => []
  | a, (b, n) :: xs => (b, n, a) :: packFrom (a + n) xs

/-- KiB that compaction has to move. -/
def toMove (s : State) : Nat := sumN ((packFrom 0 s.segs).map (fun (b, n, a) => if a == b then 0 else n))

/-- Compaction becomes due, unless it runs. -/
def startCompact (s : State) : State :=
  if s.eng.compact then s else { s with eng.compact := true, eng.compactLeft := max 1 (toMove s) }

/-- An address of the code store after the move of its block. -/
def movedTo (ps : List (Nat × Nat × Nat)) (a : Nat) : Option Nat :=
  (ps.find? (fun (b, n, _) => 1024 * b ≤ a && a < 1024 * (b + n))).map (fun (b, _, c) => a - 1024 * b + 1024 * c)

/-- Every block is moved down; the bytes move with their blocks. -/
def relocate (s : State) : State :=
  let ps := packFrom 0 s.segs
  { s with
    eng.code := s.eng.code.filterMap (fun c => (movedTo ps c.1).map (fun a => (a, c.2)))
    ctxs := s.ctxs.map (fun c => { c with img.base := if c.img.xip then c.img.base else (movedTo ps c.img.base).getD c.img.base })
    eng.sessions := s.eng.sessions.map (fun e => { e with place := e.place.bind (movedTo ps) })
    eng.binds := s.eng.binds.map (fun w => { w with place := if w.img.xip then w.place else w.place.bind (movedTo ps) }) }

/-- What waited for space is placed, first fit, in order. -/
def placeWaiting (s : State) : State :=
  let s := s.eng.sessions.foldl (fun s e =>
    if e.place.isNone && 0 < e.reserved then
      let p := firstFit s (kibOf e.reserved)
      { s with eng.sessions := s.eng.sessions.map (fun x => if x.isOf e.flash.isSome e.ctx then { x with place := p } else x) }
    else s) s
  s.eng.binds.foldl (fun s w =>
    if w.place.isNone && !w.img.xip then
      let p := firstFit s (kibOf w.reserved)
      { s with eng.binds := s.eng.binds.map (fun x => if x.ctx == w.ctx then { x with place := p } else x) }
    else s) s

/-- One step of compaction: at most 16 KiB are moved; when nothing is left the waiting loads are placed (R224). -/
def compactStep (s : State) : State :=
  if !s.eng.compact then s
  else if 16 < s.eng.compactLeft then { s with eng.compactLeft := s.eng.compactLeft - 16 }
  else placeWaiting (relocate { s with eng.compact := false, eng.compactLeft := 0 })

/-- COMPACTION_STEP: while no frames run, every 1 ms; in frames it is the post-pass that compacts (R224, R235). -/
def execCompactionStep (s : State) : Host.Outcome State Fault Refusal := .next (if s.framesRun then s else compactStep s)

/-- A place for `n` KiB at once: the first fit, after the store is packed where only that makes room. -/
def placeNow (n : Nat) (s : State) : Option (Nat × State) :=
  match firstFit s n with
  | some b => some (b, s)
  | none => (firstFit (relocate s) n).map (fun b => (b, relocate s))

end Sys2Proof.Machine
end

