-- ==== Sys2Proof/Machine/Stock.lean ====
section
/-! DEFINITION. The ROM stock programs: parameters and one turn (R290-R294). -/

namespace Sys2Proof.Machine
open Sys2Proof

/-! ### Parameters -/

/-- A parameter: a field of 0 selects its default (R290). -/
def param (p : List Byte) (at_ n dflt : Nat) : Nat := if leAt p at_ n == 0 then dflt else leAt p at_ n

/-- Whether a parameter lies in its range. -/
def paramOk (p : List Byte) (at_ n lo hi dflt : Nat) : Bool := lo ≤ param p at_ n dflt && param p at_ n dflt ≤ hi

/-- Whether the bytes from `a` on are zero. -/
def restZero (p : List Byte) (a : Nat) : Bool := (p.drop a).all (· == 0)

/-- Worst-case cycles per turn of a stock program, R293. -/
def stockWorst : Nat → Nat
  | 0 => 6000 | 1 => 7000 | 2 => 6000 | 3 => 7500 | 4 => 9000 | 5 => 400 | 6 => 6500
  | _ => 14000

/-- The ranges of a parameter block, R292, R293. -/
def stockRange (num : Nat) (p : List Byte) : Bool :=
  byteAt p 0 < 16 && byteAt p 1 == 0 &&
  match num with
  | 0 => paramOk p 2 2 50 2000 300 && paramOk p 4 2 10 400 60 && restZero p 8
  | 1 => paramOk p 2 2 50 2000 300 && paramOk p 4 2 10 400 60 && paramOk p 6 2 100 1000 350 && paramOk p 8 2 20 600 100 &&
    byteAt p 10 < 2 && restZero p 11
  | 2 => paramOk p 2 2 200 10000 800 && paramOk p 4 2 10 400 80 && byteAt p 8 < 2 && restZero p 9
  | 3 => paramOk p 2 2 50 2000 300 && paramOk p 4 2 100 3000 600 && byteAt p 6 < 16 && paramOk p 7 1 5 40 25 && restZero p 8
  | 4 => paramOk p 2 2 4 128 16 && paramOk p 4 2 10 900 50 && byteAt p 6 < 4 && restZero p 7
  | 5 => paramOk p 2 2 100 5000 300 && paramOk p 4 2 20 1000 80 && param p 4 2 80 < param p 2 2 300 && paramOk p 6 1 1 16 4 &&
    paramOk p 7 2 100 5000 500 && restZero p 9
  | 6 => paramOk p 2 1 5 45 20 && paramOk p 3 1 5 45 20 && paramOk p 4 2 300 10000 2000 && paramOk p 6 1 1 2 1 && restZero p 7
  | 7 => restZero p 2
  | _ => false

/-- Whether a program needs FORCE, R293. -/
def stockNeedsForce (num : Nat) (p : List Byte) (wset : BitVec 16) : Bool :=
  (num == 2 && leAt p 6 2 != 0) || num == 5 || (num == 7 && getBit wset 6)

/-- The gestures that a program recognises, by their codes of R294. -/
def stockGestures (num : Nat) (wset : BitVec 16) : List Nat :=
  match num with
  | 0 => [2] | 1 => [3] | 2 => [4] | 3 => [5] | 4 => [8] | 5 => [6] | 6 => [7]
  | _ => (List.range 8).filter (fun k => 2 ≤ k && getBit wset k)

/-! ### One turn -/

/-- What a turn works on: the program's state and the gestures recognised, with the contacts that it sees. -/
structure StockTurn where
  st : StockSt
  gest : List (List Byte)
  now : Nat
  frame : Nat
  deriving DecidableEq, Repr

/-- A duration in ms from ticks, limited to its field. -/
def msOf (t : Nat) : Nat := min 65535 (t / 1024)

/-- Ticks from the onset of a contact to the deciding frame (R294). -/
def durOf (now : Nat) (c : Contact) : Nat := ticksSince c.onset now

/-- Squared distance of two points in 0.1 mm. -/
def sq2 (x y x' y' : Nat) : Nat := dist2 x y x' y'

/-- Distance rounded to nearest, from its square. -/
def roundSqrt (n : Nat) : Nat := (isqrt (4 * n) + 1) / 2

/-- The track that a program keeps of a contact. -/
def trackOf (st : StockSt) (id : Nat) : Option StockTrack := st.tracks.find? (fun t => t.id == id)

/-- A contact as the drag of a program sees it: along the track, from its low end, and the track's length (R294). -/
def along (r : Rect) (c : Contact) : Int × Nat :=
  if r.y1 - r.y0 ≤ r.x1 - r.x0 then ((c.gx : Int) - r.x0, r.x1 - r.x0) else ((c.gy : Int) - r.y0, r.y1 - r.y0)

/-- Whether a point lies in the first `pct` percent of a length, or in the last. -/
def inFirst (pct : Nat) (a : Int × Nat) : Bool := 100 * a.1 < (pct * a.2 : Nat)
def inLast (pct : Nat) (a : Int × Nat) : Bool := ((100 - pct) * a.2 : Nat) ≤ 100 * a.1

/-- Follows the contacts of the frame: new tracks, travel, force floors, the drag's track. -/
def stepTracks (p : List Byte) (floor : Nat) (r : Rect) (cs : List Contact) (st : StockSt) : StockSt :=
  let one (c : Contact) : StockTrack :=
    let inStart := if param p 6 1 1 == 2 then inLast (param p 2 1 20) (along r c) else inFirst (param p 2 1 20) (along r c)
    let t0 : StockTrack := { id := c.id, x0 := c.gx, y0 := c.gy, travel2 := 0, floorMet := false, holds := 0,
                             inTrack := phaseOf c == 1 && inStart, left := false }
    let t := if phaseOf c == 1 then t0 else (trackOf st c.id).getD t0
    { t with
      travel2 := max t.travel2 (sq2 c.gx c.gy t.x0 t.y0)
      floorMet := t.floorMet || (bit c.flags 6 && floor ≤ c.strength)
      left := t.left || !r.holds c.gx c.gy }
  { st with tracks := cs.map one }

/-- A gesture's payload with an ID and a place. -/
def placed (code : Nat) (c : Contact) (v : Nat) : List Byte := [b8 code, b8 c.id] ++ le 2 c.gx ++ le 2 c.gy ++ le 2 v

/-- Whether an ended contact is a tap. -/
def isTap (p : List Byte) (now : Nat) (st : StockSt) (c : Contact) : Bool :=
  match trackOf st c.id with
  | some t => durOf now c ≤ 1024 * param p 2 2 300 && t.travel2 ≤ param p 4 2 60 ^ 2
  | none => false

/-- TAP. -/
def tapStep (p : List Byte) (u : StockTurn) (c : Contact) : StockTurn :=
  let floorOk := leAt p 6 2 == 0 || ((trackOf u.st c.id).map (·.floorMet)).getD false
  if c.ended && isTap p u.now u.st c && floorOk then { u with gest := u.gest ++ [placed 2 c (msOf (durOf u.now c))] } else u

/-- Whether a contact began soon enough after a tap and near enough to it. -/
def follows (p : List Byte) (st : StockSt) (t : TapSt) (c : Contact) : Bool :=
  match trackOf st c.id with
  | some k => ticksSince t.ended c.onset ≤ 1024 * param p 6 2 350 && sq2 k.x0 k.y0 t.x t.y ≤ param p 8 2 100 ^ 2
  | none => false

/-- A single tap as DOUBLE_TAP reports it where asked. -/
def single (p : List Byte) (t : TapSt) : List (List Byte) :=
  if bit (byteAt p 10) 0 then [[2, b8 t.id] ++ le 2 t.x ++ le 2 t.y ++ le 2 (msOf (ticksSince t.onset t.ended))] else []

/-- DOUBLE_TAP: an ended tap completes a pair or waits for a second one. -/
def doubleStep (p : List Byte) (u : StockTurn) (c : Contact) : StockTurn :=
  if !(c.ended && isTap p u.now u.st c) then u
  else
    let mine : TapSt := { ended := u.now, onset := c.onset, x := c.gx, y := c.gy, id := c.id }
    match u.st.tap with
    | none => { u with st := { u.st with tap := some mine } }
    | some t =>
      if follows p u.st t c then
        { u with st := { u.st with tap := none }, gest := u.gest ++ [placed 3 c (msOf (ticksSince t.ended c.onset))] }
      else { u with st := { u.st with tap := some mine }, gest := u.gest ++ single p t }

/-- DOUBLE_TAP: the interval has run out with no contact that could still be the second tap. -/
def doubleEnd (p : List Byte) (cs : List Contact) (u : StockTurn) : StockTurn :=
  match u.st.tap with
  | none => u
  | some t =>
    if ticksSince t.ended u.now ≤ 1024 * param p 6 2 350 || cs.any (fun c => !c.ended && follows p u.st t c) then u
    else { u with st := { u.st with tap := none }, gest := u.gest ++ single p t }

/-- PRESS_HOLD: judged in the first frame at or after each hold time. -/
def holdStep (p : List Byte) (u : StockTurn) (c : Contact) : StockTurn :=
  match trackOf u.st c.id with
  | none => u
  | some t =>
    let h := 1024 * param p 2 2 800
    let dur := durOf u.now c
    if c.ended || dur < (t.holds + 1) * h || (0 < t.holds && !bit (byteAt p 8) 0) then u
    else
      let ok := t.travel2 ≤ param p 4 2 80 ^ 2 && (leAt p 6 2 == 0 || (bit c.flags 6 && leAt p 6 2 ≤ c.strength))
      { u with
        st := { u.st with tracks := u.st.tracks.map (fun k => if k.id == c.id then { k with holds := dur / h } else k) }
        gest := if ok then u.gest ++ [placed 4 c c.strength] else u.gest }

/-- SWIPE, with an open value for the speed where no time has passed. -/
def swipeStep (p : List Byte) (open_ : Nat) (u : StockTurn) (c : Contact) : StockTurn :=
  match trackOf u.st c.id with
  | none => u
  | some t =>
    let dur := durOf u.now c
    let dx : Int := (c.gx : Int) - t.x0
    let dy : Int := (c.gy : Int) - t.y0
    let ang : Int := param p 7 1 25 * 2 ^ 24 / 360
    let ok (k : Nat) (a o : Int) : Bool :=
      bit (param p 6 1 15) k && (param p 2 2 300 : Int) ≤ a && absN o * cosT ang ≤ a * sinT ang
    if !c.ended || 1024 * param p 4 2 600 < dur then u
    else match ([(0, dx, dy), (1, -dx, dy), (2, dy, dx), (3, -dy, dx)] : List (Nat × Int × Int)).find?
        (fun (k, a, o) => ok k a o) with
      | none => u
      | some (k, a, _) =>
        let d := a.toNat
        let v := if dur == 0 then open_ else 102400 * d / dur
        { u with gest := u.gest ++ [[5, b8 (4 * c.id + k)] ++ le 2 d ++ le 2 (msOf dur) ++ le 2 (min 65535 v)] }

/-- An angle in 0.1 degrees from units of 2^-24 turn, from -1800 to 1799. -/
def tenths (a : Int) : Int := roundDiv (((a + 2 ^ 23) % 2 ^ 24 - 2 ^ 23) * 3600) (2 ^ 24)

/-- PINCH_ROTATE, with an open value for the scale where the reference distance is 0. -/
def pinchStep (p : List Byte) (open_ : Nat) (cs : List Contact) (u : StockTurn) : StockTurn :=
  let held := cs.filter (fun c => !c.ended)
  let keep := match u.st.pinch with
    | some q => if held.any (·.id == q.a) && held.any (·.id == q.b) then some q else none
    | none => none
  match held with
  | [a, b] =>
    let d2 := sq2 a.gx a.gy b.gx b.gy
    let ang := atan2T ((b.gy : Int) - a.gy) ((b.gx : Int) - a.gx)
    match keep with
    | none =>
      { u with st := { u.st with pinch := some { a := a.id, b := b.id, refD := d2, refA := ang, lastS := 256, lastA := 0 } } }
    | some q =>
      let sc : Nat := if q.refD == 0 then open_ else (isqrt (262144 * d2 / q.refD) + 1) / 2
      let rot := tenths (ang - q.refA)
      let kinds := param p 6 1 3
      let pin := bit kinds 0 && param p 2 2 16 ≤ absN ((sc : Int) - q.lastS)
      let turn := (rot - q.lastA + 1800) % 3600 - 1800
      let rt := bit kinds 1 && param p 4 2 50 ≤ absN turn
      let dist := le 2 (min 65535 (roundSqrt d2))
      let ids := [b8 a.id, b8 b.id, 0]
      { u with
        st := { u.st with pinch := some { q with lastS := if pin then sc else q.lastS, lastA := if rt then rot else q.lastA } }
        gest := u.gest ++ (if pin then [[8] ++ ids ++ le 2 (min 65535 sc) ++ dist] else []) ++
          (if rt then [[9] ++ ids ++ leS 2 rot ++ dist] else []) }
  | _ => { u with st := { u.st with pinch := keep } }

/-- KNOCK, by the rule of the program of chapter 10; a rise is judged within one frame. -/
def knockStep (p : List Byte) (f : Int) (held : Nat) (u : StockTurn) : StockTurn :=
  let valid := f != forceInvalid
  let prev := if u.frame == (u.st.knockFrame + 1) % 2 ^ 32 then u.st.knockPrev else none
  let st := { u.st with knockPrev := if valid then some f else none, knockFrame := u.frame }
  match valid, prev with
  | true, some f0 =>
    match u.st.knock with
    | none =>
      let quiet := match u.st.knockLast with
        | some t => 1024 * param p 7 2 500 ≤ ticksSince t u.now
        | none => true
      if quiet && (param p 2 2 300 : Int) ≤ f - f0 && held == 0 then
        { u with st := { st with knock := some { count := 0, peak := f, frame := u.frame } } }
      else { u with st := st }
    | some k =>
      let peak := max k.peak f
      if f < (param p 4 2 80 : Int) then
        if held == 0 then
          { u with st := { st with knock := none, knockLast := some u.now }
                   gest := u.gest ++ [[6, 0] ++ le 2 (clampI 0 65535 peak).toNat ++ le 4 k.frame] }
        else { u with st := { st with knock := none } }
      else if k.count + 1 < param p 6 1 4 then
        { u with st := { st with knock := some { k with count := k.count + 1, peak := peak } } }
      else { u with st := { st with knock := none } }
  | _, _ => { u with st := { st with knock := none } }

/-- DRAG_CONFIRM. -/
def dragStep (p : List Byte) (r : Rect) (u : StockTurn) (c : Contact) : StockTurn :=
  match trackOf u.st c.id with
  | none => u
  | some t =>
    let inEnd := if param p 6 1 1 == 2 then inFirst (param p 3 1 20) (along r c) else inLast (param p 3 1 20) (along r c)
    if c.ended && t.inTrack && !t.left && inEnd && durOf u.now c ≤ 1024 * param p 4 2 2000 then
      { u with gest := u.gest ++ [placed 7 c (msOf (durOf u.now c))] }
    else u

/-- One gesture of a program. -/
def gestureStep (p : List Byte) (open_ : Nat) (f : Int) (held : Nat) (r : Rect) (cs : List Contact) (u : StockTurn)
    (g : Nat) : StockTurn :=
  match g with
  | 2 => cs.foldl (tapStep p) u
  | 3 => doubleEnd p cs (cs.foldl (doubleStep p) u)
  | 4 => cs.foldl (holdStep p) u
  | 5 => cs.foldl (swipeStep p open_) u
  | 6 => knockStep p f held u
  | 7 => cs.foldl (dragStep p r) u
  | _ => pinchStep p open_ cs u

/-- One turn of a stock program, R292-R294: it follows its contacts, emits what was left over, then UP, DOWN, gestures and
wakes, then MOVE, at most 16 in all; MOVE records left over are dropped. The cycles it uses are a free value within its
worst case (DESIGN CHOICE, log 3). -/
def stockTurn (i num : Nat) (params : List Byte) (s : State) : Nat × State :=
  let c := s.ctx i
  let (v, s) := fresh s
  let (w, s) := fresh s
  let cs := s.visible i
  let now := s.frame.mutComp
  let p := if num == 7 then zeros 16 else params
  let flags := if byteAt params 0 == 0 then 0x0D else byteAt params 0
  let r := c.region.headD { x0 := 0, y0 := 0, x1 := 65535, y1 := 65535, excl := false }
  let st := (s.run i).stock
  let u0 : StockTurn := { st := stepTracks p (leAt p 6 2) r cs st, gest := [], now := now, frame := s.frame.comp }
  let u := (stockGestures num c.contract.wset).foldl
    (gestureStep p (w.toNat % 65536) s.fsumShown s.pipe.contacts.length r cs) u0
  let mk (time typ : Nat) (payload : List Byte) : Rec :=
    { time := time, origin := s.originOf i, typ := typ, payload := fit 8 0 payload }
  let ups := (cs.filter (fun c => c.ended && bit flags 2)).map (fun c => mk now 3 (contactPayload c))
  let downs := (cs.filter (fun c => phaseOf c == 1 && bit flags 0)).map (fun c => mk c.onset 1 (contactPayload c))
  let moves := (cs.filter (fun c => phaseOf c == 2 && bit flags 1 && ((c.gx : Int) != c.oldX || (c.gy : Int) != c.oldY))).map
    (fun c => mk now 2 (contactPayload c))
  let gests := u.gest.flatMap (fun g =>
    (if bit flags 3 then [mk now 4 g] else []) ++ (if getBit c.contract.wset (byteAt g 0) then [mk now 6 g] else []))
  let first := st.backlog ++ ups ++ downs ++ gests
  let out := (first.take 16) ++ moves.take (16 - first.length)
  let left := u.st.tracks.filter (fun t => cs.any (fun c => c.id == t.id && !c.ended))
  let s := out.foldl (fun s r => putCtx i r s) s
  let s := s.modRun i (fun r => { r with initDue := false, stock := { u.st with tracks := left, backlog := first.drop 16 } })
  (v.toNat % (stockWorst num + 1), s.modCtx i (fun c => { c with notices := [], mailNew := false }))

end Sys2Proof.Machine
end

