-- ==== Sys2Proof/Machine/Prefetch.lean ====
section
/-! DEFINITION. The execute-in-place window of the memory port: its extent, fences, prefetch lines and the cost of a miss
(R400, R407-R409, R415).
Conventions that the spec leaves open: log 27 (DEDUCED). -/

namespace Sys2Proof.Machine
open Sys2Proof

/-- Bytes of the flash that the window can show, and of the window, 0 while it is disabled (R407). -/
def State.windowSize (s : State) : Nat := if s.mem.profile.isSome then min s.flashSize (64 * 2 ^ 20) else 0
def State.window (s : State) : Nat := if s.mem.xipEn then s.windowSize else 0

/-- Lanes of a phase byte. -/
def lanesOf (b : Nat) : Nat := 2 ^ (b % 4)

/-- Clock cycles that `n` bytes take in a phase. -/
def phaseCyc (b n : Nat) : Nat := ceilDiv (8 * n) (lanesOf b * if bit b 2 then 2 else 1)

/-- Clock cycles of a transfer of `n` data bytes, with the select's set-up and hold; a phase marked OMIT falls away in
continuous read (R400, R409). -/
def transferCyc (t : List Byte) (cont : Bool) (n : Nat) : Nat :=
  let c := byteAt t 2
  let a := byteAt t 3
  let m := byteAt t 4
  let d := byteAt t 7
  4 + (if cont && bit c 4 then 0 else phaseCyc c (if bit c 3 then 2 else 1)) +
    phaseCyc a (match bits a 3 2 with | 1 => 3 | 2 => 4 | _ => 0) + (if bit m 3 then phaseCyc m 1 else 0) +
    byteAt t 6 % 32 + phaseCyc d n

/-- CORECLK cycles of one miss, R408. -/
def missCost (s : State) : Nat := 4 + 2 ^ s.mem.div * transferCyc (templ s.flashProfile 0) s.mem.cont 64

/-- A line is filled: into a free place, else in place of the least recently used. -/
def installLine (a : Nat) (m : MemPort) : MemPort :=
  let l : Line := { addr := a, used := m.lineClock }
  let rest :=
    if m.lines.length < 4 then m.lines
    else match m.lines with
      | [] => []
      | x :: xs =>
        let old := xs.foldl (fun o y => if y.used < o.used then y else o) x
        m.lines.filter (fun y => y != old)
  { m with lines := rest ++ [l], lineClock := m.lineClock + 1, cont := bit (byteAt (m.profile.getD []) 0) 1 }

/-- After a fill the next line follows, if it lies in the window and is not present. -/
def fillNext (w a : Nat) (m : MemPort) : MemPort :=
  { m with filling := if a + 64 < w && !m.lines.any (fun l => l.addr == a + 64) then some (a + 64) else none }

/-- A read suspends a running program or erase where the profile has SUSPEND (R415). -/
def suspendFor (s : State) : State :=
  match s.mem.op with
  | some o => if o.running && !templEmpty (templ s.flashProfile 6) then { s with mem.susp := true } else s
  | none => s

/-- A read other than a window read: it suspends an operation, and continuous read is left (R409, R415). -/
def otherRead (s : State) : State := { suspendFor s with mem.cont := false }

/-- A window read of one byte's line, R408: the stall, and the port after it. A miss that finds a fill under way waits for
its end, a time that the spec leaves open within one miss (DESIGN CHOICE, log 3). -/
def useLine (o : Nat) (s : State) : Nat × State :=
  let a := o / 64 * 64
  let w := s.window
  if s.mem.lines.any (fun l => l.addr == a) then
    (0, { s with
      mem.hits := satAdd 65535 s.mem.hits 1
      mem.lines := s.mem.lines.map (fun l => if l.addr == a then { l with used := s.mem.lineClock } else l)
      mem.lineClock := s.mem.lineClock + 1 })
  else
    let s := { s with mem.misses := satAdd 65535 s.mem.misses 1 }
    match s.mem.filling with
    | some b =>
      let cost := missCost s
      let (v, s) := fresh s
      let wait := v.toNat % (cost + 1)
      let s := { s with mem := installLine b s.mem }
      if b == a then (wait, { s with mem := fillNext w a s.mem })
      else
        let cost := missCost s
        (wait + cost, { s with mem := fillNext w a (installLine a s.mem) })
    | none =>
      let cost := missCost s
      let s := suspendFor s
      (cost, { s with mem := fillNext w a (installLine a s.mem) })

/-- LINE_FILL, R408: the fill under way completes. -/
def execLineFill (addr : Nat) (s : State) : Host.Outcome State Fault Refusal :=
  .next (match s.mem.filling with
    | some a =>
      if a == addr / 64 * 64 then { s with mem := fillNext s.window a (installLine a s.mem) } else s
    | none => s)

/-- The lines that overlap a range become invalid (R411, R412). -/
def dropLines (a n : Nat) (m : MemPort) : MemPort :=
  { m with lines := m.lines.filter (fun l => !overlap a n l.addr 64)
           filling := m.filling.filter (fun b => !overlap a n b 64) }

/-- FLASH_RESUME, R415. -/
def execFlashResume (s : State) : Host.Outcome State Fault Refusal := .next { s with mem.susp := false }

end Sys2Proof.Machine
end

