-- ==== Sys2Proof/Machine/Operands.lean ====
section
/-! DEFINITION. The operand forms of Dyrel: registers, immediates, addresses of the context's space, boxes and plane
elements (R222, R225, R240, R249-R256). -/

namespace Sys2Proof.Machine
open Sys2Proof

/-! ### Registers and immediates -/

/-- A register's value; d0 reads zero (R225). -/
def Ctx.reg (c : Ctx) (r : Reg) : Word := if r == 0 then 0 else c.regs.getD r.toNat 0

/-- A write to a register; one to d0 is discarded (R225). -/
def Ctx.setReg (r : Reg) (v : Word) (c : Ctx) : Ctx := if r == 0 then c else { c with regs := c.regs.set r.toNat v }

/-- Sets the four flags. -/
def Ctx.setFlags (x : Alu) (c : Ctx) : Ctx := { c with z := x.val == 0, n := x.val.msb, c := x.c, v := x.v }

/-- A register of a context. -/
def State.reg (s : State) (i : Nat) (r : Reg) : Word := (s.ctx i).reg r

/-- Writes a register of a context. -/
def setReg (i : Nat) (r : Reg) (v : Word) (s : State) : State := s.modCtx i (Ctx.setReg r v)

/-- Writes a result and the flags of "ZN" (R244). -/
def setRegZN (i : Nat) (r : Reg) (v : Word) (s : State) : State :=
  s.modCtx i (fun c => (c.setReg r v).setFlags (aluZN v))

/-- Writes an ALU result, with its flags where asked. -/
def setAlu (i : Nat) (r : Reg) (x : Alu) (flags : Bool) (s : State) : State :=
  s.modCtx i (fun c => if flags then (c.setReg r x.val).setFlags x else c.setReg r x.val)

/-- A number as a result word. -/
def wordN (n : Nat) : Word := BitVec.ofNat 32 n
def wordI (i : Int) : Word := BitVec.ofInt 32 i

/-- sext(imm18) and zext(imm18) of R240. -/
def sextImm (i : BitVec 18) : Word := i.signExtend 32
def zextImm (i : BitVec 18) : Word := i.zeroExtend 32

/-- Whether a context holds a capability of R219. -/
def State.holds (s : State) (i k : Nat) : Bool := getBit (s.ctx i).caps k

/-! ### Addresses, R222, R251 -/

/-- Whether `n` bytes from an address lie in the room. -/
def inRoom (a n : Nat) : Bool := 0x10000000 ≤ a && a + n ≤ 0x10002000

/-- Whether an address lies in the flash shelf's part of the space. -/
def inFlash (a : Nat) : Bool := 0x40000000 ≤ a && a < 0x44000000

/-- `n` bytes of a context's room from an address. -/
def roomBytes (s : State) (i a n : Nat) : List Byte := Memory.readN 0 (s.ctx i).room (a - 0x10000000) n

/-- Writes bytes into a context's room. -/
def writeRoom (i a : Nat) (bs : List Byte) (s : State) : State :=
  s.modCtx i (fun c => { c with room := Memory.writeN 0 c.room (a - 0x10000000) bs })

/-- The capability that a load lacks: MEMORY for the flash shelf (R219). -/
def loadCap (s : State) (i a : Nat) : Option Nat := if inFlash a && !s.holds i 7 then some 7 else none

/-- The BOUNDS detail that a load of `n` bytes raises (R251). -/
def loadBounds (s : State) (i a n : Nat) : Option Nat :=
  if a % n != 0 then some 3
  else if inRoom a n then none
  else if (shelfByte s i a).isSome then none
  else if inFlash a then
    let o := a - 0x40000000
    if s.feat 35 && o + n ≤ s.window then (if s.fenced o n then some 4 else none) else some 0
  else some 0

/-- The BOUNDS detail that a store raises. -/
def storeBounds (a n : Nat) : Option Nat := if a % n != 0 then some 3 else if inRoom a n then none else some 1

/-- The bytes that a load reads. -/
def loadBytes (s : State) (i a n : Nat) : List Byte :=
  if inRoom a n then roomBytes s i a n
  else if inFlash a then Memory.readN erased s.mem.flash (a - 0x40000000) n
  else (List.range n).map (fun k => (shelfByte s i (a + k)).getD 0)

/-- What a load does beside its register: a flash load uses a prefetch line; and the stall it is charged. -/
def loadLine (a : Nat) (s : State) : Nat × State := if inFlash a then useLine (a - 0x40000000) s else (0, s)

/-! ### Planes, R254 -/

/-- Elements and their width in bytes; none for a reserved code. -/
def planeShape : Nat → Option (Nat × Nat)
  | 0 | 1 | 2 | 3 | 7 | 8 => some (2560, 2)
  | 9 => some (2560, 1)
  | 4 => some (144, 1)
  | 5 => some (64, 4)
  | 6 => some (40, 4)
  | 10 => some (4, 4)
  | 11 => some (64, 2)
  | _ => none

/-- Raw planes, R219. -/
def rawPlane (k : Nat) : Bool := k ≤ 6 || k == 11

/-- SELFTX and SELFRX. -/
def selfPlane (k : Nat) : Bool := k == 5 || k == 6

/-- The values of a plane; of SELFTX and SELFRX the I half, or the Q half, which read as zero without CHARGE (R149). -/
def planeValues (s : State) (k : Nat) (q : Bool) : List Int :=
  let b := s.planes.comp
  if selfPlane k && !s.feat 1 then List.replicate (if k == 5 then 64 else 40) 0
  else match k with
  | 0 => b.ia
  | 1 => b.qa
  | 2 => b.ib
  | 3 => b.qb
  | 4 => b.range.map Int.ofNat
  | 5 => if q then b.stxQ else b.stxI
  | 6 => if q then b.srxQ else b.srxI
  | 7 => s.planes.film
  | 8 => s.planes.delta
  | 9 => s.planes.cls.map Int.ofNat
  | 10 => s.planes.force
  | _ => (b.censusA.zip b.censusB).flatMap (fun (x, y) => [(x : Int), (y : Int)])

/-- One element as PLD and PCOPY read it: a word of SELFTX or SELFRX holds I, then Q. -/
def planeElem (s : State) (k i : Nat) : Word :=
  if selfPlane k then
    wordN (pack [(16, toU 16 ((planeValues s k false).getD i 0)), (16, toU 16 ((planeValues s k true).getD i 0))])
  else wordI ((planeValues s k false).getD i 0)

/-- The right that a plane operation lacks: PLANES, then RAW_PLANES for a raw plane (R254). -/
def planeCap (s : State) (i k : Nat) : Option Nat :=
  if !s.holds i 1 then some 1 else if rawPlane k && !s.feat 6 then some 0x10 else none

/-- The element indices of a box, ascending; none where it raises BOUNDS (R255). -/
def boxOf (k : Nat) (w : Word) : Option (List Nat) :=
  let v := w.toNat
  let t0 := bits v 0 6
  let t1 := bits v 8 6
  let r0 := bits v 16 6
  let r1 := bits v 24 6
  let size := ((planeShape k).map (·.1)).getD 0
  if bits v 6 2 != 0 || bits v 14 2 != 0 || bits v 22 2 != 0 || bits v 30 2 != 0 || t1 < t0 || r1 < r0 then none
  else if size == 2560 then
    if 39 < r1 then none
    else some ((List.range (t1 - t0 + 1)).flatMap (fun t => (List.range (r1 - r0 + 1)).map (fun r => (t0 + t) * 40 + r0 + r)))
  else if r1 != 0 || size ≤ t1 then none
  else some ((List.range (t1 - t0 + 1)).map (· + t0))

/-- The elements of a box with their indices; invalid FORCE elements are skipped (R256). -/
def boxElems (s : State) (k : Nat) (q : Bool) (box : List Nat) : List (Nat × Int) :=
  let a := (planeValues s k q).toArray
  (box.map (fun i => (i, a.getD i 0))).filter (fun x => !(k == 10 && x.2 == forceInvalid))

end Sys2Proof.Machine
end

