-- ==== Sys2Proof/Machine/Dyrel.lean ====
section
/-! DEFINITION. The turns of the Dyrel engine: entries, the checks and the charge of one instruction, traps, and the end of
an entry, a turn and a pass (R225-R227, R236, R245).
Conventions that the spec leaves open: log 17 (DESIGN CHOICE). -/

namespace Sys2Proof.Machine
open Sys2Proof

/-! ### Cycles -/

/-- CORECLK cycles pass: 96 to a tick. -/
def spend (n : Nat) (s : State) : State :=
  let c := s.clk.cyc + n
  advance (c / 96) { s with clk.cyc := c % 96 }

/-- Charges cycles to the turn (R227). -/
def charge (n : Nat) (s : State) : State :=
  match s.eng.turn with
  | some t => spend n { s with eng.turn := some { t with used := t.used + n } }
  | none => s

/-! ### Entries and turns -/

/-- The context in its turn. -/
def Turn.cur (t : Turn) : Nat := t.left.headD 0

/-- Offset of an entry: 0 init, 1 mail, 2 event, 3 frame (R273). -/
def Image.entry (g : Image) (k : Nat) : Nat :=
  match k with
  | 0 => g.init
  | 1 => g.mail
  | 2 => g.event
  | _ => g.frame

/-- Whether an image has an entry. -/
def Image.has (g : Image) (k : Nat) : Bool := g.entry k != 0xFFFFFFFF

/-- An entry begins, R225: pc, d1, d14, d15 and the flags are set, 4 cycles are charged. -/
def beginEntry (i k arg : Nat) (msg : Option Notice) (s : State) : State :=
  match s.eng.turn with
  | none => s
  | some t =>
    let s := { s with eng.turn := some { t with inEntry := true, entryKind := k, msg := msg } }
    charge 4 (s.modCtx i (fun c => { c with
      pc := c.img.entry k
      regs := ((c.regs.set 1 (wordN arg)).set 14 0x10000000#32).set 15 0xFFFFFFFC#32
      z := false
      n := false
      c := false
      v := false }))

/-- The pass ends: its cycles are kept (R238). -/
def endPass (s : State) : State := { s with eng.turn := none, eng.passCyc := min 1048575 s.eng.passNow }

/-- A turn ends with the cycles it used; the next context follows, or the pass ends (R226). -/
def endTurn (used : Nat) (s : State) : State :=
  match s.eng.turn with
  | none => s
  | some t =>
    let s := (wrote (fun k pl => k == 0x17 && byteAt pl 0 == t.cur) s).modRun t.cur (fun r => { r with used := used })
    let s := { s with eng.passNow := s.eng.passNow + used }
    match t.left.drop 1 with
    | [] => endPass s
    | is => { s with eng.turn := some { left := is, entries := [0, 1, 2, 3], inEntry := false, used := 0, emits := 0,
                                        sends := 0, msg := none, entryKind := 0 } }

/-- The next entry of the turn begins, or is found absent, or the turn ends; a stock program runs its whole turn. A notice
whose entry is absent is consumed (R225, R226). -/
def pickEntry (s : State) : State :=
  match s.eng.turn with
  | none => s
  | some t =>
    let i := t.cur
    let c := s.ctx i
    let skip (s : State) : State := { s with eng.turn := s.eng.turn.map (fun t => { t with entries := t.entries.drop 1 }) }
    if c.st != 3 then endTurn t.used s
    else match c.prog with
      | .none => endTurn 0 s
      | .stock num params =>
        let (n, s) := stockTurn i num params s
        endTurn n (spend n s)
      | .image =>
        match t.entries with
        | [] => endTurn t.used s
        | 0 :: _ =>
          let due := (s.run i).initDue
          let s := skip (s.modRun i (fun r => { r with initDue := false }))
          if due && c.img.has 0 then beginEntry i 0 (i + 256 * s.pins.gpos) none s else s
        | 1 :: _ =>
          let due := c.mailVis && c.mailNew
          let s := skip (s.modCtx i (fun c => { c with mailNew := c.mailNew && !c.mailVis }))
          if due && c.img.has 1 then beginEntry i 1 c.mailIn.length none s else s
        | 2 :: _ =>
          match c.notices with
          | [] => skip s
          | m :: ms =>
            if s.early m then skip s else
            let s := s.modCtx i (fun c => { c with notices := ms })
            if c.img.has 2 then beginEntry i 2 m.word (some m) s else s
        | _ :: _ =>
          let s := skip s
          if c.img.has 3 then beginEntry i 3 s.frame.comp none s else s

/-- Entries, turns and stock programs up to the next instruction to run, or to the end of the pass. -/
def settleTurn : Nat → State → State
  | 0, s => s
  | k + 1, s =>
    match s.eng.turn with
    | none => s
    | some t => if t.inEntry then s else settleTurn k (pickEntry s)

/-- More steps than the entries of 32 contexts with 8 notices each can take. -/
def turnFuel : Nat := 1024

/-- The context pass opens: the shelves are fixed, and turns follow by priority, then by number (R223, R226). -/
def openPass (s : State) : State :=
  let order := sortBy (fun i => Int.ofNat ((s.ctx i).prio * 32 + i)) s.running
  let s := order.foldl (fun s i => s.modRun i (fun r => { r with self := selfShelfOf i s })) s
  let s := { s with eng.frameShelf := frameShelfOf s, eng.thermShelf := thermShelfOf s, eng.passNow := 0,
                    frame.phase := 2 }
  match order with
  | [] => endPass s
  | _ => settleTurn turnFuel { s with eng.turn := some { left := order, entries := [0, 1, 2, 3], inEntry := false, used := 0,
                                                         emits := 0, sends := 0, msg := none, entryKind := 0 } }

/-- What follows the pre-pass and, in a span, the decisions: touches wake (R37), and the context pass opens. -/
def finishPass (s : State) : State :=
  openPass (if s.pipe.contacts.any (·.isNew) then wakeEvents 1 s.frame.mutComp s else s)

/-- The present entry ends, as YIELD does; after a frame entry the lost flags are cleared (R223, R262). -/
def endEntry (s : State) : State :=
  match s.eng.turn with
  | none => s
  | some t =>
    let s := if t.entryKind == 3 then s.modCtx t.cur (fun c => { c with lostNotice := false, lostQueue := false }) else s
    settleTurn turnFuel { s with eng.turn := some { t with inEntry := false, msg := none } }

/-! ### One instruction -/

/-- What an instruction's checks find and what it does, R245: whether its decoding holds, the capability it lacks, the
BOUNDS detail it raises, its cost, and its effect. -/
structure Plan where
  legal : Bool
  cap : Option Nat
  bounds : Option Nat
  cost : Nat
  run : State → State

/-- A trap ends the turn before the instruction, which has no effect (R236). -/
def trap (i cause detail : Nat) (s : State) : State :=
  match s.eng.turn with
  | none => s
  | some t => settleTurn turnFuel (endTurn t.used (faultCtx i cause detail (s.ctx i).pc s))

/-- The address that ends an entry. -/
def endAddr : Nat := 0xFFFFFFFC

/-- An instruction of the context in its turn: the checks of R245 in their order, then its effect with the pc advanced.
While no entry runs, nothing executes (R234). -/
def dyrel (op : Nat) (plan : Nat → State → Plan) (s : State) : State :=
  match s.eng.turn with
  | none => s
  | some t =>
    if !t.inEntry then s
    else
      let i := t.cur
      let p := plan i s
      if !p.legal then trap i 2 op s
      else match p.cap with
        | some k => trap i 4 k s
        | none =>
          match p.bounds with
          | some d => trap i 3 d s
          | none =>
            if (s.ctx i).budget < t.used + p.cost then trap i 1 0 s
            else
              let s := p.run (charge p.cost (s.modCtx i (fun c => { c with pc := c.pc + 4 })))
              if (s.ctx i).pc == endAddr then endEntry s else s

/-- A plan without checks of its own beyond decoding. -/
def plain (legal : Bool) (cost : Nat) (run : State → State) : Plan :=
  { legal := legal, cap := none, bounds := none, cost := cost, run := run }

/-- The outcome of a Dyrel row. -/
def dyrelRow (op : Nat) (plan : Nat → State → Plan) (s : State) : Host.Outcome State Fault Refusal := .next (dyrel op plan s)

end Sys2Proof.Machine
end

