-- ==== Sys2Proof/Machine/DyrelAlu.lean ====
section
/-! DEFINITION. The scalar ALU rows of Dyrel: register forms, immediate forms and CSEL (R247, R248). -/

namespace Sys2Proof.Machine
open Sys2Proof

/-- A register ALU instruction: fn[12:5] must be 0, and the b field too where the operation takes one operand. -/
def aluPlan (unary : Bool) (f : Bool → Word → Word → Alu) (o : OpR) (i : Nat) (s : State) : Plan :=
  plain (o.rsv == 0 && (!unary || o.b == 0)) 1 (setAlu i o.d (f (s.ctx i).c (s.reg i o.a) (s.reg i o.b)) o.s)

/-- The outcome of a register ALU row. -/
def aluRow (unary : Bool) (f : Bool → Word → Word → Alu) (o : OpR) (s : State) : Host.Outcome State Fault Refusal :=
  dyrelRow 0x00 (aluPlan unary f o) s

/-- Shift amounts are b AND 31. -/
def amount (b : Word) : Nat := b.toNat % 32

def execAdd (o : OpR) (s : State) : Host.Outcome State Fault Refusal :=
  aluRow false (fun _ a b => aluAdd a b false) o s
def execSub (o : OpR) (s : State) : Host.Outcome State Fault Refusal :=
  aluRow false (fun _ a b => aluSub a b false) o s
def execAnd (o : OpR) (s : State) : Host.Outcome State Fault Refusal :=
  aluRow false (fun _ a b => aluZN (a &&& b)) o s
def execOr (o : OpR) (s : State) : Host.Outcome State Fault Refusal :=
  aluRow false (fun _ a b => aluZN (a ||| b)) o s
def execXor (o : OpR) (s : State) : Host.Outcome State Fault Refusal :=
  aluRow false (fun _ a b => aluZN (a ^^^ b)) o s
def execShl (o : OpR) (s : State) : Host.Outcome State Fault Refusal :=
  aluRow false (fun _ a b => aluShl a (amount b)) o s
def execShr (o : OpR) (s : State) : Host.Outcome State Fault Refusal :=
  aluRow false (fun _ a b => aluShr a (amount b)) o s
def execSar (o : OpR) (s : State) : Host.Outcome State Fault Refusal :=
  aluRow false (fun _ a b => aluSar a (amount b)) o s
def execMul (o : OpR) (s : State) : Host.Outcome State Fault Refusal :=
  aluRow false (fun _ a b => aluMul a b) o s
def execMulh (o : OpR) (s : State) : Host.Outcome State Fault Refusal :=
  aluRow false (fun _ a b => aluMulh a b) o s
def execMulhu (o : OpR) (s : State) : Host.Outcome State Fault Refusal :=
  aluRow false (fun _ a b => aluMulhu a b) o s
def execMin (o : OpR) (s : State) : Host.Outcome State Fault Refusal :=
  aluRow false (fun _ a b => aluMin a b) o s
def execMax (o : OpR) (s : State) : Host.Outcome State Fault Refusal :=
  aluRow false (fun _ a b => aluMax a b) o s
def execMinu (o : OpR) (s : State) : Host.Outcome State Fault Refusal :=
  aluRow false (fun _ a b => aluMinu a b) o s
def execMaxu (o : OpR) (s : State) : Host.Outcome State Fault Refusal :=
  aluRow false (fun _ a b => aluMaxu a b) o s
def execAdc (o : OpR) (s : State) : Host.Outcome State Fault Refusal :=
  aluRow false (fun c a b => aluAdd a b c) o s
def execSbc (o : OpR) (s : State) : Host.Outcome State Fault Refusal :=
  aluRow false (fun c a b => aluSub a b (!c)) o s
def execAbs (o : OpR) (s : State) : Host.Outcome State Fault Refusal :=
  aluRow true (fun _ a _ => aluAbs a) o s
def execClz (o : OpR) (s : State) : Host.Outcome State Fault Refusal :=
  aluRow true (fun _ a _ => aluClz a) o s
def execPopc (o : OpR) (s : State) : Host.Outcome State Fault Refusal :=
  aluRow true (fun _ a _ => aluPopc a) o s
def execSat16 (o : OpR) (s : State) : Host.Outcome State Fault Refusal :=
  aluRow true (fun _ a _ => aluSat16 a) o s
def execAndn (o : OpR) (s : State) : Host.Outcome State Fault Refusal :=
  aluRow false (fun _ a b => aluZN (a &&& ~~~b)) o s

/-! ### Immediate forms, R248 -/

/-- An immediate instruction that writes a register and no flag. -/
def immRow (op : Nat) (legal : OpI → Bool) (f : Word → BitVec 18 → Word) (o : OpI) (s : State) :
    Host.Outcome State Fault Refusal :=
  dyrelRow op (fun i s => plain (legal o) 1 (setReg i o.d (f (s.reg i o.a) o.imm))) s

/-- An immediate instruction that sets flags alone: d must be 0. -/
def flagRow (op : Nat) (f : Word → BitVec 18 → Alu) (o : OpI) (s : State) : Host.Outcome State Fault Refusal :=
  dyrelRow op (fun i s => plain (o.d == 0) 1 (fun t => t.modCtx i (Ctx.setFlags (f (s.reg i o.a) o.imm)))) s

/-- Any operands. -/
def anyI (_ : OpI) : Bool := true

/-- A shift by an immediate: imm18[17:5] must be 0. -/
def shiftI (o : OpI) : Bool := o.imm.toNat < 32

def execAddi (o : OpI) (s : State) : Host.Outcome State Fault Refusal :=
  immRow 0x01 anyI (fun a k => a + sextImm k) o s
def execAndi (o : OpI) (s : State) : Host.Outcome State Fault Refusal :=
  immRow 0x02 anyI (fun a k => a &&& zextImm k) o s
def execOri (o : OpI) (s : State) : Host.Outcome State Fault Refusal :=
  immRow 0x03 anyI (fun a k => a ||| zextImm k) o s
def execXori (o : OpI) (s : State) : Host.Outcome State Fault Refusal :=
  immRow 0x04 anyI (fun a k => a ^^^ zextImm k) o s
def execShli (o : OpI) (s : State) : Host.Outcome State Fault Refusal :=
  immRow 0x05 shiftI (fun a k => (aluShl a k.toNat).val) o s
def execShri (o : OpI) (s : State) : Host.Outcome State Fault Refusal :=
  immRow 0x06 shiftI (fun a k => (aluShr a k.toNat).val) o s
def execSari (o : OpI) (s : State) : Host.Outcome State Fault Refusal :=
  immRow 0x07 shiftI (fun a k => (aluSar a k.toNat).val) o s
def execMuli (o : OpI) (s : State) : Host.Outcome State Fault Refusal :=
  immRow 0x08 anyI (fun a k => a * sextImm k) o s
def execCmpi (o : OpI) (s : State) : Host.Outcome State Fault Refusal :=
  flagRow 0x09 (fun a k => aluSub a (sextImm k) false) o s
def execLui (o : OpI) (s : State) : Host.Outcome State Fault Refusal :=
  immRow 0x0A (fun o => o.a == 0) (fun _ k => zextImm k <<< 14) o s
def execMini (o : OpI) (s : State) : Host.Outcome State Fault Refusal :=
  immRow 0x0B anyI (fun a k => (aluMin a (sextImm k)).val) o s
def execMaxi (o : OpI) (s : State) : Host.Outcome State Fault Refusal :=
  immRow 0x0C anyI (fun a k => (aluMax a (sextImm k)).val) o s
def execTsti (o : OpI) (s : State) : Host.Outcome State Fault Refusal :=
  flagRow 0x0D (fun a k => aluZN (a &&& zextImm k)) o s

/-- The flags of a context meet a condition. -/
def Ctx.cond (c : Ctx) (code : Nat) : Bool := condHolds c.z c.n c.c c.v code

/-- CSEL: fn[13:4] must be 0, and the condition one of the 13. -/
def execCsel (o : OpA) (s : State) : Host.Outcome State Fault Refusal :=
  dyrelRow 0x0E (fun i s => plain (o.fn.toNat < 13) 1
    (setReg i o.d (if (s.ctx i).cond o.fn.toNat then s.reg i o.a else s.reg i o.b))) s

end Sys2Proof.Machine
end

