-- ==== Sys2Proof/Machine/DyrelFlow.lean ====
section
/-! DEFINITION. The loads, stores and control flow of Dyrel (R249-R253, R262, R267). -/

namespace Sys2Proof.Machine
open Sys2Proof

/-! ### Loads and stores -/

/-- A load of `n` bytes: ea wraps modulo 2^32 (R269); the register takes what `f` makes of the bytes. -/
def loadPlan (n : Nat) (f : Nat → Word) (o : OpI) (i : Nat) (s : State) : Plan :=
  let ea := (s.reg i o.a + sextImm o.imm).toNat
  { legal := true, cap := loadCap s i ea, bounds := loadBounds s i ea n, cost := 1 + (loadLine ea s).1,
    run := fun t => setReg i o.d (f (ofLe (loadBytes s i ea n))) (loadLine ea t).2 }

/-- A signed number of `w` bits as a word. -/
def signedW (w v : Nat) : Word := wordI (toS w v)

def execLdw (o : OpI) (s : State) : Host.Outcome State Fault Refusal := dyrelRow 0x10 (loadPlan 4 wordN o) s
def execLdh (o : OpI) (s : State) : Host.Outcome State Fault Refusal := dyrelRow 0x11 (loadPlan 2 (signedW 16) o) s
def execLdhu (o : OpI) (s : State) : Host.Outcome State Fault Refusal := dyrelRow 0x12 (loadPlan 2 wordN o) s
def execLdb (o : OpI) (s : State) : Host.Outcome State Fault Refusal := dyrelRow 0x13 (loadPlan 1 (signedW 8) o) s
def execLdbu (o : OpI) (s : State) : Host.Outcome State Fault Refusal := dyrelRow 0x14 (loadPlan 1 wordN o) s

/-- A store of the low `n` bytes of d: the b field must be 0 (R250). -/
def storePlan (n : Nat) (o : OpT) (i : Nat) (s : State) : Plan :=
  let ea := (s.reg i o.a + o.off.signExtend 32).toNat
  { legal := o.b == 0, cap := none, bounds := storeBounds ea n, cost := 1,
    run := writeRoom i ea (le n (s.reg i o.d).toNat) }

def execStw (o : OpT) (s : State) : Host.Outcome State Fault Refusal := dyrelRow 0x15 (storePlan 4 o) s
def execSth (o : OpT) (s : State) : Host.Outcome State Fault Refusal := dyrelRow 0x15 (storePlan 2 o) s
def execStb (o : OpT) (s : State) : Host.Outcome State Fault Refusal := dyrelRow 0x15 (storePlan 1 o) s

/-! ### Control flow -/

/-- Sets the pc. -/
def setPc (i pc : Nat) (s : State) : State := s.modCtx i (fun c => { c with pc := pc })

/-- The address `4 * off` bytes from an instruction. -/
def target (pc : Nat) (off : Int) : Nat := toU 32 ((pc : Int) + 4 * off)

/-- B: a reserved condition is illegal whether or not it branches. -/
def execBCond (o : OpB) (s : State) : Host.Outcome State Fault Refusal :=
  dyrelRow 0x16 (fun i s => plain (o.cond.toNat < 13) 1
    (fun t => if (s.ctx i).cond o.cond.toNat then setPc i (target (s.ctx i).pc o.off.toInt) t else t)) s

/-- CALL. -/
def execCallCond (o : OpB) (s : State) : Host.Outcome State Fault Refusal :=
  dyrelRow 0x17 (fun i s => plain (o.cond.toNat < 13) 1
    (fun t => if (s.ctx i).cond o.cond.toNat then
        setPc i (target (s.ctx i).pc o.off.toInt) (setReg i 15 (wordN ((s.ctx i).pc + 4)) t)
      else t)) s

/-- JMP: the target is taken before d is written; bits 1:0 of it must be 0 (R253). -/
def execJmp (o : OpI) (s : State) : Host.Outcome State Fault Refusal :=
  dyrelRow 0x18 (fun i s =>
    let t := (s.reg i o.a + sextImm o.imm).toNat
    { legal := true, cap := none, bounds := if t % 4 == 0 then none else some 3, cost := 1,
      run := fun u => setPc i t (setReg i o.d (wordN ((s.ctx i).pc + 4)) u) }) s

/-- LOOP: a must be 0 and d must not be. -/
def execLoop (o : OpI) (s : State) : Host.Outcome State Fault Refusal :=
  dyrelRow 0x19 (fun i s => plain (o.a == 0 && o.d != 0) 1
    (fun t =>
      let v := s.reg i o.d - 1
      let t := setReg i o.d v t
      if v == 0 then t else setPc i (target (s.ctx i).pc o.imm.toInt) t)) s

/-- BZ and BNZ: d must be 0. -/
def execBz (o : OpI) (s : State) : Host.Outcome State Fault Refusal :=
  dyrelRow 0x1A (fun i s => plain (o.d == 0) 1
    (fun t => if s.reg i o.a == 0 then setPc i (target (s.ctx i).pc o.imm.toInt) t else t)) s
def execBnz (o : OpI) (s : State) : Host.Outcome State Fault Refusal :=
  dyrelRow 0x1B (fun i s => plain (o.d == 0) 1
    (fun t => if s.reg i o.a == 0 then t else setPc i (target (s.ctx i).pc o.imm.toInt) t)) s

/-- YIELD: every other field must be 0; it ends the entry. -/
def execYield (o : OpA) (s : State) : Host.Outcome State Fault Refusal :=
  dyrelRow 0x39 (fun i _ => plain (o.d == 0 && o.a == 0 && o.b == 0 && o.fn == 0) 1 (setPc i endAddr)) s

/-- BRK is always illegal (R267). -/
def execBrk (_rest : BitVec 26) (s : State) : Host.Outcome State Fault Refusal :=
  dyrelRow 0x3E (fun _ _ => plain false 0 id) s

/-- The major opcodes that R242 assigns. -/
def assignedOp (op : Nat) : Bool :=
  op ≤ 0x0E || (0x10 ≤ op && op ≤ 0x1B) || (0x20 ≤ op && op ≤ 0x24) || (0x2C ≤ op && op ≤ 0x30) ||
  (0x34 ≤ op && op ≤ 0x36) || (0x38 ≤ op && op ≤ 0x3E)

/-- A word whose encoding is reserved: ILLEGAL with its major opcode (R242, R247, R250, R265, R267). -/
def execReservedOpcode (word : Word) (s : State) : Host.Outcome State Fault Refusal :=
  dyrelRow (word.toNat / 2 ^ 26) (fun _ _ => plain false 0 id) s

end Sys2Proof.Machine
end

