-- ==== Sys2Proof/Machine/DyrelPlane.lean ====
section
/-! DEFINITION. The plane operations and the contact operations of Dyrel (R254-R257). -/

namespace Sys2Proof.Machine
open Sys2Proof

/-! ### Planes -/

/-- A quarter of a count, rounded up. -/
def quarterUp (n : Nat) : Nat := ceilDiv n 4

/-- Whether plane operations exist and the plane is one the operation takes. -/
def planeOk (s : State) (k : Nat) (allowed : Nat → Bool) : Bool := s.feat 33 && (planeShape k).isSome && allowed k

/-- PLD. -/
def execPld (o : OpP) (s : State) : Host.Outcome State Fault Refusal :=
  dyrelRow 0x20 (fun i s =>
    let k := o.plane.toNat
    let e := (s.reg i o.a).toNat
    { legal := planeOk s k (fun _ => true) && o.fn == 0, cap := planeCap s i k
      bounds := if e < ((planeShape k).map (·.1)).getD 0 then none else some 0
      cost := 2, run := setRegZN i o.d (planeElem s k e) }) s

/-- A reduction of PRED over the elements of a box, R256. -/
def reduce (kind : Nat) (xs : List (Nat × Int)) : Word :=
  match xs with
  | [] => 0x80000000#32
  | x :: r =>
    let hi := r.foldl (fun a y => if a.2 < y.2 then y else a) x
    let lo := r.foldl (fun a y => if y.2 < a.2 then y else a) x
    match kind with
    | 0 => wordI (clampI (-2147483648) 2147483647 (sumI (xs.map (·.2))))
    | 1 => wordI hi.2
    | 2 => wordI lo.2
    | 3 => wordN hi.1
    | _ => wordN lo.1

/-- The plan of an operation over a box. -/
def boxPlan (legal : Bool) (k : Nat) (q : Bool) (w : Word) (i : Nat) (s : State) (run : List (Nat × Int) → State → State) :
    Plan :=
  let box := boxOf k w
  { legal := legal, cap := planeCap s i k, bounds := if box.isSome then none else some 0
    cost := 4 + quarterUp (box.getD []).length
    run := run (boxElems s k q (box.getD [])) }

/-- PRED. -/
def execPred (o : OpP) (s : State) : Host.Outcome State Fault Refusal :=
  dyrelRow 0x21 (fun i s =>
    let k := o.plane.toNat
    let f := o.fn.toNat
    boxPlan (planeOk s k (· != 4) && f % 8 ≤ 4 && f < 16 && (f < 8 || selfPlane k)) k (8 ≤ f) (s.reg i o.a) i s
      (fun xs => setRegZN i o.d (reduce (f % 8) xs))) s

/-- The comparisons of PCNT. -/
def compares (k : Nat) (v x : Int) : Bool :=
  match k with
  | 0 => x ≤ v
  | 1 => v ≤ x
  | 2 => v == x
  | _ => v != x

/-- PCNT. -/
def execPcnt (o : OpP) (s : State) : Host.Outcome State Fault Refusal :=
  dyrelRow 0x22 (fun i s =>
    let k := o.plane.toNat
    let f := o.fn.toNat
    let x := (s.reg i o.d).toInt
    boxPlan (planeOk s k (· != 4) && bits f 2 1 == 0 && f < 16 && (f < 8 || selfPlane k)) k (8 ≤ f) (s.reg i o.a) i s
      (fun xs => setRegZN i o.d (wordN (xs.filter (fun e => compares (f % 4) e.2 x)).length))) s

/-- The weighted centroid of PCENT. -/
def centroidOf (xs : List (Nat × Int)) : Word :=
  let ws := xs.map (fun (i, v) => (i, (max v 0).toNat))
  let sw := sumN (ws.map (·.2))
  if sw == 0 then 0xFFFFFFFF#32
  else
    let ct := sumN (ws.map (fun (i, w) => w * (256 * (i / 40) + 128))) / sw
    let cr := sumN (ws.map (fun (i, w) => w * (256 * (i % 40) + 128))) / sw
    wordN (ct * 65536 ||| cr)

/-- PCENT. -/
def execPcent (o : OpP) (s : State) : Host.Outcome State Fault Refusal :=
  dyrelRow 0x23 (fun i s =>
    let k := o.plane.toNat
    boxPlan (planeOk s k (fun k => k ≤ 3 || (7 ≤ k && k ≤ 9)) && o.fn == 0) k false (s.reg i o.a) i s
      (fun xs => setRegZN i o.d (centroidOf xs))) s

/-- PCOPY: register d is read; the destination lies in the room, aligned to the element. -/
def execPcopy (o : OpP) (s : State) : Host.Outcome State Fault Refusal :=
  dyrelRow 0x24 (fun i s =>
    let k := o.plane.toNat
    let n := o.fn.toNat
    let e := (s.reg i o.a).toNat
    let dst := (s.reg i o.d).toNat
    let (size, w) := (planeShape k).getD (0, 1)
    { legal := planeOk s k (fun _ => true) && 1 ≤ n && n ≤ 2560, cap := planeCap s i k
      bounds := if size < e + n then some 0 else if dst % w == 0 && inRoom dst (n * w) then none else some 1
      cost := 4 + ceilDiv n 2
      run := writeRoom i dst ((List.range n).flatMap (fun j => le w (planeElem s k (e + j)).toNat)) }) s

/-! ### Contacts -/

/-- Whether a contact's phase is in a mask. -/
def inMask (mask : Nat) (c : Contact) : Bool := bit mask (phaseOf c)

/-- A phase mask: fn[13:4] and bit 0 must be 0. -/
def maskOk (fn : BitVec 14) : Bool := fn.toNat < 16 && bits fn.toNat 0 1 == 0

/-- CNEXT. -/
def execCnext (o : OpA) (s : State) : Host.Outcome State Fault Refusal :=
  dyrelRow 0x2C (fun i s => plain (o.b == 0 && maskOk o.fn) 2
    (setRegZN i o.d (match (s.visible i).find? (fun c => (s.reg i o.a).toNat ≤ c.id && inMask o.fn.toNat c) with
      | some c => wordN c.id
      | none => 0xFFFFFFFF#32))) s

/-- A visible contact by the ID that a register holds. -/
def State.contactOf (s : State) (i : Nat) (w : Word) : Option Contact :=
  if w.toNat < 64 then s.contactFor i w.toNat else none

/-- Displacement since the previous frame, 0 in the frame of confirmation. -/
def moveOf (c : Contact) : Int × Int := if c.isNew then (0, 0) else ((c.gx : Int) - c.oldX, (c.gy : Int) - c.oldY)

/-- A field of CGET. -/
def contactField (k : Nat) (c : Contact) : Word :=
  match k with
  | 0 => wordN c.gx
  | 1 => wordN c.gy
  | 2 => wordN c.strength
  | 3 => wordI (sat16 c.amp)
  | 4 => wordN (c.flags % 256)
  | 5 => wordN (phaseOf c)
  | 6 => wordN (min 255 c.age)
  | 7 => wordN c.onset
  | 8 => wordN (c.flags % 8)
  | 9 => wordI (moveOf c).1
  | _ => wordI (moveOf c).2

/-- CGET. -/
def execCget (o : OpA) (s : State) : Host.Outcome State Fault Refusal :=
  dyrelRow 0x2D (fun i s => plain (o.b == 0 && o.fn.toNat ≤ 10) 2
    (setRegZN i o.d (match s.contactOf i (s.reg i o.a) with
      | some c => contactField o.fn.toNat c
      | none => 0))) s

/-- CDIST. -/
def execCdist (o : OpA) (s : State) : Host.Outcome State Fault Refusal :=
  dyrelRow 0x2E (fun i s => plain (o.fn == 0) 4
    (setRegZN i o.d (match s.contactOf i (s.reg i o.a), s.contactOf i (s.reg i o.b) with
      | some a, some b => wordN (roundSqrt (sq2 a.gx a.gy b.gx b.gy))
      | _, _ => 0xFFFFFFFF#32))) s

/-- CIN: four unsigned halfwords x0, y0, x1, y1 at a room address. -/
def execCin (o : OpA) (s : State) : Host.Outcome State Fault Refusal :=
  dyrelRow 0x2F (fun i s =>
    let a := (s.reg i o.b).toNat
    let p := roomBytes s i a 8
    { legal := o.fn == 0, cap := none, bounds := if a % 2 == 0 && inRoom a 8 then none else some 0, cost := 3
      run := setRegZN i o.d (match s.contactOf i (s.reg i o.a) with
        | some c => wordN (flag (leAt p 0 2 ≤ c.gx && c.gx < leAt p 4 2 && leAt p 2 2 ≤ c.gy && c.gy < leAt p 6 2))
        | none => 0) }) s

/-- CCOUNT. -/
def execCcount (o : OpA) (s : State) : Host.Outcome State Fault Refusal :=
  dyrelRow 0x30 (fun i s => plain (o.a == 0 && o.b == 0 && maskOk o.fn) 2
    (setRegZN i o.d (wordN ((s.visible i).filter (inMask o.fn.toNat)).length))) s

end Sys2Proof.Machine
end

