-- ==== Sys2Proof/Machine/DyrelSys.lean ====
section
/-! DEFINITION. The rows of Dyrel that reach beyond the context: events and mail, LEAVE, TIME, SPAN, SYS and MEM
(R258-R266, R425).
Conventions that the spec leaves open: log 17 (DESIGN CHOICE), log 27 (DEDUCED). -/

namespace Sys2Proof.Machine
open Sys2Proof

/-- The capability that a context lacks. -/
def lacks (s : State) (i k : Nat) : Option Nat := if s.holds i k then none else some k

/-- Changes the open turn. -/
def modTurn (f : Turn → Turn) (s : State) : State := { s with eng.turn := s.eng.turn.map f }

/-! ### Events and mail -/

/-- A record of a context's own (R258). -/
def emitRec (i typ time : Nat) (payload : List Byte) (s : State) : State :=
  modTurn (fun t => { t with emits := t.emits + 1 })
    (putCtx i { time := time, origin := s.originOf i, typ := typ, payload := payload } s)

/-- The types that a program may emit. -/
def emitType (t : Nat) : Bool := (1 ≤ t && t ≤ 6) || 0x80 ≤ t

/-- EMIT: a contact record from the contact's present entry, or eight bytes of the program's. -/
def execEmit (o : OpA) (s : State) : Host.Outcome State Fault Refusal :=
  dyrelRow 0x34 (fun i s =>
    let t := o.fn.toNat % 256
    let full := 16 ≤ ((s.eng.turn.map (·.emits)).getD 0)
    { legal := o.fn.toNat < 256 && emitType t && (4 ≤ t || o.b == 0), cap := lacks s i 0, bounds := none, cost := 4
      run := fun u =>
        if full then setRegZN i o.d 2 u
        else if t ≤ 3 then
          match s.contactOf i (s.reg i o.a) with
          | some c => setRegZN i o.d 1 (emitRec i t (if t == 1 then c.onset else s.frame.mutComp) (contactPayload c) u)
          | none => setRegZN i o.d 0 u
        else setRegZN i o.d 1 (emitRec i t s.frame.mutComp (le 4 (s.reg i o.a).toNat ++ le 4 (s.reg i o.b).toNat) u) }) s

/-- MAILP: the box is posted unless the host has yet to read it (R231). -/
def execMailp (o : OpA) (s : State) : Host.Outcome State Fault Refusal :=
  dyrelRow 0x35 (fun i s =>
    let n := o.fn.toNat
    let a := (s.reg i o.a).toNat
    { legal := 1 ≤ n && n ≤ 64 && o.b == 0, cap := lacks s i 9, bounds := if inRoom a n then none else some 0
      cost := 4 + quarterUp n
      run := fun u =>
        if (s.ctx i).mailOut.isEmpty then
          let u := u.modCtx i (fun c => { c with mailOut := roomBytes s i a n })
          setRegZN i o.d 1 (putCtx i { time := s.clk.tb, origin := s.originOf i, typ := 0x11, payload := fit 8 0 [b8 n] } u)
        else setRegZN i o.d 0 u }) s

/-- MAILACK. -/
def execMailack (o : OpA) (s : State) : Host.Outcome State Fault Refusal :=
  dyrelRow 0x36 (fun i s => plain (o.a == 0 && o.b == 0 && o.fn == 0) 2
    (fun u =>
      let n := mailLen (s.ctx i)
      let u := if (s.ctx i).mailVis then
          u.modCtx i (fun c => { c with mailIn := [], mailVis := false, mailNew := false })
        else u
      setRegZN i o.d (wordN n) u)) s

/-! ### LEAVE -/

/-- The classes that LEAVE may name (R65, R261). -/
def leaveClass (k : Nat) : Bool := k == 2 || (4 ≤ k && k ≤ 8)

/-- The rights of LEAVE: POWER, and BACKLIGHT for that class. -/
def leaveCap (s : State) (i k : Nat) : Option Nat :=
  match lacks s i 5 with
  | some x => some x
  | none => if k == 5 then lacks s i 10 else none

/-- The decoding of LEAVE: the class, and the revocable bit for USER alone. -/
def leaveLegal (o : OpL) : Bool :=
  o.hi == 0 && o.b == 0 && leaveClass (o.lo.toNat % 16) && (o.lo.toNat < 16 || o.lo.toNat % 16 == 8)

/-- LEAVE: enters a request. -/
def execLeave (o : OpL) (s : State) : Host.Outcome State Fault Refusal :=
  dyrelRow 0x38 (fun i s =>
    let k := o.lo.toNat % 16
    let cost := (s.reg i o.a).toNat
    { legal := leaveLegal o, cap := leaveCap s i k, bounds := none, cost := 4
      run := fun u =>
        if (s.reqOf k i).isSome || (s.grantOf k i).isSome then setRegZN i o.d 2 u
        else if cost < 1 || 255 < cost then setRegZN i o.d 4 u
        else setRegZN i o.d 0 (request k i cost false 0 (if k == 8 then 16 ≤ o.lo.toNat else classRevocable k) u) }) s

/-- LEAVE with RELEASE: withdraws a request or releases a grant. -/
def execLeaveRelease (o : OpL) (s : State) : Host.Outcome State Fault Refusal :=
  dyrelRow 0x38 (fun i s =>
    let k := o.lo.toNat % 16
    { legal := leaveLegal o, cap := leaveCap s i k, bounds := none, cost := 4
      run := fun u =>
        if (s.reqOf k i).isSome then setRegZN i o.d 1 (withdraw k i u)
        else if (s.grantOf k i).isSome then setRegZN i o.d 1 (releaseGrant k i u)
        else setRegZN i o.d 3 u }) s

/-! ### TIME -/

/-- The value of a selector, R263; the costs are of this turn. -/
def timeValue (s : State) (i k : Nat) : Nat :=
  let used := (s.eng.turn.map (·.used)).getD 0
  match k with
  | 0 => s.frame.mutComp % 2 ^ 32
  | 1 => s.frame.mutComp / 2 ^ 32
  | 2 => used
  | 3 => (s.ctx i).budget - used - 1
  | 4 => s.frame.comp
  | 5 => leAt s.eng.frameShelf 40 4
  | _ => leAt s.eng.frameShelf 44 4

/-- TIME. -/
def execTime (o : OpA) (s : State) : Host.Outcome State Fault Refusal :=
  dyrelRow 0x3A (fun i s => plain (o.a == 0 && o.b == 0 && o.fn.toNat ≤ 6) 1
    (setRegZN i o.d (wordN (timeValue s i o.fn.toNat)))) s

/-! ### SPAN -/

/-- The other members of the part's island. -/
def State.others (s : State) : BitVec 16 := if s.inSpan then setBit s.span.members s.pins.gpos false else 0

/-- SPAN, send: eight bytes to one member or to every other; they leave with the pass. -/
def execSpanSend (o : OpL) (s : State) : Host.Outcome State Fault Refusal :=
  dyrelRow 0x3B (fun i s =>
    let all := 16 ≤ o.lo.toNat
    let mask : BitVec 16 := if all then s.others else s.others &&& BitVec.ofNat 16 (2 ^ (o.lo.toNat % 16))
    let room := ((s.eng.turn.map (·.sends)).getD 0) < 4
    { legal := s.feat 34 && o.hi == 0 && (!all || o.lo.toNat == 16), cap := lacks s i 8, bounds := none, cost := 6
      run := fun u =>
        if mask != 0 && room then
          let u := modTurn (fun t => { t with sends := t.sends + 1 }) u
          setRegZN i o.d 1 { u with
            spanx.msgsOut := u.spanx.msgsOut ++ [(i, mask.toNat, le 4 (s.reg i o.a).toNat ++ le 4 (s.reg i o.b).toNat)] }
        else setRegZN i o.d 0 u }) s

/-- SPAN, receive: a word of the message of the notice whose event entry runs. -/
def execSpanReceive (o : OpL) (s : State) : Host.Outcome State Fault Refusal :=
  dyrelRow 0x3B (fun i s =>
    { legal := s.feat 34 && o.hi.toNat < 2 && o.a == 0 && o.b == 0 && o.lo == 0, cap := lacks s i 8, bounds := none, cost := 6
      run :=
        match (s.eng.turn.bind (·.msg)) with
        | some m =>
          if m.word % 256 == 4 then
            fun u => (setRegZN i o.d (wordN (leAt m.msg (4 * o.hi.toNat) 4)) u).modCtx i (fun c => { c with c := true })
          else setRegZN i o.d 0
        | none => setRegZN i o.d 0 }) s

/-! ### SYS -/

/-- A profile record is assigned to a set; it takes effect at a frame boundary (R123, R124). -/
def assignProfile (set stock : Nat) (record : List Byte) (s : State) : State :=
  { s with fe.sets := s.fe.sets.set set { stock := stock, record := record } }

/-- The SYS functions share their form: fn[13:4] is 0, the capability, the result in d (R265). -/
def sysRow (cap : Nat) (o : OpS) (f : Nat → Word → Word → State → Option (Word × (State → State))) (s : State) :
    Host.Outcome State Fault Refusal :=
  dyrelRow 0x3C (fun i s =>
    { legal := o.rsv == 0, cap := lacks s i cap, bounds := none, cost := 4
      run := match f i (s.reg i o.a) (s.reg i o.b) s with
        | some (d, g) => fun u => setRegZN i o.d d (g u)
        | none => setRegZN i o.d 0 }) s

/-- LEDGER: adds to a program counter of the open period. -/
def execSysLedger (o : OpS) (s : State) : Host.Outcome State Fault Refusal :=
  sysRow 6 o (fun _ a b s =>
    if b.toNat ≤ 3 && s.feat 83 then
      some (1, fun u => { u with led.period.progs := modAt (fun v => min 0xFFFFFFFF (v + a.toNat)) b.toNat u.led.period.progs })
    else none) s

/-- FAN: asks for a target floor; 0 withdraws. -/
def execSysFan (o : OpS) (s : State) : Host.Outcome State Fault Refusal :=
  sysRow 4 o (fun i a b s =>
    if b.toNat ≤ 2 && a.toNat ≤ 20000 && s.feat 64 then
      some (1, fun u => u.modRun i (fun r => { r with fanReq := r.fanReq.set b.toNat a.toNat }))
    else none) s

/-- BACKLIGHT: asks for a duty. -/
def execSysBacklight (o : OpS) (s : State) : Host.Outcome State Fault Refusal :=
  sysRow 10 o (fun i a b s =>
    if b.toNat ≤ 1 && a.toNat ≤ 1000 && s.feat 66 then
      some (1, fun u => u.modRun i (fun r => { r with blReq := r.blReq.set b.toNat (some a.toNat) }))
    else none) s

/-- PROFILE: assigns a stock profile as FE_PROFILE does; a span member is refused. -/
def execSysProfile (o : OpS) (s : State) : Host.Outcome State Fault Refusal :=
  sysRow 2 o (fun _ a b s =>
    if a.toNat ≤ 3 && b.toNat ≤ 2 && Profile.fits (stockProfile a.toNat) b.toNat && !s.inSpan then
      some (1, assignProfile b.toNat a.toNat (stockProfile a.toNat))
    else none) s

/-- FREEZE: the mask applies at the next K. -/
def execSysFreeze (o : OpS) (s : State) : Host.Outcome State Fault Refusal :=
  sysRow 3 o (fun _ a _ _ =>
    if a.toNat < 256 then some (1, fun u => { u with eng.freezeNext := some a.toNat }) else none) s

/-- CALRD: reads a register of block 0x5000; b selects the channel or the node. -/
def execSysCalrd (o : OpS) (s : State) : Host.Outcome State Fault Refusal :=
  sysRow 3 o (fun _ a b s =>
    let k := a.toNat
    let n := b.toNat
    if (k == 0x5010 && 40 ≤ n) || (0x5018 ≤ k && k ≤ 0x5020 && 2560 ≤ n) then none
    else (calReg s k n n).map (fun v => (wordN v, id))) s

/-! ### MEM -/

/-- The areas of a profile as (offset, length) (R402). -/
def areaOf (p : List Byte) (at_ : Nat) : Nat × Nat := (leAt p at_ 4, leAt p (at_ + 4) 4)

/-- Whether a range lies within an area. -/
def within (a n : Nat) (r : Nat × Nat) : Bool := r.1 ≤ a && a + n ≤ r.1 + r.2

/-- Whether a range touches an image bound for execution in place (R284). -/
def touchesXip (s : State) (a n : Nat) : Bool :=
  s.ctxs.any (fun c => c.st != 0 && c.prog == .image && c.img.xip && overlap a n (c.img.base - 64) c.img.span)

/-- Whether the one flash operation is in use (R416). -/
def State.flashBusy (s : State) : Bool :=
  s.mem.op.isSome || !s.mem.waiting.isEmpty || s.mem.xfer.isSome

/-- Bytes that a descriptor's transfer covers in flash: an erase covers its sector or block. -/
def descLen (p : List Byte) (kind len : Nat) : Nat :=
  if kind == 2 then sectorSize p else if kind == 3 then blockSize p else len

/-- The result of START on a descriptor, before it starts (R266, R425). -/
def descResult (s : State) (d : List Byte) : Nat :=
  let p := s.flashProfile
  let kind := byteAt d 0
  let off := leAt d 4 4
  let len := leAt d 8 2
  let buf := leAt d 10 2
  let n := descLen p kind len
  let fields := kind ≤ 3 && leAt d 1 3 == 0 && leAt d 12 4 == 0 &&
    (if kind ≤ 1 then 1 ≤ len && len ≤ 4096 && buf + len ≤ 8192 else len == 0 && 0 < n && off % n == 0)
  let place := if kind == 0 then off + len ≤ min s.flashSize (64 * 2 ^ 20) else within off n (areaOf p 120)
  if !s.feat 80 then 4
  else if s.mem.profile.isNone then 1
  else if !fields || !place then 3
  else if s.fenced off n then 2
  else if s.flashBusy || (kind != 0 && touchesXip s off n) ||
      (kind != 0 && s.mem.xipEn && templEmpty (templ p 6)) then 1
  else 0

/-- A transfer starts: a read at once, a program or an erase with its leave (R411, R412, R425). -/
def descStart (i : Nat) (d : List Byte) (s : State) : State :=
  let p := s.flashProfile
  let kind := byteAt d 0
  let off := leAt d 4 4
  let len := leAt d 8 2
  let buf := leAt d 10 2
  let x : MemXfer := { ctx := i, write := kind != 0, flash := off, room := buf, len := len }
  let s := { s with mem.xfer := some x }
  let s := s.modRun i (fun r => { r with poll := 1 })
  if kind == 0 then otherRead s
  else
    startFlash { kind := if kind == 1 then 1 else 2, who := 6, addr := off, len := descLen p kind len
                 data := if kind == 1 then Memory.readN 0 (s.ctx i).room buf len else [], tag := none, ctx := i
                 granted := false, running := false, eraseCode := kind - 2, seq := 0 } s

/-- MEM START. -/
def execMemStart (o : OpM) (s : State) : Host.Outcome State Fault Refusal :=
  dyrelRow 0x3D (fun i s =>
    let a := (s.reg i o.a).toNat
    let d := roomBytes s i a 16
    let r := descResult s d
    { legal := o.rsv == 0 && o.b == 0, cap := lacks s i 7, bounds := if inRoom a 16 then none else some 0, cost := 6
      run := fun u => setRegZN i o.d (wordN r) (if r == 0 then descStart i d u else u) }) s

/-- MEM POLL. -/
def execMemPoll (o : OpM) (s : State) : Host.Outcome State Fault Refusal :=
  dyrelRow 0x3D (fun i s =>
    { legal := o.rsv == 0 && o.b == 0 && o.a == 0, cap := lacks s i 7, bounds := none, cost := 6
      run := setRegZN i o.d (wordN (if s.feat 80 then (s.run i).poll else 4)) }) s

end Sys2Proof.Machine
end

