-- ==== Sys2Proof/Machine/Engine.lean ====
section
/-! DEFINITION. The Dyrel engine: fetch, decode and execution of one instruction of the open turn, the pass run to its end,
and what the block does while no command waits (R226, R239, R245).
Conventions that the spec leaves open: log 17 (DESIGN CHOICE). -/

namespace Sys2Proof.Machine
open Sys2Proof

/-- The state an outcome goes on with; the Dyrel rows always have one. -/
def nextOf (s : State) : Host.Outcome State Fault Refusal → State
  | .next t => t
  | _ => s

/-- One decoded instruction. -/
def runInstr (i : Instr) (s : State) : State :=
  match i with
  | .add o => nextOf s (execAdd o s)
  | .sub o => nextOf s (execSub o s)
  | .and o => nextOf s (execAnd o s)
  | .or o => nextOf s (execOr o s)
  | .xor o => nextOf s (execXor o s)
  | .shl o => nextOf s (execShl o s)
  | .shr o => nextOf s (execShr o s)
  | .sar o => nextOf s (execSar o s)
  | .mul o => nextOf s (execMul o s)
  | .mulh o => nextOf s (execMulh o s)
  | .mulhu o => nextOf s (execMulhu o s)
  | .min o => nextOf s (execMin o s)
  | .max o => nextOf s (execMax o s)
  | .minu o => nextOf s (execMinu o s)
  | .maxu o => nextOf s (execMaxu o s)
  | .adc o => nextOf s (execAdc o s)
  | .sbc o => nextOf s (execSbc o s)
  | .abs o => nextOf s (execAbs o s)
  | .clz o => nextOf s (execClz o s)
  | .popc o => nextOf s (execPopc o s)
  | .sat16 o => nextOf s (execSat16 o s)
  | .andn o => nextOf s (execAndn o s)
  | .addi o => nextOf s (execAddi o s)
  | .andi o => nextOf s (execAndi o s)
  | .ori o => nextOf s (execOri o s)
  | .xori o => nextOf s (execXori o s)
  | .shli o => nextOf s (execShli o s)
  | .shri o => nextOf s (execShri o s)
  | .sari o => nextOf s (execSari o s)
  | .muli o => nextOf s (execMuli o s)
  | .cmpi o => nextOf s (execCmpi o s)
  | .lui o => nextOf s (execLui o s)
  | .mini o => nextOf s (execMini o s)
  | .maxi o => nextOf s (execMaxi o s)
  | .tsti o => nextOf s (execTsti o s)
  | .ldw o => nextOf s (execLdw o s)
  | .ldh o => nextOf s (execLdh o s)
  | .ldhu o => nextOf s (execLdhu o s)
  | .ldb o => nextOf s (execLdb o s)
  | .ldbu o => nextOf s (execLdbu o s)
  | .jmp o => nextOf s (execJmp o s)
  | .loop o => nextOf s (execLoop o s)
  | .bz o => nextOf s (execBz o s)
  | .bnz o => nextOf s (execBnz o s)
  | .csel o => nextOf s (execCsel o s)
  | .cnext o => nextOf s (execCnext o s)
  | .cget o => nextOf s (execCget o s)
  | .cdist o => nextOf s (execCdist o s)
  | .cin o => nextOf s (execCin o s)
  | .ccount o => nextOf s (execCcount o s)
  | .emit o => nextOf s (execEmit o s)
  | .mailp o => nextOf s (execMailp o s)
  | .mailack o => nextOf s (execMailack o s)
  | .yield o => nextOf s (execYield o s)
  | .time o => nextOf s (execTime o s)
  | .bCond o => nextOf s (execBCond o s)
  | .callCond o => nextOf s (execCallCond o s)
  | .pld o => nextOf s (execPld o s)
  | .pred o => nextOf s (execPred o s)
  | .pcnt o => nextOf s (execPcnt o s)
  | .pcent o => nextOf s (execPcent o s)
  | .pcopy o => nextOf s (execPcopy o s)
  | .stw o => nextOf s (execStw o s)
  | .sth o => nextOf s (execSth o s)
  | .stb o => nextOf s (execStb o s)
  | .sysLedger o => nextOf s (execSysLedger o s)
  | .sysFan o => nextOf s (execSysFan o s)
  | .sysBacklight o => nextOf s (execSysBacklight o s)
  | .sysProfile o => nextOf s (execSysProfile o s)
  | .sysFreeze o => nextOf s (execSysFreeze o s)
  | .sysCalrd o => nextOf s (execSysCalrd o s)
  | .leave o => nextOf s (execLeave o s)
  | .leaveRelease o => nextOf s (execLeaveRelease o s)
  | .spanSend o => nextOf s (execSpanSend o s)
  | .spanReceive o => nextOf s (execSpanReceive o s)
  | .memStart o => nextOf s (execMemStart o s)
  | .memPoll o => nextOf s (execMemPoll o s)
  | .brk r => nextOf s (execBrk r s)
  | .reservedOpcode w => nextOf s (execReservedOpcode w s)
  | _ => s

/-- What a fetch meets: the trap it raises, or the word, its stall and the state after it (R222, R245). -/
inductive Fetch where
  | trapped (detail : Nat)
  | word (w : Word) (stall : Nat) (s : State)

/-- The fetch at a context's pc: beyond the segment BOUNDS 2, from a fenced sector BOUNDS 4. A segment in the flash window
is fetched through the prefetch lines. -/
def fetchAt (i : Nat) (s : State) : Fetch :=
  let c := s.ctx i
  let g := c.img
  if c.pc % 4 != 0 || g.size < c.pc + 4 then .trapped 2
  else if g.xip then
    let o := g.base + c.pc
    if s.window < o + 4 then .trapped 2
    else if s.fenced o 4 then .trapped 4
    else
      let (n, t) := useLine o s
      .word (wordN (ofLe (readFlash s o 4))) n t
  else .word (wordN (ofLe (Memory.readN 0 s.eng.code (g.base + c.pc) 4))) 0 s

/-- One instruction of the open turn; without one nothing changes. -/
def engineStep (s : State) : State :=
  match s.eng.turn with
  | none => s
  | some t =>
    if !t.inEntry then settleTurn turnFuel s
    else match fetchAt t.cur s with
      | .trapped d => trap t.cur 3 d s
      | .word w n u => runInstr (decodeWord w) (if n == 0 then u else charge n u)

/-- The pass runs to its end. -/
def runPass : Nat → State → State
  | 0, s => s
  | k + 1, s => match s.eng.turn with
    | none => s
    | some _ => runPass k (engineStep s)

/-- More steps than the budgets of all contexts allow instructions: R228 bounds their sum. -/
def passFuel : Nat := 600000

/-- What the block does while no command waits: the engine runs one instruction of an open turn; otherwise one tick passes
(DESIGN CHOICE, log 1). -/
def idle (s : State) : State := if s.eng.turn.isSome then engineStep s else advance 1 s

end Sys2Proof.Machine
end

