-- ==== Sys2Proof/Machine/Journal.lean ====
section
/-! DEFINITION. The journal and its spill, the wall clock and the ledger (R504-R531).
Conventions that the spec leaves open: log 26 (DEDUCED). -/

namespace Sys2Proof.Machine
open Sys2Proof

/-! ### Operations of the house program on flash (R416, R523) -/

/-- A flash operation before its grant. -/
def mkOp (kind who addr len : Nat) (data : List Byte) (tag : Option Nat) (eraseCode : Nat) : FlashOp :=
  { kind := kind, who := who, addr := addr, len := len, data := data, tag := tag, ctx := 0, granted := false,
    running := false, eraseCode := eraseCode, seq := 0 }

/-- The order in which operations that wait are taken: recoveries and the map's, the ledger's, the spill's, then those of a
host or a context (R416). -/
def opRank (o : FlashOp) : Nat :=
  match o.who with
  | 2 => 1 | 1 => 2 | 0 => 3 | 6 => 3
  | _ => 0

/-- An operation waits behind those that are taken before it. -/
def waitOp (o : FlashOp) (s : State) : State :=
  let before (w : FlashOp) : Bool := opRank w ≤ opRank o
  { s with mem.waiting := s.mem.waiting.takeWhile before ++ o :: s.mem.waiting.dropWhile before }

/-- A house operation: it starts when the port is free, else it waits. One of a host or a context that still waits for its
leave stands back for it, and asks again in its turn (R416). -/
def houseOp (o : FlashOp) (s : State) : State :=
  match s.mem.op with
  | some h =>
    if !h.running && opRank h == 3 then
      startFlash o (waitOp h (dropReReq (opClass h) 0x52 (withdraw (opClass h) 0x52 { s with mem.op := none })))
    else waitOp o s
  | none => if s.flashBusy then waitOp o s else startFlash o s

/-- The map's spill and ledger areas where MEM_PORT holds a map. -/
def State.spillArea (s : State) : Option (Nat × Nat) := s.mem.map.bind (·.spill)
def State.ledgerArea (s : State) : Option (Nat × Nat) := s.mem.map.bind (·.ledger)

/-! ### The journal, R504-R506 -/

/-- The oldest number held in RAM. -/
def State.oldestRam (s : State) : Nat := (s.jrn.next + 2 ^ 32 - s.jrn.ring.length) % 2 ^ 32

/-- A record held in RAM, by its number. -/
def ramRecord (s : State) (n : Nat) : Option Rec :=
  let d := (n + 2 ^ 32 - s.oldestRam) % 2 ^ 32
  if d < s.jrn.ring.length then s.jrn.ring[d]? else none

/-- A record in its 16 bytes, R314. -/
def recBytes (r : Rec) : List Byte := le 6 r.time ++ [b8 r.origin, b8 r.typ] ++ fit 8 0 r.payload

/-- The record that 16 bytes spell. -/
def recOf (b : List Byte) : Rec :=
  { time := leAt b 0 6, origin := byteAt b 6, typ := byteAt b 7, payload := slice b 8 8 }

/-- A valid spill chunk, R507. -/
def chunkOk (c : List Byte) : Bool := byteAt c 245 == 0x5C && leAt c 252 4 == crc32c (c.take 252)

/-- The valid chunks of a range of the spill area. -/
def chunksIn (s : State) (a n : Nat) : List (List Byte) :=
  ((List.range (n / 256)).map (fun k => readFlash s (a + 256 * k) 256)).filter chunkOk

/-- The chunks that spill holds. -/
def State.chunks (s : State) : List (List Byte) :=
  match s.spillArea with
  | some (a, n) => chunksIn s a n
  | none => []

/-- A record held in spill. -/
def spillRecord (s : State) (n : Nat) : Option Rec :=
  (s.chunks.find? (fun c => (n + 2 ^ 32 - leAt c 240 4) % 2 ^ 32 < byteAt c 244)).map (fun c =>
    recOf (slice c (16 * ((n + 2 ^ 32 - leAt c 240 4) % 2 ^ 32)) 16))

/-- A record held in RAM or in spill. -/
def heldRecord (s : State) (n : Nat) : Option Rec :=
  match ramRecord s n with
  | some r => some r
  | none => spillRecord s n

/-- Consecutive records from a number, as far as they are published (R19). -/
def heldRun (s : State) : Nat → Nat → List Rec
  | 0, _ => []
  | k + 1, n =>
    if !seqBefore n s.jrn.shown then []
    else match heldRecord s n with
      | some r => r :: heldRun s k (succ32 n)
      | none => []

/-- The oldest record held after a number that is not held itself; the next number when there is none (R505). -/
def oldestAfter (s : State) (n : Nat) : Nat :=
  let d (m : Nat) : Nat := (m + 2 ^ 32 - n) % 2 ^ 32
  let cs := s.chunks.map (fun c => leAt c 240 4)
  (cs ++ (if s.jrn.ring.isEmpty then [] else [s.oldestRam])).foldl (fun b m =>
    if d m < d b then m else b) s.jrn.next

/-- The reply of JOURNAL_READ, or none where the number lies beyond the next record (R321, R505); the pointer moves past
the last record returned. -/
def journalRead (p : Port) (mode n0 count : Nat) (s : State) : Option (List Byte) × State :=
  let n := if mode == 0 then (s.port p).jptr else n0
  if seqBefore s.jrn.next n then (none, s)
  else
    let held := n == s.jrn.next || (heldRecord s n).isSome
    let start := if held then n else oldestAfter s n
    let rs := heldRun s count start
    let spilled := start != s.jrn.next && (ramRecord s start).isNone && !rs.isEmpty
    (some (le 4 start ++ [b8 rs.length, b8 (flagsOf [spilled, !held]), 0, 0] ++ rs.flatMap recBytes),
     (if spilled then otherRead s else s).modPort p (fun q => { q with jptr := (start + rs.length) % 2 ^ 32 }))

/-- QUEUE_GAP, R322: a queue that dropped records has room again. -/
def execQueueGap (queue : Nat) (s : State) : Host.Outcome State Fault Refusal :=
  let gap (n : Nat) (s : State) : State := record 0x7F ([0x01, b8 queue] ++ le 2 n ++ zeros 4) s
  .next (
    if queue < 32 then
      let q := (s.ctx queue).queue
      if 0 < q.lost && q.recs.length < 64 then gap q.lost (s.modCtx queue (fun c => { c with queue.lost := 0 })) else s
    else
      let p := if queue == 0x40 then some Port.tw else if queue == 0x41 then some Port.hs else none
      match p with
      | some p =>
        let q := (s.port p).house
        if 0 < q.lost && q.recs.length < 64 then gap q.lost (s.modPort p (fun q => { q with house.lost := 0 })) else s
      | none => s)

/-! ### Spill, R507, R522 -/

/-- A chunk of records from a number. -/
def spillBytes (first : Nat) (rs : List Rec) : List Byte :=
  let b := fit 240 0xFF#8 (rs.flatMap recBytes) ++ le 4 first ++ [b8 rs.length, 0x5C#8] ++ zeros 6
  b ++ le 4 (crc32c b)

/-- The oldest number held once a sector of the spill area is erased. -/
def spillErased (a n : Nat) (s : State) : State :=
  let gone := chunksIn s a n
  { s with jrn.spillOld := gone.foldl (fun o c =>
      let e := (leAt c 240 4 + byteAt c 244) % 2 ^ 32
      if seqBefore o e then e else o) s.jrn.spillOld }

/-- A chunk is written: at the start of a sector the sector is erased first. -/
def spillChunk (s : State) : State :=
  match s.spillArea with
  | none => s
  | some (a, n) =>
    let s := if s.jrn.lostRun then
        let (c, f) := (s.jrn.lostCount, s.jrn.lostFirst)
        record 0x7F ([0x02, 0] ++ le 2 c ++ le 4 f)
          { s with jrn.lostRun := false, jrn.lostCount := 0, jrn.lostFirst := 0 }
      else s
    let rs := s.jrn.waiting.take 15
    let sec := sectorSize s.flashProfile
    let at_ := if s.jrn.writeAt + 256 ≤ n then s.jrn.writeAt else 0
    let data := spillBytes s.jrn.spillNext rs
    let s := { s with
      jrn.waiting := s.jrn.waiting.drop 15
      jrn.spillNext := (s.jrn.spillNext + rs.length) % 2 ^ 32
      jrn.writeAt := at_ + 256 }
    let s := if at_ % sec == 0 then houseOp (mkOp 2 1 (a + at_) sec [] none 0) s else s
    houseOp (mkOp 1 1 (a + at_) 256 data none 0) s

/-- SPILL_CHUNK, R507: 15 records wait, or the oldest is 10 s old. -/
def execSpillChunk (s : State) : Host.Outcome State Fault Refusal :=
  .next (if !s.spillOn || s.mem.waiting.any (fun o => o.who == 1) then s
    else match s.jrn.waiting with
      | [] => s
      | r :: rs => if 14 ≤ rs.length || r.time + 10240000 ≤ s.clk.tb then spillChunk s else s)

/-! ### OTP slots, R276, R297, R529 -/

/-- A slot is valid: locked, with its check word right. -/
def slotValid (o : OtpSlot) : Bool := o.lock && o.check == crc32c o.hash

/-- A slot is blank: every bit is 0. -/
def slotBlank (o : OtpSlot) : Bool := o == OtpSlot.blank

/-- The key of the valid slot of two. -/
def keyOf (a b : OtpSlot) : Option (List Byte) :=
  if slotValid a then some a.hash else if slotValid b then some b.hash else none

/-- The unique ID in its 8 bytes. -/
def uidBytes (s : State) : List Byte := le 8 s.otp.uid

/-- The ledger key. -/
def State.ledgerKey (s : State) : Option (List Byte) := keyOf s.otp.ledA s.otp.ledB

/-- HMAC is in force, R514. -/
def State.hmacOn (s : State) : Bool := s.feat 84 && s.led.hmac && s.ledgerKey.isSome

/-- The key check of R514, 0 without a key. -/
def State.keyCheck (s : State) : Nat :=
  match s.ledgerKey with
  | some k => leAt (hmac256 k (uidBytes s)) 0 4
  | none => 0

/-! ### Periods, R510-R516 -/

/-- The first boundary strictly after a second. -/
def boundaryAfter (l a h : Nat) : Nat := if h < a then a else a + l * ((h - a) / l + 1)

/-- NB, R510, R523. -/
def State.nb (s : State) : Nat := s.led.nbHeld.getD (boundaryAfter s.led.len s.led.align s.led.high)

/-- A LEDGER journal record, R519. -/
def ledRec (sub flags value seq : Nat) (s : State) : State := record 0x60 ([b8 sub, b8 flags] ++ le 2 value ++ le 4 seq) s

/-- Bytes 0 to 87 of a PERIOD or CHECKPOINT record, R512. -/
def periodBody (typ flags seq end_ : Nat) (p : Period) (energy : Nat) : List Byte :=
  [0xC3#8, 0xA5#8, b8 typ, b8 flags] ++ le 4 seq ++ le 8 p.start ++ le 8 end_ ++ le 4 p.counted ++ le 4 p.active ++
    le 4 p.touches ++ p.fans.flatMap (le 4) ++ le 4 energy ++ p.peaks.flatMap (leS 2) ++ le 2 p.sets ++ le 4 p.safe ++
    p.progs.flatMap (le 4) ++ zeros 8

/-- The energy field. -/
def State.ledEnergy (s : State) : Nat := if s.feat 67 then s.led.period.energy else 0xFFFFFFFF

/-- The oldest retained sequence, R530. -/
def State.ledOldest (s : State) : Nat :=
  if s.ledgerArea.isSome then s.led.oldestFlash
  else match s.led.queue with
    | q :: _ => q.1
    | [] => s.led.nextSeq

/-- Whether a record lies in the slot, by its marker and type (R526). -/
def sealedOk (b : List Byte) : Bool := leAt b 0 2 == 0xA5C3 && (byteAt b 2 == 0x21 || byteAt b 2 == 0x23)
def checkOk (b : List Byte) : Bool :=
  leAt b 0 2 == 0xA5C3 && byteAt b 2 == 0x22 && leAt b 88 4 == crc32c (b.take 88)

/-- The slots of a range of the ledger area. -/
def ledSlots (s : State) (a n : Nat) : List (List Byte) :=
  (List.range (n / 128)).map (fun k => readFlash s (a + 128 * k) 128)

/-- The records of a sector that is to be erased are lost, R521. -/
def ledErased (a n : Nat) (s : State) : State :=
  let gone := ((ledSlots s a n).filter sealedOk).map (fun b => leAt b 4 4)
  match gone with
  | [] => s
  | q :: qs =>
    let old := qs.foldl (fun o x => if seqBefore x o then x else o) q
    let last := qs.foldl (fun o x => if seqBefore o x then x else o) q
    ledRec 0x04 0 gone.length old { s with led.oldestFlash := succ32 last }

/-- A record is programmed into the next slot of the ledger area, its sector erased first when it opens one (R515). -/
def ledProgram (data : List Byte) (seq : Option Nat) (s : State) : State :=
  match s.ledgerArea with
  | none => s
  | some (a, n) =>
    let sec := sectorSize s.flashProfile
    let at_ := if 128 * s.led.slot + 128 ≤ n then 128 * s.led.slot else 0
    let s := { s with led.slot := at_ / 128 + 1 }
    let s := if at_ % sec == 0 then houseOp (mkOp 2 2 (a + at_) sec [] none 0) (ledErased (a + at_) sec s) else s
    houseOp { mkOp 1 2 (a + at_) 128 data none 0 with seq := seq.getD 0, ctx := flag seq.isSome } s

/-- The next sealed record that waits in the RAM queue goes to flash, when no ledger operation is under way. -/
def ledNext (s : State) : State :=
  if (s.mem.waiting.any (fun o => o.who == 2)) || (match s.mem.op with | some o => o.who == 2 | none => false) then s
  else match s.led.queue, s.ledgerArea with
    | q :: _, some _ => ledProgram q.2 (some q.1) s
    | _, _ => s

/-- Seals a record of 88 bytes: the chain CRC, the HMAC, the sequence and the RAM queue (R512-R515, R524). -/
def sealRec (body : List Byte) (s : State) : State :=
  let uid := uidBytes s
  let b := body ++ le 4 (crc32c (le 4 (s.led.chain.getD (crc32c uid)) ++ body))
  let mac : Option (List Byte) :=
    if s.hmacOn then s.ledgerKey.map (fun k => hmac256 k (s.led.prevMac.getD (sha256 uid) ++ b)) else none
  let full := b ++ zeros 4 ++ mac.getD (List.replicate 32 0xFF#8)
  let seq := s.led.nextSeq
  let q := s.led.queue
  let dropped := if 64 ≤ q.length then (q.head?).map (·.1) else none
  let s := { s with
    led.chain := some (leAt b 88 4)
    led.prevMac := mac
    led.nextSeq := succ32 seq
    led.queue := (if dropped.isSome then q.drop 1 else q) ++ [(seq, full)] }
  let s := match dropped with
    | some d => ledRec 0x05 0 1 d s
    | none => s
  ledNext s

/-- Touches counted by the pipeline go into the open period. -/
def ledTouches (s : State) : State :=
  { s with led.period.touches := if s.led.running then satAdd 0xFFFFFFFF s.led.period.touches s.pipe.touches
             else s.led.period.touches
           pipe.touches := 0 }

/-- Flags of a sealed period: HMAC beside its own. -/
def State.sealFlags (s : State) (f : Nat) : Nat := if s.hmacOn then f ||| 16 else f

/-- Closes the open period at an end, with flags beside its own, and opens one there. The turns of an open pass come first
(R523). A ledger that has never counted seals nothing (DEDUCED, log 8). -/
def closePeriod (end_ flags newFlags : Nat) (s : State) : State :=
  let s := ledTouches (runPass passFuel s)
  let p := s.led.period
  let fl := s.sealFlags (p.flags ||| flags)
  let s := if s.led.running || 0 < p.counted then
      let seq := s.led.nextSeq
      ledRec 0x01 fl 0 seq (sealRec (periodBody 0x21 fl seq end_ p s.ledEnergy) s)
    else s
  { s with led.high := max s.led.high end_, led.nbHeld := none
           led.period := { Period.empty with start := end_, flags := newFlags } }

/-- The period closes where the clock has reached NB, R516. -/
def closeDue (s : State) : State := if s.wc.set && s.nb ≤ s.wc.secs then closePeriod s.nb 0 0 s else s

/-- PERIOD_CLOSE, R516. The grid moves on without LEDGER too, under which nothing is counted or sealed (DEDUCED, log 8). -/
def execPeriodClose (s : State) : Host.Outcome State Fault Refusal := .next (closeDue s)

/-- A checkpoint of the open period, R517. -/
def checkpoint (s : State) : State :=
  if s.ledgerArea.isNone then s
  else
    let s := ledTouches s
    let seq := s.led.nextSeq
    let b := periodBody 0x22 s.led.period.flags seq s.wc.secs s.led.period s.ledEnergy
    ledRec 0x03 0 0 seq (ledProgram (b ++ le 4 (crc32c b) ++ zeros 4 ++ List.replicate 32 0xFF#8) none s)

/-- CHECKPOINT, R517, R523: CKPT minutes have passed, or HIBERNATE is entered; a period that is due closes first. -/
def execCheckpoint (s : State) : Host.Outcome State Fault Refusal :=
  .next (if s.led.running then checkpoint (closeDue s) else s)

/-- LEDGER_SECOND, R511: one second of the timebase. -/
def execLedgerSecond (s : State) : Host.Outcome State Fault Refusal :=
  .next (if !s.led.running then s else
    let s := ledTouches s
    let p := s.led.period
    let sat := satAdd 0xFFFFFFFF
    let run (n : Nat) : Nat := flag ((s.fan n).st == 1 || (s.fan n).st == 2)
    let mws := p.energyRem + 10 * s.meter.avg
    let t (i : Nat) : Int := (s.therm.inputs.map (·.temp)).getD i tempNone
    let now : List Int := [s.therm.die, t 0, max (t 1) (max (t 2) (t 3))]
    { s with led.period := { p with
        counted := sat p.counted 1
        active := sat p.active (flag (s.aon.mode == .active || s.aon.mode == .service))
        safe := sat p.safe (flag (s.aon.mode == .safe))
        fans := (List.range 3).map (fun n => sat (p.fans.getD n 0) (run n))
        energy := sat p.energy (mws / 3600)
        energyRem := mws % 3600
        peaks := (p.peaks.zip now).map (fun (a, b) => max a b) } })

/-! ### Setting the clock, R508, R509, R518, R520 -/

/-- Closes `n` empty periods, each at the boundary after the last close. -/
def closeEmpty : Nat → State → State
  | 0, s => s
  | n + 1, s => closeEmpty n (closePeriod s.nb 1 1 s)

/-- The boundaries at or below a second that lie after HIGH. -/
def boundariesTo (s : State) (w : Nat) : Nat := if w < s.nb then 0 else (w - s.nb) / s.led.len + 1

/-- The last boundary at or below a second. -/
def boundaryAt (l a w : Nat) : Nat := if w < a then 0 else a + l * ((w - a) / l)

/-- The open period is closed and the skipped ones after it, R518 step 5, R520. -/
def closeForward (w : Nat) (s : State) : State :=
  let s := closePeriod s.nb 1 1 s
  let n := boundariesTo s w
  if n ≤ 64 then closeEmpty n s
  else closePeriod (boundaryAt s.led.len s.led.align w) 0x41 1 (closeEmpty 63 s)

/-- The clock steps to `w` with a fraction; `port` is the code of R512. Answers the TIMESET sequence. -/
def setClock (port w frac : Nat) (s : State) : Option Nat × State :=
  let s := closeDue s
  let old := if s.wc.set then s.wc.secs else 0
  let seq := s.led.nextSeq
  let s := if s.led.running then
      let b := [0xC3#8, 0xA5#8, 0x23#8, 0#8] ++ le 4 seq ++ le 8 old ++ le 8 w ++ le 4 port ++ le 6 s.clk.tb ++ zeros 54
      let s := ledRec 0x02 0 0 seq (sealRec b s)
      { s with led.period.sets := satAdd 65535 s.led.period.sets 1 }
    else s
  let answer := if s.led.running then some seq else none
  let s :=
    if !s.wc.set then closePeriod w 0 0 { s with led.period.start := 0, led.period.flags := s.led.period.flags ||| 4 }
    else if w < s.wc.secs then { s with led.period.flags := s.led.period.flags ||| 2 }
    else if w == s.wc.secs then s
    else if w < s.nb then { s with led.period.flags := s.led.period.flags ||| 1 }
    else closeForward w s
  (answer, { s with wc.secs := w, wc.ticks := frac, wc.set := true, wc.coast := false })

/-- LEDGER is accepted: counting begins (R527). -/
def ledgerStart (s : State) : State := { s with led.running := true, pipe.touches := 0 }

/-! ### Ledger commands, R528-R530 -/

/-- The sealed record of a sequence, from the RAM queue or from flash. -/
def ledFind (s : State) (q : Nat) : Option (List Byte) :=
  match s.led.queue.find? (fun x => x.1 == q) with
  | some x => some x.2
  | none => match s.ledgerArea with
    | some (a, n) => (ledSlots s a n).find? (fun b => sealedOk b && leAt b 4 4 == q)
    | none => none

/-- Whether a sequence is served from RAM. -/
def ledInRam (s : State) (q : Nat) : Bool := s.led.queue.any (fun x => x.1 == q)

/-- Consecutive sealed records. -/
def ledRun (s : State) : Nat → Nat → List (List Byte)
  | 0, _ => []
  | k + 1, q =>
    if q == s.led.nextSeq then []
    else match ledFind s q with
      | some b => b :: ledRun s k (succ32 q)
      | none => ledRun s k (succ32 q)

/-- The open period as a provisional record. -/
def ledProvisional (s : State) : List Byte :=
  periodBody 0x21 s.led.period.flags s.led.nextSeq s.nb s.led.period s.ledEnergy ++ zeros 40

/-- Flags of LEDGER_STATE byte 0. -/
def State.ledFlags (s : State) : Nat :=
  flagsOf [s.wc.set, s.wc.coast, s.hmacOn, s.ledgerKey.isSome, s.led.lock, s.ledgerArea.isNone,
           bit s.led.period.flags 2]

/-- The reply of LEDGER_STATE. -/
def ledgerState (s : State) : List Byte :=
  [b8 s.ledFlags, b8 s.led.ckpt] ++ le 2 s.led.queue.length ++ le 4 s.led.len ++ le 4 s.led.align ++
    le 8 s.led.period.start ++ le 8 s.nb ++ le 4 s.led.nextSeq ++ le 4 s.ledOldest ++ le 4 s.keyCheck

/-- The reply of CLOCK_READ. -/
def clockRead (s : State) : List Byte :=
  le 8 (if s.wc.set then s.wc.secs else 0) ++ le 4 (if s.wc.set then s.wc.ticks else 0) ++
    [b8 (flagsOf [s.wc.set, s.wc.coast, s.span.role == 3])] ++ zeros 3 ++ le 6 s.clk.tb ++ zeros 2

/-- LEDGER_CONFIG op 0 takes effect (R523, R529). -/
def ledgerConfig (l a fl ckpt : Nat) (s : State) : State :=
  let hold := if s.wc.set && (l != s.led.len || a != s.led.align) then some s.nb else s.led.nbHeld
  let s := { s with led.nbHeld := hold, led.len := l, led.align := a, led.hmac := bit fl 0,
                    led.lock := s.led.lock || bit fl 1, led.ckpt := ckpt }
  ledRec 0x07 0 0 s.led.nextSeq s

/-! ### Recovery after a power-on reset, R525 -/

/-- Numbers continue after the highest record that spill holds; the first record says so. -/
def spillRecover (s : State) : State :=
  match s.chunks with
  | [] => s
  | c :: cs =>
    let e (c : List Byte) : Nat := (leAt c 240 4 + byteAt c 244) % 2 ^ 32
    let f (c : List Byte) : Nat := leAt c 240 4
    let next := cs.foldl (fun o c => if seqBefore o (e c) then e c else o) (e c)
    let old := cs.foldl (fun o c => if seqBefore (f c) o then f c else o) (f c)
    let a := (s.spillArea.getD (0, 0)).1
    let last := (List.range ((s.spillArea.getD (0, 0)).2 / 256)).foldl (fun o k =>
      let b := readFlash s (a + 256 * k) 256
      if chunkOk b && e b == next then k + 1 else o) 0
    let s := { s with jrn.next := next, jrn.shown := next, jrn.spillNext := next, jrn.spillOld := old, jrn.writeAt := 256 * last
                      chan.tw.jptr := next, chan.hs.jptr := next }
    record 0x7F ([0x03, 0, 0xFF, 0xFF] ++ le 4 next) s

/-- Sequence, chain and HIGH continue from the highest sealed record; a newer checkpoint closes a period with RESTART. -/
def ledRecover (s : State) : State :=
  match s.ledgerArea with
  | none => s
  | some (a, n) =>
    let slots := ledSlots s a n
    let seals := slots.filter sealedOk
    let newest (xs : List (List Byte)) : Option (List Byte) := xs.foldl (fun o b => match o with
      | none => some b
      | some c => if seqBefore (leAt c 4 4) (leAt b 4 4) then some b else o) none
    let oldest := seals.foldl (fun (o : Option Nat) b => match o with
      | none => some (leAt b 4 4)
      | some q => if seqBefore (leAt b 4 4) q then some (leAt b 4 4) else o) none
    let s := match newest seals with
      | none => s
      | some b => { s with
          led.nextSeq := succ32 (leAt b 4 4)
          led.chain := some (leAt b 88 4)
          led.prevMac := if (slice b 96 32).all (· == 0xFF#8) then none else some (slice b 96 32)
          led.oldestFlash := oldest.getD 0 }
    let s := { s with led.high := match newest (seals.filter (fun b => byteAt b 2 == 0x21)) with
      | some b => leAt b 16 8
      | none => 0 }
    let cks := slots.filter (fun b => checkOk b && leAt b 4 4 == s.led.nextSeq)
    let ck := cks.foldl (fun (o : Option (List Byte)) b => match o with
      | none => some b
      | some c => if leAt c 24 4 ≤ leAt b 24 4 then some b else o) none
    let used := slots.foldl (fun (acc : Nat × Nat) b =>
      let k := acc.1
      (k + 1, if some b == ck || (ck.isNone && some b == newest seals) then k + 1 else acc.2)) (0, 0)
    let skip := ((slots.drop used.2).takeWhile (fun b => !b.all (· == erased))).length
    let per := sectorSize s.flashProfile / 128
    let slot := if used.2 % per == 0 then used.2 else min (used.2 + skip) ((used.2 / per + 1) * per)
    let s := { s with led.slot := slot }
    match ck with
    | none => if seals.isEmpty then s else ledRec 0x06 0 0 s.led.nextSeq s
    | some c =>
      let p : Period := { Period.empty with
        start := leAt c 8 8, counted := leAt c 24 4, active := leAt c 28 4, touches := leAt c 32 4
        fans := [leAt c 36 4, leAt c 40 4, leAt c 44 4], peaks := [leAtS c 52 2, leAtS c 54 2, leAtS c 56 2]
        sets := leAt c 58 2, safe := leAt c 60 4
        progs := [leAt c 64 4, leAt c 68 4, leAt c 72 4, leAt c 76 4] }
      let e := leAt c 16 8
      let fl := s.sealFlags (byteAt c 3 ||| 0x20)
      let seq := s.led.nextSeq
      let s := sealRec (periodBody 0x21 fl seq e p (leAt c 48 4)) s
      let s := { s with led.high := max s.led.high e }
      ledRec 0x06 0 0 s.led.nextSeq s

end Sys2Proof.Machine
end

