-- ==== Sys2Proof/Machine/MemPort.lean ====
section
/-! DEFINITION. The memory port: its profile, map and discovery, programs and erases and their ends, the boot scan, and what its
commands do (R398-R426).
Conventions that the spec leaves open: log 5 (DESIGN CHOICE), log 27 (DEDUCED). -/

namespace Sys2Proof.Machine
open Sys2Proof

/-! ### The profile, R399-R403 -/

/-- A power of two within limits. -/
def powIn (lo hi v : Nat) : Bool := (List.range 32).any (fun k => v == 2 ^ k) && lo ≤ v && v ≤ hi

/-- The phases of a template that are there, as lanes and DDR bits. -/
def phasesOf (t : List Byte) : List Nat :=
  [byteAt t 2] ++ (if bits (byteAt t 3) 3 2 == 0 then [] else [byteAt t 3]) ++
    (if bit (byteAt t 4) 3 then [byteAt t 4] else []) ++ (if bit (byteAt t 7) 4 then [byteAt t 7] else [])

/-- A template has a phase in DDR. -/
def templDdr (t : List Byte) : Bool := (phasesOf t).any (fun p => bit p 2)

/-- While XTALFAIL stands the port runs in SDR only: a transfer that needs one of the given templates does not run (R95,
R399). -/
def State.barred (s : State) (slots : List Nat) : Bool := s.clk.xtalFail && slots.any (fun k => templDdr (templ s.flashProfile k))

/-- The templates that an operation runs. -/
def opSlots (o : FlashOp) : List Nat := if o.kind == 1 then [1, 2, 5] else [1, if o.eraseCode == 0 then 3 else 4, 5]

/-- A template keeps R399 and R400: DDR reads with strobe capture, SDR reads at /4 and /8, and eight lanes or
DDR only with MEM_OCTAL_DDR. -/
def templOk (octal : Bool) (div slot : Nat) (t : List Byte) : Bool :=
  let d := byteAt t 7
  let reads := (slot == 0 || slot == 5) && bit d 4
  bits (byteAt t 3) 3 2 != 3 && !(reads && bit d 2 && !bit d 3) &&
    !(reads && !bit d 2 && div == 0) && (octal || (phasesOf t).all (fun p => p % 4 != 3 && !bit p 2))

/-- The reserved bits of a template are zero (R7, R400). -/
def templReserved (t : List Byte) : Bool :=
  bits (byteAt t 2) 5 3 == 0 && bits (byteAt t 3) 5 3 == 0 && bits (byteAt t 4) 4 4 == 0 && bits (byteAt t 6) 5 3 == 0 &&
    bits (byteAt t 7) 5 3 == 0

/-- The areas of a profile that are there, as (offset, length). -/
def areasOf (p : List Byte) : List (Nat × Nat) :=
  let sec := sectorSize p
  [(leAt p 88 4, 2 * sec)] ++ (if leAt p 92 4 == 0 then [] else [(leAt p 92 4, sec)]) ++
    ([96, 104, 112, 120].map (areaOf p)).filter (fun a => a.2 != 0)

/-- No two areas overlap. -/
def disjoint : List (Nat × Nat) → Bool
  | [] => true
  | a :: as => as.all (fun b => !overlap a.1 a.2 b.1 b.2) && disjoint as

/-- A profile record that MEM_PROFILE takes, R402, R403. -/
def profileOk (octal : Bool) (p : List Byte) : Bool :=
  let sec := sectorSize p
  let t (k : Nat) : List Byte := templ p k
  let areas := areasOf p
  p.length == 128 && byteAt p 0 < 4 && byteAt p 1 ≤ 2 && byteAt p 2 ≤ 15 && byteAt p 3 < 16 && 1 ≤ byteAt p 4 &&
    1 ≤ byteAt p 5 && powIn 16 1024 (leAt p 6 2) && powIn (2 ^ 20) (2 ^ 31) (leAt p 8 4) && 12 ≤ byteAt p 12 &&
    byteAt p 12 ≤ 16 && (byteAt p 13 == 0 || (byteAt p 12 < byteAt p 13 && byteAt p 13 ≤ 18 && !templEmpty (t 4))) &&
    leAt p 14 2 == 0 && (List.range 9).all (fun k => templReserved (t k) && (templEmpty (t k) || templOk octal (byteAt p 1) k (t k))) &&
    [0, 1, 2, 3, 5].all (fun k => !templEmpty (t k)) && (templEmpty (t 6) == templEmpty (t 7)) &&
    (!bit (byteAt p 0) 1 || !templEmpty (t 8)) && [88, 92, 96, 100, 104, 108, 112, 116, 120, 124].all (fun k =>
      leAt p k 4 % sec == 0) &&
    areas.all (fun a => a.1 + a.2 ≤ leAt p 8 4 && !overlap a.1 a.2 0 (2 * sec)) && disjoint areas

/-- The map that a profile lays out. -/
def mapOf (p : List Byte) (seq copy : Nat) : FlashMap :=
  let opt (k : Nat) : Option (Nat × Nat) := if (areaOf p k).2 == 0 then none else some (areaOf p k)
  { seq := seq, copy := copy, intent := some (leAt p 88 4, 2 * sectorSize p), ledger := opt 104, spill := opt 96
    image := opt 112, seed := if leAt p 92 4 == 0 then none else some (leAt p 92 4, sectorSize p) }

/-- A profile is taken over; lines and continuous read end with the old one (R403, R423). -/
def applyProfile (p : List Byte) (seq copy : Nat) (s : State) : State :=
  let q := splice p 0 [b8 (byteAt p 0 - byteAt p 0 % 2)]
  { s with
    mem.profile := some q
    mem.map := some (mapOf q seq copy)
    mem.div := if s.clk.xtalFail then 2 else byteAt p 1
    mem.sel := byteAt p 2
    mem.cont := false
    mem.lines := []
    mem.filling := none }

/-! ### The map, R406 -/

/-- One copy of the map. -/
def mapBytes (seq : Nat) (p : List Byte) : List Byte :=
  let b := [0xC3#8, 0xA5#8, 0x01#8, 0#8] ++ le 4 seq ++ splice p 0 [b8 (byteAt p 0 - byteAt p 0 % 2)]
  b ++ le 4 (crc32c b)

/-- A valid copy. -/
def mapOk (c : List Byte) : Bool :=
  leAt c 0 2 == 0xA5C3 && byteAt c 2 == 1 && leAt c 136 4 == crc32c (c.take 136)

/-- The copy in a sector of a size given as a power of two: its sequence and profile. -/
def mapCopy (s : State) (slog k : Nat) : Option (Nat × List Byte) :=
  let c := readFlash s (k * 2 ^ slog) 140
  if mapOk c && byteAt c 20 == slog then some (leAt c 4 4, slice c 8 128) else none

/-- The map in flash: the valid copy of the higher sequence, with its sequence and number. The sector size of the upper copy
is not known before the map is read, so every size of R402 is tried (DEDUCED, log 9). -/
def findMap (s : State) : Option (Nat × Nat × List Byte) :=
  let lower := (List.range 5).filterMap (fun k => (mapCopy s (12 + k) 0).map (fun (q, p) => (q, 0, p)))
  let upper := (List.range 5).filterMap (fun k => (mapCopy s (12 + k) 1).map (fun (q, p) => (q, 1, p)))
  match lower, upper with
  | a :: _, b :: _ => if seqBefore a.1 b.1 then some b else some a
  | a :: _, [] => some a
  | [], b :: _ => some b
  | [], [] => none

/-! ### The boot scan, R413, R414, R419 -/

/-- An intent-area record: blank, or valid under its marker and CRC. -/
def slotBlankB (b : List Byte) : Bool := b.all (· == erased)
def intentOk (b : List Byte) : Bool := leAt b 0 2 == 0xA5C3 && leAt b 28 4 == crc32c (b.take 28)

/-- The slots of an intent sector. -/
def intentSlots (s : State) (k : Nat) : List (List Byte) :=
  let p := s.flashProfile
  (List.range (sectorSize p / 32)).map (fun j => readFlash s (intentBase p k + 32 * j) 32)

/-- The HEAD sequence of an intent sector, none without a valid HEAD. -/
def headSeq (s : State) (k : Nat) : Option Nat :=
  let b := readFlash s (intentBase s.flashProfile k) 32
  if intentOk b && byteAt b 2 == 1 then some (leAt b 4 4) else none

/-- The active sector. -/
def activeIntent (s : State) : Option Nat :=
  match headSeq s 0, headSeq s 1 with
  | some a, some b => some (if seqBefore a b then 1 else 0)
  | some _, none => some 0
  | none, some _ => some 1
  | none, none => none

/-- The ranges of unfinished erases in slot order: offset, length and the sequence of the INTENT. -/
def unfinished (slots : List (List Byte)) : List (Nat × Nat × Nat) :=
  let ok := slots.filter intentOk
  let done := (ok.filter (fun b => byteAt b 2 == 3)).map (fun b => leAt b 24 4)
  (ok.filter (fun b => byteAt b 2 == 2 && !done.contains (leAt b 4 4))).map (fun b => (leAt b 8 4, leAt b 12 4, leAt b 4 4))

/-- The port holds no profile. -/
def noProfile (s : State) : State :=
  { s with mem.profile := none, mem.map := none, mem.mapValid := false, mem.fences := [] }

/-- Recoveries are queued: the first starts, the rest wait. The last carries the tag of MEM_PROFILE. -/
def queueRecoveries (tag : Option Nat) : Nat → List (Nat × Nat × Nat) → State → State
  | _, [], s => s
  | k, (a, n, q) :: rs, s =>
    let code := flag (n != sectorSize s.flashProfile)
    let o := { mkOp 2 5 a n [b8 (k + 1)] (if rs.isEmpty then tag else none) code with seq := q }
    let s := if s.mem.op.isSome then { s with mem.waiting := s.mem.waiting ++ [o] } else startFlash o s
    queueRecoveries tag (k + 1) rs s

/-- The boot scan up to its recoveries (R419). A fifth fence leaves the port without a profile (R416). Answers how many
ranges are to be recovered. -/
def scanIntents (tag : Option Nat) (s : State) : Nat × State :=
  let p := s.flashProfile
  let sec := sectorSize p
  let clear (k : Nat) (s : State) : State :=
    if (intentSlots s k).all slotBlankB then s else eraseFlash (intentBase p k) sec s
  match activeIntent s with
  | none =>
    let s := clear 1 (clear 0 s)
    (0, putIntent 1 0 0 0 { s with mem.intentSector := 0, mem.intentSlot := 0, mem.intentSeq := 0 })
  | some k =>
    let s := clear (1 - k) s
    let slots := intentSlots s k
    let used := slots.length - (slots.reverse.takeWhile slotBlankB).length
    let last := (slots.filter intentOk).foldl (fun o b => if seqBefore o (leAt b 4 4) then leAt b 4 4 else o)
      ((headSeq s k).getD 0)
    let s := { s with mem.intentSector := k, mem.intentSlot := used, mem.intentSeq := last }
    let rs := (unfinished slots).filter (fun r => !s.mem.fences.any (fun f => f.base == r.1))
    if 4 < s.mem.fences.length + rs.length then (0, noProfile s)
    else if rs.isEmpty then (0, s)
    else
      let s := { s with mem.fences := s.mem.fences ++ rs.map (fun (a, n, _) =>
        { base := a, len := n, code := flag (n != sec), held := false }) }
      (rs.length, queueRecoveries tag 0 rs (latchFault 10 s))

/-- BOOT_SCAN, R419: in BOOT, with a valid map and no operation under way. -/
def execBootScan (s : State) : Host.Outcome State Fault Refusal :=
  .next (if s.aon.mode == .boot && s.mem.mapValid && s.mem.profile.isSome && !s.flashBusy then (scanIntents none s).2 else s)

/-! ### The ends of operations, R411, R412, R420 -/

/-- The operation leaves the port. -/
def opLeaves (o : FlashOp) (s : State) : State :=
  let c := opClass o
  dropReReq c 0x52 (withdraw c 0x52 (releaseGrant c 0x52 { s with mem.op := none, mem.susp := false }))

/-- The next operation: the one that waits, else the ledger's next record. -/
def nextOp (s : State) : State :=
  if s.mem.op.isSome then s
  else match s.mem.waiting with
    | o :: os => startFlash o { s with mem.waiting := os }
    | [] => ledNext s

/-- A context's transfer ends with a POLL result; what a read brought waits for the post-pass (R266). -/
def xferEnds (result : Nat) (s : State) : State :=
  match s.mem.xfer with
  | none => s
  | some x =>
    let s := { s with
      mem.xfer := none
      mem.toRoom := if x.write || result != 0 then s.mem.toRoom else s.mem.toRoom ++ [(x.ctx, x.room, readFlash s x.flash x.len)] }
    s.modRun x.ctx (fun r => { r with poll := result })

/-- The completion of MEM_PROFILE: of the ranges that its scan found those recovered, and those still fenced because their
erase timed out. -/
def scanComp (found : Nat) (s : State) : List Byte :=
  [b8 (found - (s.mem.fences.filter (·.held)).length), b8 s.mem.fences.length]

/-- The completion bytes of an operation's tag; the map's program and the recoveries carry the count of ranges found. -/
def opComp (o : FlashOp) (s : State) : List Byte :=
  match o.who with
  | 0 => if o.kind == 1 then le 4 o.len else []
  | 5 => scanComp (byteAt o.data 0) s
  | _ => scanComp o.eraseCode s

/-- What a finished operation leaves behind, by who asked for it. -/
def opDone (o : FlashOp) (s : State) : State :=
  let s := completeOpt o.tag 0 (opComp o s) s
  match o.who with
  | 2 => if o.ctx == 1 then { s with led.queue := s.led.queue.filter (fun q => q.1 != o.seq) } else s
  | 4 => if o.kind == 1 then { s with mem.mapValid := true } else s
  | 5 => { s with mem.recov := true }
  | 6 => xferEnds 0 s
  | _ => s

/-- PROGRAM_COMPLETE, R411. An operation whose templates do not run ends with its timeout (R399). -/
def execProgramComplete (s : State) : Host.Outcome State Fault Refusal :=
  .next (match s.mem.op with
    | some o =>
      if o.running && o.kind == 1 && !s.mem.susp && !s.barred (opSlots o) then
        let s := if o.who == 1 && s.chunks.isEmpty then { s with jrn.spillOld := leAt o.data 240 4 } else s
        let s := programFlash o.addr o.data s
        let s := { s with mem := dropLines o.addr o.len s.mem }
        nextOp (opDone o (opLeaves o s))
      else s
    | none => s)

/-- An erase ends: DONE, the fence falls, the lines go (R412, R419). -/
def eraseEnds (o : FlashOp) (s : State) : State :=
  let s := if o.who == 1 then spillErased o.addr o.len s else s
  let s := writeIntent 3 o.addr o.len o.seq (eraseFlash o.addr o.len s)
  let s := { s with
    mem := dropLines o.addr o.len { s.mem with
      fences := s.mem.fences.filter (fun f => !(f.base == o.addr && f.len == o.len)), erases := s.mem.erases + 1 } }
  nextOp (opDone o (opLeaves o s))

/-- ERASE_COMPLETE, R412. -/
def execEraseComplete (s : State) : Host.Outcome State Fault Refusal :=
  .next (match s.mem.op with
    | some o => if o.running && o.kind == 2 && !s.mem.susp && !s.barred (opSlots o) then eraseEnds o s else s
    | none => s)

/-- `n` free bytes. -/
def freeBytes : Nat → State → List Byte × State
  | 0, s => ([], s)
  | n + 1, s =>
    let (v, s) := fresh s
    let (bs, s) := freeBytes n s
    (v.extractLsb' 0 8 :: bs, s)

/-- A program that is cut short within one of its pages: those before it are programmed, and which bits of it are is free
(R411; DESIGN CHOICE, log 3). -/
def cutProgram (s : State) : State :=
  match s.mem.op with
  | some o =>
    if o.running && o.kind == 1 then
      let page := max 1 (leAt s.flashProfile 6 2)
      let into := o.addr % page
      let (v, s) := fresh s
      let k := v.toNat % max 1 (ceilDiv (into + o.data.length) page)
      let (fs, s) := freeBytes o.data.length s
      let cut := (o.data.zip fs).mapIdx (fun j (d, f) =>
        if (into + j) / page < k then d else if (into + j) / page == k then d ||| f else erased)
      let s := programFlash o.addr cut s
      { s with mem := dropLines o.addr o.len s.mem }
    else s
  | none => s

/-- What waits for an operation that timed out ends with it: the map's program without its erase. -/
def timeoutEnds (o : FlashOp) (s : State) : State :=
  match o.who with
  | 4 =>
    let s := if o.kind == 2 then
        s.mem.waiting.foldl (fun s w => if w.who == 4 then completeOpt w.tag 0x0E [] s else s)
          { s with mem.waiting := s.mem.waiting.filter (fun w => w.who != 4) }
      else s
    completeOpt o.tag 0x0E [] s
  | 5 => completeOpt o.tag 0 (opComp o s) s
  | 6 => xferEnds 2 s
  | _ => completeOpt o.tag 0x0E [] s

/-- FLASH_TIMEOUT, R420: no DONE, and an erase's range stays fenced. Time spent suspended does not count (R415). -/
def execFlashTimeout (s : State) : Host.Outcome State Fault Refusal :=
  .next (match s.mem.op with
    | some o =>
      if o.running && !s.mem.susp then
        let s := opLeaves o { cutProgram s with mem.timeouts := satAdd 65535 s.mem.timeouts 1 }
        let s := if o.kind == 2 then
            latchFault 10 { s with mem.fences := s.mem.fences.map (fun f => if f.base == o.addr then { f with held := true } else f) }
          else s
        let s := timeoutEnds o s
        match s.mem.waiting with
        | [] => s
        | _ => nextOp s
      else s
    | none => s)

/-- The recoveries of a boot run to their end with their grants (R417: they end before a boot path reads an image). -/
def runRecoveries : Nat → State → State
  | 0, s => s
  | k + 1, s =>
    match s.mem.op with
    | some o =>
      if o.who == 5 then
        let s := if o.running then s else decideLeave true false s
        match s.mem.op with
        | some o => if o.running then runRecoveries k (eraseEnds o s) else s
        | none => s
      else s
    | none => s

/-! ### Read transfers of contexts, R266, R425 -/

/-- READ_TRANSFER_COMPLETE: POLL reports it, and the data is due in the post-pass. -/
def execReadTransferComplete (bad : Bool) (s : State) : Host.Outcome State Fault Refusal :=
  .next (match s.mem.xfer with
    | some x =>
      if x.write then s
      else nextOp (xferEnds (if s.fenced x.flash x.len then 3 else if bad || s.barred [0] then 2 else 0) s)
    | none => s)

/-- The post-pass writes what finished reads brought into the rooms of contexts that still run (R266, R270). -/
def deliverRead (s : State) : State :=
  s.mem.toRoom.foldl (fun s (i, a, d) =>
    if (s.ctx i).st == 3 then s.modCtx i (fun c => { c with room := Memory.writeN 0 c.room a d }) else s)
    { s with mem.toRoom := [] }

/-! ### Read errors, R421 -/

/-- A held MEM_READ of a port that covers an address fails with TIMEOUT. -/
def failHeldRead (addr : Nat) (p : Port) (s : State) : State :=
  match (s.port p).reply with
  | .live c b =>
    if c == 0x92 && leAt b 0 4 ≤ addr && addr < leAt b 0 4 + leAt b 4 2 then s.modPort p ({ · with reply := .fixed [0x0E] })
    else s
  | _ => s

/-- A fetch of a line that was not read decodes as opcode 0x3F (R267). -/
def failFetch (addr : Nat) (s : State) : State :=
  match s.eng.turn with
  | some t =>
    let c := s.ctx t.cur
    if t.inEntry && c.prog == .image && c.img.xip && (c.img.base + c.pc) / 64 == addr / 64 then
      runInstr (.reservedOpcode 0xFFFFFFFF) s
    else s
  | none => s

/-- Bytes of an image in flash, as its header tells them (R275). -/
def imgSpan (s : State) (off : Nat) : Nat :=
  let h := readFlash s off 64
  64 + leAt h 24 4 + leAt h 28 4 + 32 + (if bit (leAt h 6 2) 0 then 128 else 0)

/-- READ_ERROR, R421: a DDR read was repeated; `again` says that the repeat failed too. -/
def execReadError (addr : Nat) (again : Bool) (s : State) : Host.Outcome State Fault Refusal :=
  .next (if s.mem.profile.isNone || !bit (byteAt (templ s.flashProfile 0) 7) 2 then s
    else
      let s := { s with mem.rdErr := satAdd 65535 s.mem.rdErr 1 }
      if !again then s
      else
        let s := { s with mem := dropLines (addr / 64 * 64) 64 s.mem }
        let s := match s.mem.xfer with
          | some x => if !x.write && x.flash ≤ addr && addr < x.flash + x.len then nextOp (xferEnds 2 s) else s
          | none => s
        let s := { s with eng.sessions := s.eng.sessions.map (fun e => { e with bad := e.bad || (match e.flash with
          | some (off, _) => off ≤ addr && addr < off + imgSpan s off
          | none => false) }) }
        failFetch addr (failHeldRead addr .hs (failHeldRead addr .tw s)))

/-! ### Commands, R403, R404, R410-R412, R422, R424 -/

/-- The operation code of MEM_STATE byte 1. -/
def State.memOp (s : State) : Nat :=
  match s.mem.op with
  | some o => if o.kind == 1 then 2 else if o.who == 5 then 4 else 3
  | none => match s.mem.xfer with
    | some x => if !x.write then 1 else 0
    | none => 0

/-- The reply of MEM_STATE. -/
def memState (s : State) : List Byte :=
  let at_ := match s.mem.op, s.mem.xfer with
    | some o, _ => o.addr
    | none, some x => x.flash
    | none, none => 0
  let f := s.mem.fences.head?
  [b8 (flagsOf [s.mem.profile.isSome, s.mem.mapValid, s.mem.xipEn, s.mem.cont, s.memOp != 0, s.mem.susp, s.mem.recov]),
   b8 s.memOp, b8 s.mem.fences.length, b8 s.mem.div] ++ le 4 at_ ++ le 4 s.mem.erases ++
    le 4 ((f.map (·.base)).getD 0xFFFFFFFF) ++ le 4 ((f.map (·.len)).getD 0) ++ le 4 s.mem.intentSeq

/-- An operation that cannot be suspended bars the window, and the window bars it (R416). -/
def State.noSuspend (s : State) : Bool := s.mem.xipEn && templEmpty (templ s.flashProfile 6)

/-- MEM_READ's state check: no profile, an operation running or waiting that the read cannot suspend, R410, R415, R416. -/
def memReadBusy (s : State) : Bool :=
  s.mem.profile.isNone || !s.mem.waiting.isEmpty || s.mem.xfer.isSome ||
    (match s.mem.op with | some o => !o.running || templEmpty (templ s.flashProfile 6) | none => false)

/-- MEM_READ: FENCED, TIMEOUT where its template does not run (R399), or the bytes. A read suspends an operation and leaves
continuous read (R409, R415). -/
def memRead (a n : Nat) (s : State) : Nat × List Byte × State :=
  if s.fenced a n then (0x0B, [], s)
  else if s.barred [0] then (0x0E, [], { s with mem.rdErr := satAdd 65535 s.mem.rdErr 1 })
  else (0, readFlash s a n, otherRead s)

/-- Whether a range may be programmed or erased by the host, R405. -/
def hostWritable (p : List Byte) (a n : Nat) : Bool :=
  within a n (areaOf p 112) || within a n (areaOf p 120) || (leAt p 92 4 != 0 && within a n (leAt p 92 4, sectorSize p))

/-- Bytes of an erase by its size code. -/
def eraseLen (p : List Byte) (code : Nat) : Nat := if code == 0 then sectorSize p else blockSize p

/-- MEM_PROGRAM and MEM_ERASE, accepted: FENCED at once, else the operation starts with its leave. -/
def memProgram (tag : Nat) (a : Nat) (data : List Byte) (s : State) : State :=
  if s.fenced a data.length then completeTag tag 0x0B [] s
  else startFlash (mkOp 1 0 a data.length data (some tag) 0) s

def memErase (tag a code : Nat) (s : State) : State :=
  let n := eraseLen s.flashProfile code
  if s.fenced a n then completeTag tag 0x0B [] s
  else startFlash (mkOp 2 0 a n [] (some tag) code) s

/-- MEM_PROFILE, accepted: the profile, the map when asked, the boot scan when no valid map was found before (R403, R406,
R419). Without anything to wait for, the tag completes at once. -/
def memProfile (tag : Nat) (p : List Byte) (s : State) : State :=
  let old := if s.mem.mapValid then s.mem.map else none
  let copy := match old with
    | some m => 1 - m.copy
    | none => 0
  let seq := match old with
    | some m => succ32 m.seq
    | none => 0
  let first := s.mem.profile.isNone
  let wr := bit (byteAt p 0) 0
  let s := applyProfile p (if wr then seq else (old.map (·.seq)).getD 0) (if wr then copy else (old.map (·.copy)).getD 0) s
  let sec := sectorSize p
  let scanned := if first then scanIntents (if wr then none else some tag) s else (0, s)
  let s := scanned.2
  if wr && s.mem.profile.isSome then
    let erase := mkOp 2 4 (copy * sec) sec [] none 0
    let prog := mkOp 1 4 (copy * sec) 140 (mapBytes seq p) (some tag) scanned.1
    if s.mem.op.isSome then { s with mem.waiting := s.mem.waiting ++ [erase, prog] }
    else { startFlash erase s with mem.waiting := s.mem.waiting ++ [prog] }
  else if scanned.1 == 0 then completeTag tag 0 [0, b8 s.mem.fences.length] s
  else s

/-- MEM_XIP. -/
def memXip (on : Bool) (s : State) : State :=
  if on then { s with mem.xipEn := true }
  else { s with mem.xipEn := false, mem.lines := [], mem.filling := none, mem.cont := false }

/-- Whether an image executed in place is bound. -/
def State.xipBound (s : State) : Bool := s.ctxs.any (fun c => c.st != 0 && c.prog == .image && c.img.xip)

/-- The parameter table of an SFDP with an ID, R404 (the layout of JESD216 is PRESUMED, log 10). -/
def sfdpTable (b : List Byte) (id : Nat) : Option (List Byte) :=
  let hs := (List.range (byteAt b 6 + 1)).map (fun k => slice b (8 + 8 * k) 8)
  (hs.find? (fun h => byteAt h 0 + 256 * byteAt h 7 == id)).map (fun h => slice b (leAt h 4 3) (4 * byteAt h 3))

/-- The READ template that discovery proposes, with the mode value where the table gives a continuous-read value. -/
def proposeRead (octal : Option (List Byte)) (t : List Byte) (four : Bool) : List Byte :=
  let a := if four then 2 else 1
  let dw1 := leAt t 0 4
  let dw3 := leAt t 8 4
  match octal with
  | some x =>
    let op := bits (leAt x 0 4) 8 8
    [b8 op, b8 (255 - op), 0x0F, b8 (7 + 16), 0, 0, b8 (bits (leAt x 16 4) 7 5), 0x1F]
  | none =>
    if bit dw1 21 then
      let mode := 0 < bits dw3 5 3
      [b8 (bits dw3 8 8), 0, 0, b8 (2 + 8 * a), b8 (if mode then 0x0A else 0),
       b8 (if bit (leAt t 56 4) 9 && bit (leAt t 56 4) 16 then 0xA5 else 0), b8 (bits dw3 0 5), 0x12]
    else if bit dw1 22 then
      [b8 (bits dw3 24 8), 0, 0, b8 (8 * a), 0, 0, b8 (bits dw3 16 5 + bits dw3 21 3), 0x12]
    else [0x03, 0, 0, b8 (8 * a), 0, 0, 0, 0x10]

/-- The reply of MEM_DISCOVER for a pin. The flash stands on `GP0`; what the spec does not say of the proposal is free
(PRESUMED, log 10). -/
def memDiscover (pin : Nat) (s : State) : List Byte × State :=
  let b := s.mem.sfdp
  if pin != 0 || leAt b 0 4 != 0x50444653 then (zeros 132, s)
  else
    let t := (sfdpTable b 0xFF00).getD []
    let x := if s.feat 81 then sfdpTable b 0xFF05 else none
    let four := bits (leAt t 0 4) 17 2 == 2
    let size := if bit (leAt t 4 4) 31 then 2 ^ (bits (leAt t 4 4) 0 31 - 3) else (leAt t 4 4 + 1) / 8
    let page := 2 ^ bits (leAt t 40 4) 4 4
    let cont := x.isNone && bit (leAt t 0 4) 21 && bit (leAt t 56 4) 9 && bit (leAt t 56 4) 16
    let (lim, s) := freeBytes 3 s
    let (rest, s) := freeBytes 64 s
    let rest := splice rest 16 ([b8 (bits (leAt t 0 4) 8 8)] ++ slice rest 17 7)
    let p := [b8 (2 * flag cont), b8 (if x.isSome then 0 else 1), b8 pin] ++ lim ++ le 2 page ++ le 4 size ++ [12, 0, 0, 0] ++
      proposeRead x t four ++ rest ++ zeros 40
    ([b8 (byteAt b 4), b8 (byteAt b 5), b8 (flagsOf [true, (sfdpTable b 0xFF05).isSome, four]), 0] ++ p,
     { s with mem.discovered := true })

/-! ### At a reset, R423 -/

/-- Discovery and the map at a reset: the map's profile is applied and the boot scan begins. -/
def memBoot (s : State) : State :=
  let s := { s with mem.discovered := leAt s.mem.sfdp 0 4 == 0x50444653 }
  if !s.mem.discovered then s
  else match findMap s with
    | none => s
    | some (seq, copy, p) => (scanIntents none { applyProfile p seq copy s with mem.mapValid := true }).2

end Sys2Proof.Machine
end

