-- ==== Sys2Proof/Machine/Thermal.lean ====
section
/-! DEFINITION. The thermal household: the policy and its override, the fans, the backlight outputs and SHDN_N
(R470-R503).
Conventions that the spec leaves open: log 11 (DEDUCED), log 14 (DESIGN CHOICE). -/

namespace Sys2Proof.Machine
open Sys2Proof

/-! ### Temperatures and curves, R470, R472, R480 -/

/-- The temperatures of the enabled sources of a mask: bits 0 to 3 the inputs, bit 4 the die. -/
def sourceTemps (s : State) (mask : Nat) : List Int :=
  ((List.range 4).filter (fun i => bit mask i && (s.thm i).en)).map (fun i => (s.thm i).temp) ++
    (if bit mask 4 then [s.therm.die] else [])

/-- The highest of a list. -/
def highest : List Int → Option Int
  | [] => none
  | x :: xs => some (xs.foldl max x)

/-- The governing temperature of a mask. -/
def governing (s : State) (mask : Nat) : Int := (highest (sourceTemps s mask)).getD s.therm.die

/-- The points of fan k in a policy record. -/
def policyPoints (p : List Byte) (k : Nat) : List (Int × Nat) :=
  (List.range (byteAt p (9 + 18 * k) % 4 + 1)).map (fun i =>
    (leAtS p (10 + 18 * k + 4 * i) 2, leAt p (12 + 18 * k + 4 * i) 2))

/-- The curve of R472, from the point passed last. -/
def curveGo (t : Int) (a : Int × Nat) : List (Int × Nat) → Nat
  | [] => a.2
  | b :: ps => if t < b.1 then a.2 + ((b.2 - a.2) * (t - a.1).toNat) / (b.1 - a.1).toNat else curveGo t b ps

/-- The curve of R472. -/
def curve (t : Int) : List (Int × Nat) → Nat
  | [] => 0
  | a :: ps => if t < a.1 then 0 else curveGo t a ps

/-- A fan is fitted (R494, R495). -/
def State.fitted (s : State) (n : Nat) : Bool := s.feat 64 && bit (byteAt (s.fan n).record 0) 0

/-- Fields of a fan record, R498. -/
def fanMin (f : Fan) : Nat := leAt f.record 2 2
def fanMax (f : Fan) : Nat := leAt f.record 4 2
def fanRamp (f : Fan) : Nat := leAt f.record 6 2
def fanFloor (f : Fan) : Nat := leAt f.record 12 2

/-- The setpoint in rpm. -/
def Fan.rpm (f : Fan) : Nat := f.setMil / 1000

/-! ### The override, R473 -/

/-- The causes of the override that stand now; TFULL holds until its sources have fallen H below it. -/
def overCauses (s : State) : Nat :=
  let p := s.thermal.record
  let t := governing s (byteAt p 2)
  let full := leAtS p 0 2
  let hot := full ≤ t || (bit s.thermal.overCause 0 && full - byteAt p 3 ≤ t)
  flagsOf [hot, (List.range 3).any (fun n => s.fitted n && (s.fan n).failed), s.aon.mode == .safe]

/-- The item of R492 for a set of causes. -/
def overItem (c : Nat) : Nat := if bit c 0 then 1 else if bit c 1 then 2 else 3

/-- FULL_ON and FULL_OFF with the temperature of TFULL's sources; for the other items the record's value is not stated. -/
def overRec (sub item : Nat) (s : State) : State :=
  if item == 1 then thermalRec sub 1 (governing s (byteAt s.thermal.record 2)) s
  else
    let (v, s) := fresh s
    thermalRec sub item (toS 16 v.toNat) s

/-- The override follows its causes. -/
def overrideEval (s : State) : State :=
  let c := overCauses s
  let was := s.thermal.overCause
  let s := { s with thermal.overCause := c, thermal.override := c != 0 }
  if was == 0 && c != 0 then overRec 0x05 (overItem c) s
  else if was != 0 && c == 0 then overRec 0x06 (overItem was) s
  else s

/-! ### Backlight, R479, R480 -/

/-- The limit of a derating curve of 9 bytes: sources, TSTART, TEND, DMIN, SLEW. -/
def derate (s : State) (c : List Byte) : Nat :=
  match highest (sourceTemps s (byteAt c 0)) with
  | none => 1000
  | some tb =>
    let ts := leAtS c 1 2
    let te := leAtS c 3 2
    let dm := leAt c 5 2
    if tb ≤ ts then 1000 else if te ≤ tb then dm else 1000 - ((1000 - dm) * (tb - ts).toNat) / (te - ts).toNat

/-- Cost of a duty. -/
def blCost (s : State) (duty : Nat) : Nat := ceilDiv (s.power.blFull * duty) 1000

/-- The PWM of an output in BUSCLK cycles, R479: its period and its high time, which the active-low flag makes its low time. -/
def Bl.pwm (b : Bl) : Nat × Nat :=
  let period := (24576000 + b.freq / 2) / b.freq
  (period, (period * b.duty + 500) / 1000)

/-- The duty asked for by the host and by programs. -/
def blAsked (s : State) (k : Nat) : Nat :=
  s.running.foldl (fun m i => max m (((s.run i).blReq.getD k none).getD 0)) (s.bl k).hostDuty

/-- Nothing more is asked for an output. -/
def blQuiet (k : Nat) (s : State) : State :=
  (withdraw 5 (0x53 + k) (dropReReq 5 (0x53 + k) s)).modBl k (fun b => { b with pend := none })

/-- The applied duty becomes `d`. A fall takes effect at once, releases the difference and asks for nothing; a rise needs leave
where it costs more than is held (R64, R480). A rise that waits to ask again asks for the duty it then needs. -/
def blApply (k d : Nat) (s : State) : State :=
  let who := 0x53 + k
  let need := blCost s d
  let have_ := s.grantCost 5 who
  let put (s : State) : State := s.modBl k (fun b => { b with duty := d })
  if d ≤ (s.bl k).duty then
    put (if need == 0 then releaseGrant 5 who (blQuiet k s) else setCost 5 who (min need have_) (blQuiet k s))
  else if need ≤ have_ then put s
  else if (s.reqOf 5 who).isSome then s
  else
    let s := s.modBl k (fun b => { b with pend := some d })
    if s.power.rereq.any (fun r => r.cls == 5 && r.who == who) then s else follow 5 who need s

/-- One policy run for an output, `dt` ticks after the last. -/
def blRun (dt k : Nat) (s : State) : State :=
  if !s.feat 66 then blApply k 0 s
  else
    let b := s.bl k
    let lim := derate s b.curve
    let asked := blAsked s k
    let want := min asked lim
    let want := if s.aon.mode == .safe then min want (10 * s.power.blFloor) else want
    let der := lim < asked
    let acc := b.slewRem + leAt b.curve 7 2 * dt
    let step := acc / 1024000
    let d := if b.duty < want then min want (b.duty + step) else max want (b.duty - step)
    let s := s.modBl k (fun b => { b with limit := lim, derating := der, slewRem := if d == want then 0 else acc % 1024000 })
    let s := if der && !b.derating then thermalRec 0x07 k lim s
      else if !der && b.derating then thermalRec 0x08 k lim s
      else s
    if d == want && d == b.duty then blQuiet k s else if d == b.duty then s else blApply k d s

/-! ### The policy run, R471, R472 -/

/-- The policy target of a fan. -/
def polRun (n : Nat) (s : State) : State :=
  let p := s.thermal.record
  let tg := governing s (byteAt p (8 + 18 * n))
  let pts := policyPoints p n
  let up := curve tg pts
  let dn := curve (tg + byteAt p 3) pts
  s.modFan n (fun f => { f with pol := if f.pol ≤ up then up else min f.pol dn })

/-- One run of the policy. -/
def policyRun (s : State) : State :=
  let s := match s.thermal.policyNext with
    | some (n, r) => { s with thermal.policy := n, thermal.record := r, thermal.policyNext := none }
    | none => s
  let dt := match s.thermal.lastRun with
    | some t => s.clk.tb - t
    | none => 0
  let s := { s with thermal.lastRun := some s.clk.tb }
  let s := overrideEval (polRun 2 (polRun 1 (polRun 0 s)))
  driveFollow (blRun dt 1 (blRun dt 0 s))

/-- THERMISTOR_ROUND, R142, R146, R471: while no frames run the policy follows the round. -/
def execThermistorRound (xs : ThermRatios) (die : Int) (s : State) : Host.Outcome State Fault Refusal :=
  .next (if s.aon.mode == .hibernate || s.aon.mode == .off then s
    else
      let s := thermRound xs die (wrote (fun k pl => k == 0x60 || regsFrom 0x4000 0x1000 k pl) s)
      if s.framesRun then s else policyRun s)

/-! ### Fans: leave, start and stop, R64, R474, R475 -/

/-- A fan's bridge stops: its grants and requests end. -/
def fanStop (st n : Nat) (s : State) : State :=
  let w := 0x40 + n
  let s := dropReReq 1 w (dropReReq 0 w (withdraw 0 w (withdraw 1 w (releaseGrant 0 w (releaseGrant 1 w s)))))
  s.modFan n (fun f => { f with
    st := st, setMil := 0, drive := 0, integ := 0, current := 0, startStage := 0, holdDenied := false })

/-- A FAN record, R493. -/
def fanRec (sub n cause speed setp : Nat) (s : State) : State :=
  record 0x21 ([b8 sub, b8 n, b8 cause, 0] ++ le 2 speed ++ le 2 setp) s

/-- A fan asks for its start, unless it has asked. -/
def fanAsk (n : Nat) (s : State) : State :=
  let w := 0x40 + n
  if s.power.vmotUv || (s.fan n).hot || (s.reqOf 0 w).isSome || (s.grantOf 0 w).isSome || (s.grantOf 1 w).isSome then s
  else request 0 w s.power.fanStart false 0 false s

/-- A fan fails, R488-R490: in a retry the retry has failed. -/
def fanFail (n cause : Nat) (s : State) : State :=
  let f := s.fan n
  let s := fanStop 3 n s
  let s := s.modFan n (fun f => { f with failed := true, cause := cause, target := 0, retryMs := 30000 })
  let s :=
    if f.failed then fanRec 0x02 n cause f.speed f.rpm s
    else
      let s := s.modFan n (fun f => { f with epis := satAdd 255 f.epis 1, retries := 0 })
      latchFault 8 (fanRec 0x01 n cause f.speed f.rpm s)
  overrideEval s

/-- Whether a fan is driven. -/
def Fan.driven (f : Fan) : Bool := f.st == 1 || f.st == 2 || f.st == 4

/-- FAN_START_TO_RUN, R64: within 5 % of the target, or 8 s after the grant; the grant becomes FAN_RUN in its slot. -/
def execFanStartToRun (fan milliwatt : Nat) (after8s : Bool) (s : State) : Host.Outcome State Fault Refusal :=
  let w := 0x40 + fan
  let f := s.fan fan
  let cost := max 1 (ceilDiv (11 * milliwatt) 500)
  .next (if fan < 3 && (s.grantOf 0 w).isSome && f.driven &&
      (after8s || 20 * (f.speed - f.target + (f.target - f.speed)) ≤ f.target) then
    let s := { s with power.slots := s.power.slots.map (fun (g : Option Grant) => match g with
      | some g => if g.cls == 0 && g.who == w then some { g with cls := 1 } else some g
      | none => none) }
    follow 1 w cost (s.modFan fan (fun f => { f with measured := cost }))
  else s)

/-- FAN_RUN_REMEASURE, R64. -/
def execFanRunRemeasure (fan milliwatt : Nat) (s : State) : Host.Outcome State Fault Refusal :=
  let w := 0x40 + fan
  let cost := max 1 (ceilDiv (11 * milliwatt) 500)
  .next (if fan < 3 && (s.grantOf 1 w).isSome then
    let s := s.modFan fan (fun f => { f with measured := cost })
    if cost ≤ s.grantCost 1 w then follow 1 w cost (s.modFan fan (fun f => { f with holdDenied := false }))
    else if (s.reqOf 1 w).isSome || s.power.rereq.any (fun r => r.cls == 1 && r.who == w) then s
    else follow 1 w cost s
  else s)

/-! ### Skip bands, R478 -/

/-- A band joined with those of a list that it overlaps or touches. -/
def joinBand (b : Nat × Nat) : List (Nat × Nat) → List (Nat × Nat)
  | [] => [b]
  | c :: cs => if b.1 ≤ c.2 && c.1 ≤ b.2 then joinBand (min b.1 c.1, max b.2 c.2) cs else c :: joinBand b cs

/-- The bands that act. -/
def State.bands (s : State) (n : Nat) : List (Nat × Nat) :=
  if s.feat 65 then ((s.fan n).skips.foldl (fun bs b => joinBand b bs) []) else []

/-- A target moved out of a band, by the present setpoint in 1/1000 rpm. -/
def skipTarget (bs : List (Nat × Nat)) (setMil t : Nat) : Nat :=
  match bs.find? (fun b => b.1 < t && t < b.2) with
  | none => t
  | some b =>
    let dist (e : Nat) : Nat := (1000 * e - setMil) + (setMil - 1000 * e)
    if dist b.1 < dist b.2 then b.1 else b.2

/-- Whether the setpoint moves across a band. -/
def crossing (bs : List (Nat × Nat)) (setMil goal : Nat) : Bool :=
  bs.any (fun b => if setMil < goal then 1000 * b.1 ≤ setMil && setMil < 1000 * b.2
    else 1000 * b.1 < setMil && setMil ≤ 1000 * b.2)

/-! ### The 1 ms tick, R473, R476, R477 -/

/-- A record that was set takes effect (R487, R498). -/
def fanApply (n : Nat) (s : State) : State :=
  match (s.fan n).recNext with
  | none => s
  | some r =>
    let old := (s.fan n).record
    let emf := bit (byteAt old 0) 1 != bit (byteAt r 0) 1
    let s := s.modFan n (fun f => { f with record := r, recNext := none, fgIdle := if emf then 0 else f.fgIdle })
    if bit (byteAt old 0) 0 && !bit (byteAt r 0) 0 then
      overrideEval ((fanStop 0 n s).modFan n (fun f => { f with failed := false, target := 0, retryMs := 0 }))
    else if (byteAt old 1 != byteAt r 1 || emf) && (s.fan n).driven then
      fanAsk n (fanStop (if (s.fan n).failed then 3 else 0) n s)
    else s

/-- The target of a fan, R473. -/
def fanTarget (s : State) (n : Nat) : Nat :=
  let f := s.fan n
  if !s.fitted n || f.failed then 0
  else
    let p := if s.thermal.override then fanMax f else f.pol
    let t := s.running.foldl (fun m i => max m ((s.run i).fanReq.getD n 0)) (max p (fanFloor f))
    if t == 0 then 0 else skipTarget (s.bands n) f.setMil (clampN (fanMin f) (fanMax f) t)

/-- The setpoint after one tick. A fan whose growth was refused does not rise above its present setpoint, which stands for
the speed that its grant covers (R68; DESIGN CHOICE, log 32); inside a band, where no setpoint rests (R478), it falls to the band's lower edge. -/
def nextSet (bs : List (Nat × Nat)) (f : Fan) (goal : Nat) : Nat :=
  let held := match bs.find? (fun b => 1000 * b.1 < f.setMil && f.setMil < 1000 * b.2) with
    | some b => 1000 * b.1
    | none => f.setMil
  let g := if f.holdDenied then min (1000 * goal) held else 1000 * goal
  let rate := if crossing bs f.setMil g then 5000 else fanRamp f
  if f.setMil < g then min g (f.setMil + rate) else max g (f.setMil - rate)

/-- The proportional-integral law, R477: drive and integral in 1/65 536 000 of full drive, the error in 1/1000 rpm. -/
def speedLaw (kp ki : Nat) (integ : Nat) (e : Int) : Nat × Nat :=
  let m := clampI 0 65536000 (integ + kp * e)
  (m.toNat, if m == 0 || m == 65536000 then integ else (clampI 0 65536000 (integ + ki * e)).toNat)

/-- The peak phase current that a bridge allows, mA (R474, R475): ISTART, halved after a refusal (R68), until the closed loop. -/
def Fan.limit (f : Fan) : Nat :=
  if f.startStage == 2 then min 2500 (leAt f.record 10 2)
  else if f.halfStart then leAt f.record 8 2 / 2 else leAt f.record 8 2

/-- The tick of a fan that is driven: forced ramp, then the closed loop. -/
def fanDrive (bs : List (Nat × Nat)) (estimate : Option Nat) (f : Fan) : Fan :=
  if f.startStage == 0 then f
  else if f.startStage == 1 then
    let r := f.setMil + 1000
    if estimate.isSome && fanMin f ≤ f.inst then
      { f with startStage := 2, setMil := 1000 * fanMin f, st := if f.failed then 4 else 2 }
    else { f with setMil := r }
  else
    let goal := if f.failed then skipTarget bs f.setMil (fanMin f) else f.target
    let sp := nextSet bs f goal
    let (m, i) := speedLaw (byteAt f.record 14) (byteAt f.record 15) f.integ ((sp : Int) - 1000 * f.inst)
    { f with setMil := sp, drive := m / 65536, integ := i }

/-- The mean of the last 100 speeds. -/
def meanOf (xs : List Nat) : Nat := if xs.isEmpty then 0 else sumN xs / xs.length

/-- The speed that the FG input shows: a wait longer than the last period is itself a longer period (R476). -/
def fgSpeed (f : Fan) : Nat :=
  if f.fgPeriod == 0 then 0
  else 60000000 / (max f.fgPeriod (1000 * f.fgIdle) * (bits (byteAt f.record 0) 2 2 + 1))

/-- FAN_LOOP_TICK, R477. -/
def execFanLoopTick (fan : Nat) (x : FanSample) (s : State) : Host.Outcome State Fault Refusal :=
  .next (if 3 ≤ fan then s else
    let s := overrideEval (fanApply fan (wrote (fun k pl =>
      (k == 0x64 && byteAt pl 0 == fan) || regsFrom (0x9000 + 32 * fan) 32 k pl) s))
    let t := fanTarget s fan
    let s := s.modFan fan (fun f =>
      let emf := bit (byteAt f.record 0) 1
      let f := { f with fgIdle := f.fgIdle + 1 }
      let v := if emf then x.estimate.getD 0 else fgSpeed f
      let w := (f.window ++ [v]).drop (f.window.length + 1 - 100)
      { f with target := t, current := x.current, temp := x.temp, inst := v, window := w, speed := min 65535 (meanOf w)
               retryMs := if f.st == 3 && !s.power.vmotUv then f.retryMs - 1 else f.retryMs })
    let f := s.fan fan
    if f.driven && !f.failed && t == 0 then fanStop 0 fan s
    else if f.driven then s.modFan fan (fanDrive (s.bands fan) x.estimate)
    else if f.st == 0 && 0 < t then fanAsk fan s
    else s)

/-- FG_PULSE, R476: the speed from the pulse period; a pulse below 20 us is none. -/
def execFgPulse (fan widthUs periodUs : Nat) (s : State) : Host.Outcome State Fault Refusal :=
  .next (if fan < 3 && 20 ≤ widthUs && 0 < periodUs then
    s.modFan fan (fun f =>
      let f := { f with fgPeriod := periodUs, fgIdle := 0 }
      { f with inst := if bit (byteAt f.record 0) 1 then f.inst else fgSpeed f })
  else s)

/-- FAN_ALIGN_END, R475: the forced ramp begins. -/
def execFanAlignEnd (fan : Nat) (s : State) : Host.Outcome State Fault Refusal :=
  .next (if fan < 3 && (s.fan fan).driven && (s.fan fan).startStage == 0 then
    s.modFan fan (fun f => { f with startStage := 1, setMil := 0 })
  else s)

/-! ### Failures and retries, R488-R490 -/

/-- FAN_TACH_ABSENT, R488. -/
def execFanTachAbsent (fan : Nat) (s : State) : Host.Outcome State Fault Refusal :=
  let f := s.fan fan
  .next (if fan < 3 && s.fitted fan && f.driven && f.startStage == 2 && fanMin f ≤ f.rpm then
    fanFail fan 1 (s.modFan fan (fun f => { f with inst := 0 }))
  else s)

/-- FAN_STALL, R488: the current has been at the limit for 500 ms with the speed below a tenth of the setpoint. -/
def execFanStall (fan : Nat) (s : State) : Host.Outcome State Fault Refusal :=
  let f := s.fan fan
  .next (if fan < 3 && s.fitted fan && f.driven && 10 * f.inst < f.rpm then fanFail fan 2 s else s)

/-- FAN_RETRY, R489, R490: when the 30 s have run down, with a hot bridge below 130 degrees, the fan asks for a start. -/
def execFanRetry (fan : Nat) (s : State) : Host.Outcome State Fault Refusal :=
  let f := s.fan fan
  .next (if fan < 3 && s.fitted fan && f.st == 3 && f.retryMs == 0 && !f.hot && !s.power.vmotUv && (s.reqOf 0 (0x40 + fan)).isNone then
    fanAsk fan (s.modFan fan (fun f => { f with retries := satAdd 255 f.retries 1 }))
  else s)

/-- FAN_RECOVERED, R489: 2 s of valid speed at or above FMIN. -/
def execFanRecovered (fan : Nat) (s : State) : Host.Outcome State Fault Refusal :=
  let f := s.fan fan
  .next (if fan < 3 && f.st == 4 && f.startStage == 2 && fanMin f ≤ f.inst then
    overrideEval (fanRec 0x03 fan 0 f.speed f.rpm (s.modFan fan (fun f => { f with st := 2, failed := false })))
  else s)

/-- BRIDGE_HOT, R490: at or above 150.0 degrees the bridge stops; below 130.0 it may restart. -/
def execBridgeHot (fan : Nat) (temp : Int) (s : State) : Host.Outcome State Fault Refusal :=
  .next (if 3 ≤ fan then s
    else
      let s := s.modFan fan (fun f => { f with temp := temp })
      let f := s.fan fan
      if 1500 ≤ temp && !f.hot && s.fitted fan then
        let s := fanRec 0x04 fan 4 f.speed f.rpm (s.modFan fan (fun f => { f with hot := true }))
        if f.st == 3 || f.st == 5 then s else fanFail fan 4 s
      else if temp < 1300 && f.hot then fanRec 0x05 fan 0 f.speed f.rpm (s.modFan fan (fun f => { f with hot := false }))
      else s)

/-- BRIDGE_SHORT, R490. -/
def execBridgeShort (fan : Nat) (s : State) : Host.Outcome State Fault Refusal :=
  let f := s.fan fan
  .next (if fan < 3 && f.driven then fanFail fan 3 (fanRec 0x06 fan 3 f.speed f.rpm s) else s)

/-! ### SHDN_N, R481-R483 -/

/-- Threshold of a strap code in 0.1 degrees. -/
def tcritTemp (code : Nat) : Int := 850 + 50 * (code % 8 : Nat)

/-- SHDN_COMPARISON, R481, R483: the die in 0.1 degrees, x of TH0 in 1/65536, the strap. It runs while VAON is up. -/
def execShdnComparison (die : Int) (x tcrit : Nat) (s : State) : Host.Outcome State Fault Refusal :=
  let thr := tcritTemp tcrit
  let bad := xBad x
  let th0 : Int := if bad then 1500 else thermTemp x 3435
  let hot0 := !bad && thr ≤ th0
  let hot := hot0 || thr ≤ die
  let cool := !bad && th0 < thr - 100 && die < thr - 100
  .next (if s.aon.mode == .off then s else { s with shdn := { s.shdn with
    x := min 65535 x
    oor := bad
    assertRun := if hot then s.shdn.assertRun + 1 else 0
    oorRun := if bad then s.shdn.oorRun + 1 else 0
    relRun := if cool then s.shdn.relRun + 1 else 0
    tcrit := tcrit % 8
    th0Hot := hot0 || bad
    th0 := th0
    die := die } })

/-- SHDN_ASSERT, R483, R492. -/
def execShdnAssert (s : State) : Host.Outcome State Fault Refusal :=
  .next (if !s.shdn.asserted && (10 ≤ s.shdn.assertRun || 100 ≤ s.shdn.oorRun) then
    let s := { s with shdn.asserted := true, shdn.asserts := satAdd 255 s.shdn.asserts 1 }
    let s := if s.shdn.th0Hot then thermalRec 0x01 0 s.shdn.th0 s else thermalRec 0x01 4 s.shdn.die s
    safeShdn s
  else s)

/-- SHDN_RELEASE, R483, R492. -/
def execShdnRelease (s : State) : Host.Outcome State Fault Refusal :=
  .next (if s.shdn.asserted && 10 ≤ s.shdn.relRun then thermalRec 0x02 0 s.shdn.th0 { s with shdn.asserted := false } else s)

/-! ### Commands, R496-R502 -/

/-- The reply of THERM_READ. -/
def thermRead (s : State) : List Byte :=
  (tempsOf s).flatMap (leS 2) ++
    [b8 (flagsOf ((List.range 4).map (fun i => (s.thm i).fail) ++ [s.shdn.asserted, s.shdn.oor])), b8 s.shdn.tcrit] ++
    s.thermal.fans.flatMap (fun f => le 2 f.speed) ++ s.thermal.fans.flatMap (fun f => le 2 (min 65535 f.rpm)) ++
    [b8 (fanFlags s), b8 s.thermal.policy] ++ s.thermal.bls.flatMap (fun b => le 2 b.duty) ++ zeros 2

/-- A policy record in range, R497. -/
def policyOk (p : List Byte) : Bool :=
  let full := leAtS p 0 2
  let rising (pts : List (Int × Nat)) : Bool := (pts.zip (pts.drop 1)).all (fun (a, b) => a.1 < b.1 && a.2 ≤ b.2)
  let fan (k : Nat) : Bool :=
    let pts := policyPoints p k
    byteAt p (8 + 18 * k) != 0 && byteAt p (8 + 18 * k) < 32 && byteAt p (9 + 18 * k) < 4 && rising pts &&
      pts.all (fun q => q.2 ≤ 20000) && (slice p (10 + 18 * k + 4 * pts.length) (16 - 4 * pts.length)).all (· == 0)
  p.length == 64 && -400 ≤ full && full ≤ 1500 && byteAt p 2 != 0 && byteAt p 2 < 32 && 5 ≤ byteAt p 3 &&
    byteAt p 3 ≤ 100 && leAt p 4 4 == 0 && fan 0 && fan 1 && fan 2 && leAt p 62 2 == 0

/-- A fan record in range, R486, R498. -/
def fanOk (r : List Byte) : Bool :=
  let lo := leAt r 2 2
  let hi := leAt r 4 2
  let fl := leAt r 12 2
  r.length == 16 && byteAt r 0 < 16 && 1 ≤ byteAt r 1 && byteAt r 1 ≤ 8 && 100 ≤ lo && lo ≤ 5000 && lo ≤ hi &&
    hi ≤ 20000 && byteAt r 1 * hi ≤ 80000 && 50 ≤ leAt r 6 2 && leAt r 6 2 ≤ 5000 && 100 ≤ leAt r 8 2 &&
    leAt r 8 2 ≤ 2500 && 100 ≤ leAt r 10 2 && leAt r 10 2 ≤ 2500 && (fl == 0 || (lo ≤ fl && fl ≤ hi)) &&
    1 ≤ byteAt r 14 && 1 ≤ byteAt r 15

/-- The bands that a FAN_SKIP payload spells. -/
def bandsOf (p : List Byte) : List (Nat × Nat) :=
  (List.range (byteAt p 1)).map (fun k => (leAt p (2 + 4 * k) 2, leAt p (4 + 4 * k) 2))

/-- The reply of FAN_STATE. -/
def fanState (n : Nat) (s : State) : List Byte :=
  let f := s.fan n
  [b8 f.st, b8 f.cause] ++ le 2 f.speed ++ le 2 (min 65535 f.rpm) ++ le 2 f.target ++ le 2 f.drive ++
    le 2 (min 65535 f.current) ++ leS 1 (Int.fdiv f.temp 10) ++ [b8 (ceilDiv f.retryMs 1000), b8 f.epis, b8 f.retries]

/-- A BL_SET payload in range. -/
def blSetOk (p : List Byte) : Bool :=
  byteAt p 0 < 2 && leAt p 1 2 ≤ 1000 && 200 ≤ leAt p 3 2 && leAt p 3 2 ≤ 25000 && byteAt p 5 < 2

/-- A derating curve in range. -/
def blCurveOk (p : List Byte) : Bool :=
  byteAt p 0 < 2 && byteAt p 1 < 32 && leAtS p 2 2 < leAtS p 4 2 && leAt p 6 2 ≤ 1000 && 10 ≤ leAt p 8 2 &&
    leAt p 8 2 ≤ 10000

end Sys2Proof.Machine
end

