-- ==== Sys2Proof/Machine/Images.lean ====
section
/-! DEFINITION. Program images: the header, the checks of a load, load sessions, verification and binding, and the OTP keys
(R273-R289, R295-R297).
Conventions that the spec leaves open: log 28 (DEDUCED). -/

namespace Sys2Proof.Machine
open Sys2Proof

/-! ### The header, R273-R275, R280 -/

def hdrCode (h : List Byte) : Nat := leAt h 24 4
def hdrRoom (h : List Byte) : Nat := leAt h 28 4
def hdrSigned (h : List Byte) : Bool := bit (leAt h 6 2) 0
def hdrCaps (h : List Byte) : Nat := leAt h 52 2

/-- The length of the image that a header describes, R275. -/
def imgLength (h : List Byte) : Nat := 64 + hdrCode h + hdrRoom h + 32 + if hdrSigned h then 128 else 0

/-- An entry offset is absent, or aligned and within the code (R274). -/
def entryOk (h : List Byte) (at_ : Nat) : Bool :=
  let e := leAt h at_ 4
  e == 0xFFFFFFFF || (e % 4 == 0 && e < hdrCode h)

/-- Features and capabilities against what the part and the context hold: a result of R288. -/
def needsResult (s : State) (caps : BitVec 16) (h : List Byte) : Nat :=
  if (List.range 128).any (fun k => bit (leAt h 8 16) k && (96 ≤ k || !s.feat k)) then 0x06
  else if (BitVec.ofNat 16 (hdrCaps h) &&& ~~~caps) != 0 then 0x0C
  else 0

/-- The header checks of R280 in their order, before space is reserved; `total` is the declared length where there is
one. -/
def headerResult (s : State) (caps : BitVec 16) (total : Option Nat) (h : List Byte) : Nat :=
  let cs := hdrCode h
  let rs := hdrRoom h
  if leAt h 0 4 != 0x4E594C56 then 0x01
  else if leAt h 4 2 != 1 || 1 < leAt h 6 2 || 0x07FF < hdrCaps h then 0x02
  else if leAt h 60 4 != crc32c (h.take 60) then 0x03
  else if !(4 ≤ cs && cs ≤ 262144 && cs % 4 == 0 && rs ≤ 8192 && rs % 4 == 0) ||
      (match total with | some n => imgLength h != n | none => false) then 0x04
  else if !([32, 36, 40, 44].all (entryOk h)) || [32, 36, 40, 44].all (fun a => leAt h a 4 == 0xFFFFFFFF) then 0x05
  else needsResult s caps h

/-! ### The signer lock, R276, R277 -/

/-- A slot is valid, or blank (R276, R297). -/
def OtpSlot.valid (k : OtpSlot) : Bool := k.lock && k.check == crc32c k.hash
def OtpSlot.isBlank (k : OtpSlot) : Bool := k == OtpSlot.blank
def OtpSlot.spent (k : OtpSlot) : Bool := !k.valid && !k.isBlank

/-- The slot in force of two. -/
def slotInForce (a b : OtpSlot) : Option OtpSlot := if a.valid then some a else if b.valid then some b else none

/-- The image key hash in force. -/
def State.imgKey (s : State) : Option (List Byte) := (slotInForce s.otp.imgA s.otp.imgB).map (·.hash)

/-- The signature checks of R277: the key hash, then the signature over the digest. -/
def signerResult (s : State) (signed : Bool) (digest trailer : List Byte) : Nat :=
  if !signed then (if s.otp.sigreq then 0x09 else 0)
  else if !s.feat 36 then 0
  else
    let q := slice trailer 32 64
    match s.imgKey with
    | none => 0x0A
    | some k =>
      if sha256 q != k then 0x0A
      else if ecdsaOk digest (q.take 32) (q.drop 32) (slice trailer 96 32) (slice trailer 128 32) then 0
      else 0x0B

/-- The checks of R281 on a whole image: length, digest, signature, features and capabilities. -/
def finalResult (s : State) (caps : BitVec 16) (total : Nat) (b : List Byte) : Nat :=
  let h := b.take 64
  let n := 64 + hdrCode h + hdrRoom h
  if b.length < total || b.length < 64 then 0x0E
  else if sha256 (b.take n) != slice b n 32 then 0x08
  else
    let r := signerResult s (hdrSigned h) (slice b n 32) (b.drop n)
    if r != 0 then r else needsResult s caps h

/-- The image that bytes spell, at a base. -/
def imageOf (s : State) (b : List Byte) (base : Nat) (xip : Bool) : Image :=
  let h := b.take 64
  let n := 64 + hdrCode h + hdrRoom h
  { base := base, size := hdrCode h, xip := xip, span := imgLength h, init := leAt h 32 4, frame := leAt h 36 4,
    mail := leAt h 40 4, event := leAt h 44 4, estimate := leAt h 48 4, caps := BitVec.ofNat 16 (hdrCaps h),
    imageId := leAt h 56 4, digest := slice b n 32, signed := hdrSigned h && s.feat 36,
    roomInit := slice b (64 + hdrCode h) (hdrRoom h), header := h, trailer := slice b n 160 }

/-- The code of an image. -/
def codeOf (b : List Byte) : List Byte := slice b 64 (hdrCode (b.take 64))

/-! ### Sessions, R278-R282, R286 -/

/-- The record of a load at its start. -/
def newSession (i total : Nat) (flash : Option (Nat × Bool)) (tag : Option Nat) : Session :=
  { ctx := i, length := total, bytes := [], flash := flash, headerOk := false, reserved := 0, place := none, verifying := tag,
    short := false, bad := false }

/-- IMG_BEGIN: an earlier session of the context is aborted and a new one opens (R287). -/
def openSession (i total : Nat) (s : State) : State :=
  let s := abortSession i s
  { s with
    eng.aborted := s.eng.aborted.filter (· != i)
    eng.sessions := s.eng.sessions ++ [newSession i total none none] }

/-- Changes a session, or a load from flash. -/
def modSession (fl : Bool) (i : Nat) (f : Session → Session) (s : State) : State :=
  { s with eng.sessions := s.eng.sessions.map (fun e => if e.isOf fl i then f e else e) }

/-- Reserves space for the code of a load: first fit, or after compaction, or none (R224, R286). -/
def reserve (fl : Bool) (i n : Nat) (s : State) : Option State :=
  if s.freeKib < kibOf n then none
  else match firstFit s (kibOf n) with
    | some b => some (modSession fl i (fun e => { e with reserved := n, place := some b, headerOk := true }) s)
    | none => some (startCompact (modSession fl i (fun e => { e with reserved := n, place := none, headerOk := true }) s))

/-- The whole free store must hold what is reserved and not yet placed as well; an append to a session, R279, R280: the
result of R288 and the state. -/
def appendData (i : Nat) (data : List Byte) (s : State) : Nat × State :=
  match s.session i with
  | none => (0, s)
  | some e =>
    let b := e.bytes ++ data
    let s' := modSession false i (fun e => { e with bytes := b }) s
    if e.bytes.length < 64 && 64 ≤ b.length then
      let r := headerResult s (s.ctx i).caps (some e.length) (b.take 64)
      if r != 0 then (r, dropSession false i s)
      else match reserve false i (hdrCode b) s' with
        | some t => (0, t)
        | none => (0x07, dropSession false i s)
    else (0, s')

/-- Bytes of flash that an image load reads: none beyond the window, from a fenced sector, or with a template that does not run
(R283, R287, R399). -/
def flashPart (s : State) (off n : Nat) : Option (List Byte) :=
  if s.windowSize < off + n || s.fenced off n || s.barred [0] then none else some (readFlash s off n)

/-- An image in flash up to its place: the result of R288 that reading it or its header has, or its bytes. -/
def flashImage (s : State) (caps : BitVec 16) (off : Nat) : Nat × List Byte :=
  match flashPart s off 64 with
  | none => (0x0F, [])
  | some h =>
    let r := headerResult s caps none h
    if r != 0 then (r, [])
    else match flashPart s off (imgLength h) with
      | none => (0x0F, [])
      | some b => (0, b)

/-- A load that failed ends; its tag completes with the result (R282, R288). -/
def failLoad (fl : Bool) (i tag r : Nat) (s : State) : State := completeTag tag 0x09 [b8 r] (dropSession fl i s)

/-- A verified image waits for the next K, its load over. It takes its turn among the deferred commands of its context, so
that those accepted before act before it and those accepted after act after it (R306; DEDUCED, log 28). -/
def awaitBind (fl : Bool) (i tag : Nat) (e : Session) (b : List Byte) (xipBase : Option Nat) (s : State) : State :=
  let g := imageOf s b (xipBase.getD (e.place.getD 0)) xipBase.isSome
  let s := dropSession fl i s
  deferCmd (s.ctx i).owner 0x22 [b8 i] { s with
    eng.binds := s.eng.binds ++ [{ ctx := i, tag := tag, img := g, code := codeOf b, reserved := e.reserved, place := e.place }] }

/-- The end of a verification, R281-R283. -/
def verifyDone (i : Nat) (runs : Bool) (s : State) : State :=
  match s.eng.sessions.find? (fun e => e.ctx == i && e.verifying.isSome) with
  | none => s
  | some e =>
    let tag := e.verifying.getD 0
    let caps := (s.ctx i).caps
    match e.flash with
    | none =>
      let r := if e.short then 0x0E else finalResult s caps e.length e.bytes
      if r != 0 then failLoad false i tag r s
      else if runs then completeTag tag 0x08 [] (modSession false i (fun e => { e with verifying := none }) s)
      else awaitBind false i tag e e.bytes none s
    | some (off, xip) =>
      let (r, b) := flashImage s caps off
      let r := if e.bad then 0x0F else r
      if r != 0 then failLoad true i tag r s
      else match (if xip then some s else reserve true i (hdrCode b) s) with
        | none => failLoad true i tag 0x07 s
        | some t =>
          let r := finalResult t caps (imgLength b) b
          if r != 0 then failLoad true i tag r t
          else if runs then completeTag tag 0x08 [] (dropSession true i t)
          else awaitBind true i tag ((t.loading i).getD e) b (if xip then some (off + 64) else none) t

/-- One binding takes effect at K: the previous program is released, the context is LOADED (R281). A RUNNING context is
never rebound. -/
def bindOne (w : BindWait) (s : State) : State :=
  let s := { s with eng.binds := s.eng.binds.filter (fun x => x.ctx != w.ctx) }
  let c := s.ctx w.ctx
  if c.st == 3 then completeTag w.tag 0x08 [] s
  else if c.st == 0 then completeTag w.tag 0x09 [0x0D] s
  else
    let base := if w.img.xip then w.img.base else w.place.getD 0
    let s := if w.img.xip then s else { s with eng.code := Memory.writeN 0 s.eng.code base w.code }
    let s := s.modCtx w.ctx (fun c => { c with st := 2, prog := .image, img := { w.img with base := base } })
    completeTag w.tag 0 ([0] ++ le 4 w.img.estimate) s

/-- Whether a binding can take effect. -/
def BindWait.ready (w : BindWait) : Bool := w.img.xip || w.place.isSome

/-- The binding of a context that can take effect, and whether one waits for compaction. -/
def State.bindOf (s : State) (i : Nat) : Option BindWait := s.eng.binds.find? (fun w => w.ctx == i && w.ready)
def State.bindWaits (s : State) (i : Nat) : Bool := s.eng.binds.any (fun w => w.ctx == i && !w.ready)

/-- IMG_SESSION_ABORT, R286: 10 s without IMG_DATA or IMG_END. -/
def execImgSessionAbort (ctx : Nat) (s : State) : Host.Outcome State Fault Refusal :=
  .next (match s.session ctx with
    | some e => if e.verifying.isNone && s.aon.mode != .hibernate then abortSession ctx s else s
    | none => s)

/-! ### OTP key writes, R296, R297 -/

/-- The first blank slot of two: 0 or 1. -/
def blankSlot (a b : OtpSlot) : Option Nat := if a.isBlank then some 0 else if b.isBlank then some 1 else none

/-- A key write starts in the first blank slot, or sets SIGREQ alone. -/
def startKeyWrite (w : OtpWrite) (s : State) : State := { s with otp.write := some w }

/-- Sets a slot. -/
def setSlot (ledger : Bool) (n : Nat) (k : OtpSlot) (o : Otp) : Otp :=
  match ledger, n with
  | false, 0 => { o with imgA := k }
  | false, _ => { o with imgB := k }
  | true, 0 => { o with ledA := k }
  | true, _ => { o with ledB := k }

/-- KEY_PROG_DONE, R297: after the read-back the lock bit is set, then SIGREQ where asked; a mismatch leaves the slot
spent and completes with RANGE. -/
def execKeyProgDone (readBack : Bool) (s : State) : Host.Outcome State Fault Refusal :=
  .next (match s.otp.write with
    | none => s
    | some w =>
      let s := { s with otp.write := none }
      if w.slot == 2 then completeOpt w.tag 0 [] { s with otp.sigreq := true }
      else
        let k : OtpSlot := { hash := w.hash, check := crc32c w.hash, lock := readBack }
        let s := { s with otp := setSlot w.ledger w.slot k s.otp }
        if readBack then
          completeOpt w.tag 0 [] (if w.sigreq then { s with otp.sigreq := true } else s)
        else completeOpt w.tag 0x0D [] s)

/-- The reply of IMG_KEY_READ. -/
def imgKeyRead (s : State) : List Byte :=
  let a := s.otp.imgA
  let b := s.otp.imgB
  (s.imgKey.getD (zeros 32)) ++
    [b8 (flagsOf [s.imgKey.isSome, s.otp.sigreq, a.spent || b.spent, (blankSlot a b).isNone])]

/-! ### IMG_LIST, R295 -/

/-- One entry. -/
def imgEntry (s : State) (i : Nat) : List Byte :=
  let c := s.ctx i
  let (id, size, dig) : Nat × Nat × List Byte := match c.prog with
    | .image => (c.img.imageId, c.img.size, c.img.digest.take 4)
    | .stock n _ => (n, 0, zeros 4)
    | .none => (0, 0, zeros 4)
  [b8 i, b8 c.st, b8 (sourceOf c), b8 (flagsOf [sourceOf c ≥ 2 && c.img.signed, (s.session i).isSome])] ++
    le 4 id ++ le 4 size ++ dig

end Sys2Proof.Machine
end

