-- ==== Sys2Proof/Machine/Link.lean ====
section
/-! DEFINITION. The span link: packets, the span configuration and its hash, members, and what a part becomes when a ring
forms or breaks (R427-R469).
Conventions that the spec leaves open: log 13 (DESIGN CHOICE), log 18 (DEDUCED). -/

namespace Sys2Proof.Machine
open Sys2Proof

/-! ### Packets and records -/

/-- A SPAN record, R462. -/
def spanRec (sub pos value : Nat) (s : State) : State :=
  record 0x30 ([b8 sub, b8 pos] ++ le 2 value ++ le 4 s.frameOr) s

/-- Attention cause SPAN on both ports (R457, R458). -/
def causeSpan (s : State) : State :=
  cause .hs ({ · with causeSpan := true }) (cause .tw ({ · with causeSpan := true }) s)

/-- SPAN fault and cause. -/
def spanFault (s : State) : State := causeSpan (latchFault 9 s)

/-- The part sends packets of its own: SPAN is accepted (R431). -/
def State.spanOn (s : State) : Bool :=
  match s.chan.accepted with
  | some f => f.getLsbD 48
  | none => false

/-- The part may run frames: outside a span any part that has not accepted SPAN or is an island, in one a leader, a
follower or a HELD member (R456, R463). -/
def State.mayFrame (s : State) : Bool :=
  !s.spanOn || s.span.role == 2 || s.span.role == 3 || s.span.role == 4 || s.span.split

/-- The tile is dark: the part places its frames and senses nothing, as HELD or as a follower that is not admitted
(R456). -/
def State.dark (s : State) : Bool := s.span.role == 4 || (s.span.role == 3 && !s.span.joined)

/-! ### The span configuration, R442 -/

/-- The program of a context: a stock number and its parameters, or the digest of an image. -/
def progBytes (c : Ctx) : List Byte :=
  match c.prog with
  | .stock n ps => b8 n :: fit 16 0 ps
  | .image => 0xFE :: fit 32 0 c.img.digest
  | .none => 0xFF :: zeros 16

/-- One context of the span configuration. -/
def ctxBlob (c : Ctx) : List Byte :=
  [b8 c.st, b8 (portNum c.owner)] ++ le 2 c.caps.toNat ++ [b8 c.prio] ++ le 4 c.budget ++
    [b8 c.region.length] ++ fit 40 0 ((c.region.take 4).flatMap rectBytes) ++ contractBytes c.contract ++ progBytes c

/-- The image bound to a context, whole. -/
def imageBytes (s : State) (i : Nat) : List Byte :=
  let g := (s.ctx i).img
  let code := if g.xip then readFlash s g.base g.size else Memory.readN 0 s.eng.code g.base g.size
  g.header ++ code ++ g.roomInit ++ g.trailer

/-- The whole span configuration, serialised. -/
def cfgBlob (s : State) : List Byte :=
  s.span.config ++ s.ctxs.flatMap ctxBlob ++
    ((List.range 32).filter (fun i => (s.ctx i).prog == .image)).flatMap (imageBytes s) ++
    s.fe.sets.flatMap (fun p => fit 32 0 p.record)

/-- The configuration hash: the first 8 bytes of SHA-256. -/
def spanHash (s : State) : List Byte := (sha256 (cfgBlob s)).take 8

/-- The contexts that a serialised configuration holds, and the bytes that follow them. -/
def splitCtxs : Nat → List Byte → List (List Byte) × List Byte
  | 0, b => ([], b)
  | n + 1, b =>
    let k := if byteAt b 58 == 0xFE then 91 else 75
    let (cs, r) := splitCtxs n (b.drop k)
    (b.take k :: cs, r)

/-- The images that follow, one for each context that has one, and the bytes after them. -/
def splitImages : List (List Byte) → List Byte → List (List Byte) × List Byte
  | [], b => ([], b)
  | c :: cs, b =>
    if byteAt c 58 == 0xFE then
      let n := imgLength (b.take 64)
      let (xs, r) := splitImages cs (b.drop n)
      (b.take n :: xs, r)
    else
      let (xs, r) := splitImages cs b
      ([] :: xs, r)

/-- The parts of a serialised configuration: record, contexts, images, profiles. -/
def blobParts (b : List Byte) : List Byte × List (List Byte) × List (List Byte) × List Byte :=
  let (cs, r) := splitCtxs 32 (b.drop 48)
  let (gs, r) := splitImages cs r
  (b.take 48, cs, gs, r)

/-- The verification of a received configuration, R456: the first result of R288 that is not OK. -/
def blobResult (s : State) (b : List Byte) : Nat :=
  let (_, cs, gs, ps) := blobParts b
  if ps.length != 96 then 0x0E
  else (cs.zip gs).foldl (fun r (c, g) =>
    if r != 0 || byteAt c 58 != 0xFE then r
    else
      let caps := BitVec.ofNat 16 (leAt c 2 2)
      let h := headerResult s caps none (g.take 64)
      if h != 0 then h else finalResult s caps (imgLength (g.take 64)) g) 0

/-- The rectangles of a region. -/
def rectsOf (n : Nat) (p : List Byte) : List Rect := (List.range n).map (fun k => rectOf (slice p (10 * k) 10))

/-- The stock number that a profile record has, 0xFF for a custom one. -/
def stockOf (p : List Byte) : Nat := ((List.range 4).find? (fun k => stockProfile k == p)).getD 0xFF

/-- Installs one context of a received configuration, its code at the next free place of the code store. -/
def adoptCtx (acc : Nat × State) (x : Nat × List Byte × List Byte) : Nat × State :=
  let (base, s) := acc
  let (i, c, g) := x
  let st := byteAt c 0
  if st == 0 then (base, s.modCtx i (fun _ => .closed))
  else
    let img := byteAt c 58 == 0xFE
    let code := codeOf g
    let prog : Program := if img then .image else if byteAt c 58 == 0xFF then .none else .stock (byteAt c 58) (slice c 59 16)
    let s := s.modCtx i (fun _ => { Ctx.closed with
      st := st
      owner := if byteAt c 1 == 0 then .tw else .hs
      caps := BitVec.ofNat 16 (leAt c 2 2)
      prio := byteAt c 4
      budget := leAt c 5 4
      region := rectsOf (byteAt c 9) (slice c 10 40)
      contract := contractOf (slice c 50 8)
      prog := prog
      img := if img then imageOf s g base false else .none })
    let s := if img then { s with eng.code := Memory.writeN 0 s.eng.code base code } else s
    let s := s.modRun i (fun _ => { CtxRun.reset with initDue := st == 3 })
    let s := ctxReset i s
    (if img then base + 1024 * kibOf code.length else base, s)

/-- Adopts a configuration that was verified (R456). -/
def adoptBlob (b : List Byte) (s : State) : State :=
  let (cfg, cs, gs, ps) := blobParts b
  let s := { s with
    span.config := cfg, eng.code := [], eng.sessions := [], eng.binds := []
    fe.sets := (List.range 3).map (fun k => { stock := stockOf (slice ps (32 * k) 32), record := slice ps (32 * k) 32 })
    fe.applied := (List.range 3).map (fun k => slice ps (32 * k) 32) }
  let s := (List.range 32).foldl (fun s i => unassign i s) s
  (((List.range 32).zip (cs.zip gs)).foldl adoptCtx (0, s)).2

/-- A configuration record in range, R464. -/
def spanCfgOk (s : State) (p : List Byte) : Bool :=
  let req := leAt p 26 16
  let acc := s.chan.accepted.getD 0
  let w := byteAt p 1
  let h := byteAt p 2
  p.length == 48 && byteAt p 0 < 4 && (!bit (byteAt p 0) 1 || acc.getLsbD 49) && 1 ≤ w && w ≤ 4 && 1 ≤ h && h ≤ 4 &&
    40 ≤ byteAt p 3 && byteAt p 3 ≤ 80 && (slice p 10 16).all (fun b => b.toNat < 64) && leAt p 42 6 == 0 &&
    bit req 48 && (List.range 128).all (fun k => !bit req k || acc.getLsbD k) &&
    (List.range 16).all (fun q => !cfgPresent p q ||
      (q < w * h && (cfgExtent p q).1 ≤ cfgCW p && (cfgExtent p q).2 ≤ cfgCH p))

/-- The required mask of the configuration, R452. -/
def State.required (s : State) : FeatSet := BitVec.ofNat 128 (leAt s.span.config 26 16)

/-- The first required feature that a set lacks. -/
def firstMissing (req f : FeatSet) : Option Nat := (List.range 128).find? (fun k => req.getLsbD k && !f.getLsbD k)

/-! ### Members -/

/-- A member as known. -/
def State.member (s : State) (p : Nat) : Option Member := s.spanx.table.find? (fun m => m.pos == p)

/-- Changes a member. -/
def modMember (p : Nat) (f : Member → Member) (s : State) : State :=
  { s with spanx.table := s.spanx.table.map (fun m => if m.pos == p then f m else m) }

/-- The set in force on a leader: the intersection over the joined members (R452). -/
def leaderForce (s : State) : FeatSet :=
  s.spanx.table.foldl (fun (a : FeatSet) m => if getBit s.span.members m.pos then a &&& m.feats else a) (s.chan.accepted.getD 0)

/-- The part's state code in SPAN_MEMBERS, R466. -/
def ownState (s : State) : Nat :=
  match s.span.role with
  | 0 => 0
  | 1 => 1
  | 2 => if s.aon.mode == .safe then 5 else 2
  | 3 => if s.aon.mode == .safe then 5 else 2
  | 4 => 3
  | _ => 4

/-- One position of SPAN_MEMBERS. -/
def memberBytes (s : State) (p : Nat) : List Byte :=
  if p == s.pins.gpos then [b8 p, b8 (ownState s), b8 s.span.hops, 0] ++ uidBytes s ++ (spanHash s).take 4
  else match s.member p with
    | some m => [b8 p, b8 m.st, b8 m.hops, 0] ++ le 8 m.uid ++ le 4 m.hash
    | none => b8 p :: zeros 15

/-- The leader's position, none where the part knows no leader. -/
def State.leaderPos (s : State) : Nat :=
  if s.span.role == 2 || s.span.role == 3 || s.span.role == 4 then s.span.leader else 0xFF

/-- The reply of SPAN_STATE, R465. -/
def spanState (s : State) : List Byte :=
  let p := s.span
  [b8 p.role, b8 s.pins.gpos, b8 s.leaderPos, b8 (flagsOf [p.split, p.dupPos, p.lock, bit (byteAt p.config 0) 0])] ++
    le 2 p.members.toNat ++ le 2 p.heldMask.toNat ++ le 2 p.excl.toNat ++ spanHash s ++ [b8 p.colour, b8 p.cepoch] ++
    leS 2 (sat16 p.d) ++ le 2 p.rtt ++ le 4 s.frame.n ++ [b8 p.parts, 0, 0, 0]

/-! ### Forming and breaking -/

/-- What a part forgets when it leaves a ring: members, proposals, and what the ring was to bring. A pull and a relay
under way have lost their leader. -/
def clearRing (s : State) : State :=
  let s := completeOpt s.spanx.pullTag 0 [2, 0] s
  let s := s.spanx.relays.foldl (fun s r => completeTag r.2 0x0E [] s) s
  { s with
    span.joined := false, span.members := 0, span.heldMask := 0, span.excl := 0, span.inForce := BitVec.allOnes 128
    span.hops := 0, span.d := 0, clk.slew := 0, span.colour := if s.span.split then s.span.colour else 0
    spanx.table := [], spanx.proposal := none, spanx.commit := none, spanx.recolour := false, spanx.modeNext := none, spanx.adopted := 0, spanx.beacon := none
    spanx.beaconSent := false, spanx.recvTotal := 0, spanx.recv := [], spanx.changes := [], spanx.adopt := none
    spanx.pulls := [], spanx.pullTag := none, spanx.relays := [], spanx.stitches := [], spanx.censuses := [] }

/-- The part begins to claim (R434). -/
def startClaim (s : State) : State :=
  if s.spanOn && s.span.lock && (s.span.role == 0 || s.span.role == 5) then
    { clearRing s with span.role := 1, spanx.claimAt := none }
  else s

/-- The part becomes an island of one, R458. -/
def becomeIsland (s : State) : State :=
  let s := clearRing { s with span.role := 0, span.split := true }
  spanFault (spanRec 0x08 s.pins.gpos 0 s)

/-- An excluded part, R457: its tile is dark and its frames stop. -/
def becomeExcluded (sub value : Nat) (s : State) : State :=
  let s := clearRing { s with span.role := 5, span.dupPos := s.span.dupPos || sub == 7 }
  let s := { s with span.excl := setBit s.span.excl (s.pins.gpos % 16) true }
  spanFault (spanRec sub s.pins.gpos value s)

end Sys2Proof.Machine
end

