-- ==== Sys2Proof/Machine/Registers.lean ====
section
/-! DEFINITION. The register blocks: what each register reads as, which bits a write can change, what a write and a read
do (R7, R8, R340, R341 and the register tables of every chapter).
Conventions that the spec leaves open: log 29 (DEDUCED). -/

namespace Sys2Proof.Machine
open Sys2Proof

/-! ### Reads -/

/-- Block 0x0000, AON, R57. -/
def aonReg (s : State) (a : Nat) : Option Nat :=
  let x := s.aon
  match a / 4 with
  | 0 => some (pack [(3, x.mode.code), (1, 0), (3, x.prev.code), (1, 0), (4, x.why), (4, x.dozeHz), (3, x.rate)])
  | 1 => some (pack [(8, x.wakeHold), (8, x.hostHold), (4, x.dozeMin), (4, x.dozeMax), (1, flag x.nohib), (2, x.wakeRate)])
  | 2 => some x.wakeSrc.toNat
  | 3 => some (flagsOf [x.enTw, x.enHs, x.enGpio])
  | 4 => some (pack [(16, x.gpioMask.toNat), (16, x.gpioLevel.toNat)])
  | 5 => some (pack [(1, flag x.scShdn), (1, flag x.scVinlow), (1, flag x.scVhv), (1, flag x.scWdog), (1, 0),
      (1, flag x.vhvLatch), (2, x.vhvCnt), (1, flag (x.mode == .safe))])
  | 6 => some (pack [(16, leastNonzero (s.inForce.map (·.report))), (16, leastNonzero (s.inForce.map (·.wake)))])
  | 7 => some (pack [(16, s.need.toNat), (1, flag s.md.floor), (1, flag x.unmet), (1, flag x.lapse0),
      (1, flag x.lapse1)])
  | 8 => some (pack [(2, s.pins.boot), (4, s.pins.gpos), (3, s.pins.haddr), (1, flag s.pins.hsm), (3, s.shdn.tcrit)])
  | _ => none

/-- A value of the input meter, 0 without VIN_METER (R62). -/
def State.metered (s : State) (v : Nat) : Nat := if s.feat 67 then v else 0

/-- Block 0x1000, POWER, R80. CAP reads as last written; it applies at the next Hearth decision (R76). -/
def powerReg (s : State) (a : Nat) : Option Nat :=
  let p := s.power
  match (a - 0x1000) / 4 with
  | 0 => some (p.capNext.getD p.cap)
  | 1 => some (pack [(16, s.base), (10, min 1023 s.heldCost)])
  | 2 => some (pack [(5, s.grants.length), (3, 0), (5, min 31 p.reqs.length), (3, 0), (16, p.denied)])
  | 3 => some (pack [(16, s.metered s.meter.vinMa), (16, s.metered s.meter.vinMv)])
  | 4 => some (pack [(16, s.metered s.meter.vmotMa), (16, s.metered s.meter.vmotMv)])
  | 5 => some (pack [(16, s.metered s.meter.avg), (16, s.metered s.meter.peak)])
  | 6 => some (pack [(8, p.fanStart), (8, p.boostHu), (8, p.exc5), (8, p.exc25)])
  | 7 => some (pack [(8, p.eraseHu), (8, p.progHu), (8, p.blFull), (8, p.blFloor)])
  | 8 => some (flagsOf [p.dip, p.dipSeen, p.overcap, p.vmotUv, p.domCore, p.domSense, p.domDrive, s.feat 67])
  | 9 => some (pack [(1, flag s.meter.boostOn), (7, 0), (2, s.meter.vhvLast), (6, 0), (16, s.meter.vhvMeas)])
  | _ => none

/-- Block 0x2000, CLK, R99. -/
def clkReg (s : State) (a : Nat) : Option Nat :=
  let c := s.clk
  match (a - 0x2000) / 4 with
  | 0 => some (flagsOf [c.xtal, c.lock, c.xtalFail, c.spare, c.coasted, c.keepRail])
  | 1 => some c.cload
  | 2 => some (pack [(8, toU 8 s.cal.d.trim), (8, 0), (16, c.lastGate)])
  | 4 => some (c.tb % 2 ^ 32)
  | 5 => some c.timeHi
  | 6 => some (toU 10 c.slew)
  | 7 => some s.frame.n
  | 8 => some c.coastMs
  | _ => none

/-- One 32-bit slice of a mask. -/
def maskWord {w : Nat} (m : BitVec w) (k : Nat) : Nat := m.toNat / 2 ^ (32 * k) % 2 ^ 32

/-- Block 0x3000, FE, R127, R161. -/
def feReg (s : State) (a : Nat) : Option Nat :=
  let f := s.fe
  let set (k : Nat) : Nat := ((f.sets[k]?).map (·.stock)).getD 0xFF
  match a - 0x3000 with
  | 0x00 => some (pack [(8, set 0), (8, set 1), (8, set 2), (8, if s.framesRun then f.inUse else 0xFF)])
  | 0x04 => some (pack [(5, f.toneBin), (3, 0), (5, f.toneCyc), (3, 0), (6, f.toneBcyc), (2, 0), (8, f.toneS)])
  | 0x08 => some f.ftwA
  | 0x0C => some (if f.toneBcyc == 0 then 0 else f.ftwB)
  | 0x10 => some (pack [(8, f.mutA), (8, f.mutB), (8, f.vhvSet)])
  | 0x14 => some (pack [(1, flag f.run), (1, flag f.minv), (1, flag f.hopped), (1, flag f.ampLim), (1, flag f.scanFb),
      (1, flag f.hopHeld), (1, flag f.noQuiet), (1, 0), (4, f.hops), (4, 0), (16, f.crej)])
  | 0x18 => some (maskWord s.fc.clip 0)
  | 0x1C => some (maskWord s.fc.clip 1)
  | 0x20 => some (maskWord s.fc.txoff 0)
  | 0x24 => some (maskWord s.fc.txoff 1)
  | 0x28 => some (pack [(16, f.mlen), (16, f.llen)])
  | 0x2C => some s.fc.censel.toNat
  | 0x30 => some (pack [(2, s.fc.fixG), (1, flag s.fc.fix)])
  | 0x80 => some (pack [(3, 0), (1, flag s.chg.run), (4, s.chg.cvpp), (8, s.chg.cper), (16, s.chg.clen)])
  | 0x84 => some (pack ((List.range 4).flatMap (fun g =>
      let off := s.chg.goff.getD g false
      [(2, if off then 0 else s.chg.msrc.getD g 0), (2, if off then 0 else s.chg.csrc.getD g 0), (2, s.chg.level.getD g 0),
       (1, flag (s.chg.gclip.getD g false)), (1, flag off)])))
  | 0x88 => some (pack (s.cal.d.gsc.map (fun g => (8, g))))
  | 0x8C => some s.cal.d.rsc
  | 0xC0 => some s.clamp.sel
  | 0xC4 => some (s.clamp.counters.getD s.clamp.sel 0)
  | b =>
    if 0x90 ≤ b && b ≤ 0xA4 then some (maskWord s.clamp.flags ((b - 0x90) / 4))
    else if 0xA8 ≤ b && b ≤ 0xBC then some (maskWord s.clamp.opened ((b - 0xA8) / 4))
    else none

/-- Block 0x4000, FRC and thermistors, R162. -/
def frcReg (s : State) (a : Nat) : Option Nat :=
  let o := a - 0x4000
  let t (i : Nat) : Nat := toU 16 (s.thm i).temp
  if o < 0x80 then
    let n := o / 32
    let b := s.bridge n
    match o % 32 with
    | 0x00 => some (pack [(1, flag b.enW), (1, flag b.exc5W), (2, b.pgaW), (7, 0), (1, flag b.sat), (1, flag b.at25),
        (1, flag b.reg), (1, flag b.fault), (1, flag b.valid)])
    | 0x04 => some b.gaugeW
    | 0x08 => some (toU 32 (s.cal.d.zero.getD n 0))
    | 0x0C => some (s.cal.d.rel.getD n 16384)
    | 0x10 => some (pack [(24, toU 24 b.mean), (8, b.nconv)])
    | 0x14 => some (pack [(16, b.vexs), (16, b.vexp)])
    | _ => none
  else match o with
    | 0x80 => some (flagsOf ((List.range 4).map (fun i => (s.thm i).en)))
    | 0x84 => some (pack [(16, (s.thm 0).beta), (16, (s.thm 1).beta)])
    | 0x88 => some (pack [(16, (s.thm 2).beta), (16, (s.thm 3).beta)])
    | 0x8C => some (pack [(16, t 0), (16, t 1)])
    | 0x90 => some (pack [(16, t 2), (16, t 3)])
    | 0x94 => some (toU 16 s.therm.die)
    | 0x98 => some (flagsOf ((List.range 4).map (fun i => (s.thm i).fail) ++ (List.range 4).map (fun i => (s.thm i).failSeen)))
    | _ => none

/-- Block 0x6000, DYR, R238. -/
def dyrReg (s : State) (a : Nat) : Option Nat :=
  let e := s.eng
  let i := e.ctxSel
  let c := s.ctx i
  let r := s.run i
  match (a - 0x6000) / 4 with
  | 0 => some (pack [(6, s.running.length), (2, 0), (1, flag e.compact), (1, flag e.rateCap), (6, 0), (16, e.slipCnt)])
  | 1 => some (s.budSum % 2 ^ 20)
  | 2 => some e.passCyc
  | 3 => some (pack [(16, e.pcap0.toNat), (16, e.pcap1.toNat)])
  | 4 => some (pack [(9, s.largestKib), (7, 0), (9, s.freeKib)])
  | 5 => some i
  | 6 => some (pack [(16, c.caps.toNat), (3, c.st), (7, 0), (1, portNum c.owner), (1, flag (c.prog == .image && c.img.xip)),
      (2, c.prio)])
  | 7 => some c.budget
  | 8 => some (min 1048575 r.used)
  | 9 => some (pack [(8, r.detail), (8, r.cause)])
  | 10 => some r.faultPc
  | 11 => some (pack [(7, c.queue.recs.length), (1, 0), (7, c.mailIn.length), (1, 0), (1, flag (!c.mailOut.isEmpty)),
      (4, c.notices.length)])
  | _ => none

/-- Block 0x7000, TW, R372. -/
def twReg (s : State) (a : Nat) : Option Nat :=
  let t := s.tw
  match (a - 0x7000) / 4 with
  | 0 => some (pack [(1, flag t.pecReq), (1, flag t.fmPlus), (1, flag (s.chan.accepted.isNone || s.feat 17)), (1, flag s.ibr),
      (1, flag (s.feat 19)), (2, 0), (1, flag t.hnOff), (2, t.hnRate), (3, 0), (3, t.sdaHold)])
  | 1 => some (pack [(1, flag t.sclTo), (1, flag t.sdaTo), (1, flag (s.chan.tw.reply != .none)), (1, flag t.stretch),
      (1, flag s.chan.tw.signal), (1, flag t.hnPend), (1, flag t.ibrPend), (1, flag t.arbLost), (8, 0),
      (7, 0x28 + s.pins.haddr)])
  | 2 => some (pack [(16, t.check), (16, t.noReply)])
  | 3 => some (pack [(16, t.hnFail), (16, t.timeouts)])
  | 4 => some (pack [(16, t.maxUs), (16, t.wakeUs)])
  | _ => none

/-- The configuration of the chain that the next transaction has. -/
def Hs.cfg (h : Hs) : Nat × Nat := h.cfgNext.getD (h.woff, h.wlen)

/-- Block 0x7400, HS, R397. BUSYNOW reads 0: a command is carried out within its own step. -/
def hsReg (s : State) (a : Nat) : Option Nat :=
  let h := s.hs
  match (a - 0x7400) / 4 with
  | 0 => some (pack [(13, h.cfg.2), (3, 0), (16, h.cfg.1)])
  | 1 => some (pack [(1, flag h.present), (1, flag s.pins.hsm), (1, flag h.cpol), (1, flag (s.chan.hs.reply != .none)),
      (1, 0), (1, flag h.early), (1, flag h.eOpen), (1, 0), (8, h.e)])
  | 2 => some (pack [(16, h.check), (16, h.alive)])
  | 3 => some (pack [(16, h.busy), (16, h.misPos)])
  | 4 => some (min 65536 h.nclk)
  | 5 => some (pack [(4, h.atnGp), (1, flag h.atnEn)])
  | _ => none

/-- Block 0x7800, MEM, R426. -/
def memReg (s : State) (a : Nat) : Option Nat :=
  let m := s.mem
  match (a - 0x7800) / 4 with
  | 0 => some (pack [(1, flag m.profile.isSome), (1, flag m.mapValid), (1, flag m.xipEn), (1, flag m.cont), (8, 0), (2, m.div),
      (2, 0), (4, m.sel)])
  | 1 => some (pack [(1, 0), (1, flag (match m.op with | some o => o.running | none => false)), (1, flag m.susp),
      (1, flag m.recov), (3, m.fences.length), (1, 0), (3, s.memOp)])
  | 6 => some (pack [(16, m.misses), (16, m.hits)])
  | 7 => some (pack [(16, m.rdErr), (16, m.timeouts)])
  | 8 => some m.delay
  | 9 => some m.intentSeq
  | k =>
    if 2 ≤ k && k ≤ 5 then
      some (match m.fences[k - 2]? with
        | some f => pack [(1, 1), (1, flag (sectorSize s.flashProfile < f.len)), (10, 0), (20, f.base / 4096)]
        | none => 0)
    else none

/-- Block 0x8000, SPAN, R469. -/
def spanReg (s : State) (a : Nat) : Option Nat :=
  let p := s.span
  match (a - 0x8000) / 4 with
  | 0 => some (pack [(1, flag p.lock), (1, flag p.split), (1, flag p.dupPos), (1, 0), (3, p.role), (1, 0), (4, s.pins.gpos),
      (4, 0), (4, p.leader)])
  | 1 => some (pack [(16, p.members.toNat), (16, p.heldMask.toNat)])
  | 2 => some p.excl.toNat
  | 3 => some (leAt (spanHash s) 0 4)
  | 4 => some (pack [(16, p.rtt), (16, toU 16 (sat16 p.d))])
  | 5 => some (pack [(2, p.colour), (6, 0), (8, p.cepoch), (4, p.hops)])
  | 6 => some (pack [(16, p.lost), (16, p.crcErr)])
  | 7 => some (pack [(16, p.aborts), (16, p.late)])
  | 8 => some p.pulled
  | _ => none

/-- Block 0x9000, FAN, THM and BL, R503. -/
def fanReg (s : State) (a : Nat) : Option Nat :=
  let o := a - 0x9000
  let tg (k : Nat) : Nat := toU 16 (governing s (byteAt s.thermal.record (8 + 18 * k)))
  if o < 0x60 then
    let f := s.fan (o / 32)
    match o % 32 with
    | 0x00 => some (pack [(8, byteAt f.record 0), (4, byteAt f.record 1), (4, 0), (8, f.cause), (8, f.st)])
    | 0x04 => some (pack [(16, f.speed), (16, min 65535 f.rpm)])
    | 0x08 => some (pack [(16, f.target), (16, f.pol)])
    | 0x0C => some (pack [(10, f.drive), (6, 0), (16, min 65535 f.current)])
    | 0x10 => some (pack [(8, toU 8 (Int.fdiv f.temp 10)), (8, ceilDiv f.retryMs 1000)])
    | 0x14 => some (pack [(8, f.retries), (8, f.epis)])
    | _ => none
  else match o with
    | 0x60 => some (pack [(8, fanFlags s), (8, s.thermal.policy)])
    | 0x64 => some (pack [(16, tg 0), (16, tg 1)])
    | 0x68 => some (tg 2)
    | 0x6C => some (pack [(3, s.shdn.tcrit), (1, 0), (1, flag s.shdn.asserted), (1, flag s.shdn.oor), (2, 0),
        (8, s.shdn.asserts), (16, s.shdn.x)])
    | 0x80 => some (pack [(1, flag (s.bl 0).inverted), (15, 0), (16, (s.bl 0).freq)])
    | 0x84 => some (pack [(16, (s.bl 0).duty), (16, (s.bl 0).limit)])
    | 0x88 => some (pack [(1, flag (s.bl 1).inverted), (15, 0), (16, (s.bl 1).freq)])
    | 0x8C => some (pack [(16, (s.bl 1).duty), (16, (s.bl 1).limit)])
    | _ => none

/-- Block 0xA000, JRN, WC and LED, R531. -/
def jrnReg (s : State) (a : Nat) : Option Nat :=
  match a - 0xA000 with
  | 0x00 => some s.jrn.next
  | 0x04 => some s.oldestRam
  | 0x08 => some s.jrn.spillNext
  | 0x0C => some (flagsOf [s.spillOn, s.jrn.force])
  | 0x10 => some s.chan.tw.jptr
  | 0x14 => some s.chan.hs.jptr
  | 0x18 => some s.jrn.spillOld
  | 0x20 => some (s.wc.secs % 2 ^ 32)
  | 0x24 => some s.wc.secHi
  | 0x28 => some (pack [(20, s.wc.frac), (10, 0), (1, flag s.wc.fracCoast), (1, flag s.wc.fracSet)])
  | 0x30 => some (pack [(8, s.ledFlags), (8, s.led.queue.length)])
  | 0x34 => some s.led.len
  | 0x38 => some s.led.align
  | 0x3C => some s.led.nextSeq
  | 0x40 => some s.ledOldest
  | 0x44 => some s.led.ckpt
  | _ => none

/-- What a register reads as; none where the address holds no register. -/
def regRead (s : State) (a : Nat) : Option Nat :=
  if a % 4 != 0 then none
  else if a < 0x1000 then aonReg s a
  else if a < 0x2000 then powerReg s a
  else if a < 0x3000 then clkReg s a
  else if a < 0x4000 then feReg s a
  else if a < 0x5000 then frcReg s a
  else if a < 0x6000 then calReg s a s.cal.chSel s.cal.nodeSel
  else if a < 0x7000 then dyrReg s a
  else if a < 0x7400 then twReg s a
  else if a < 0x7800 then hsReg s a
  else if a < 0x8000 then memReg s a
  else if a < 0x9000 then spanReg s a
  else if a < 0xA000 then fanReg s a
  else jrnReg s a

/-- The side effect of a read at the copy instant (R80, R99, R372, R531). -/
def regTouch (a : Nat) (s : State) : State :=
  match a with
  | 0x1014 => { s with meter.peak := 0 }
  | 0x2010 => { s with clk.timeHi := s.clk.tb / 2 ^ 32 }
  | 0x7010 => { s with tw.maxUs := 0 }
  | 0xA020 => { s with wc.secHi := s.wc.secs / 2 ^ 32, wc.frac := s.wc.ticks, wc.fracSet := s.wc.set, wc.fracCoast := s.wc.coast }
  | _ => s

/-- `n` registers from an address, copied in one instant: the values before any side effect of the copy, but that TIMEHI,
SECHI and FRAC are copied with their low word (R340). -/
def regsRead : Nat → Nat → State → List Byte × State
  | 0, _, s => ([], s)
  | n + 1, a, s =>
    let b := le 4 ((regRead s a).getD 0)
    let (bs, s) := regsRead n (a + 4) (regTouch a s)
    (b ++ bs, s)

/-! ### Writes -/

/-- The bits that a write can change; RWL bits only before acceptance (R341). -/
def regWritable (s : State) (a : Nat) : Nat :=
  if a % 4 != 0 then 0
  else if 0x4000 ≤ a && a < 0x4080 then
    (match a % 32 with
     | 0x00 => 0x0000080F
     | 0x04 => 0x00FFFFFF
     | _ => 0)
  else if 0x3090 ≤ a && a ≤ 0x30A4 then (if a == 0x30A4 then 0x0001FFFF else 0xFFFFFFFF)
  else if 0x9000 ≤ a && a < 0x9060 then (if a % 32 == 0x14 then 0xFFFF else 0)
  else match a with
    | 0x0004 => 0x07FFFFFF
    | 0x0008 => 0x3F
    | 0x000C => 0x7
    | 0x0010 => 0xFFFFFFFF
    | 0x0014 => 0x2F
    | 0x001C => 0x000C0000
    | 0x1000 => 0x3FF
    | 0x1008 => 0xFFFF0000
    | 0x1018 => 0xFFFFFFFF
    | 0x101C => 0xFFFFFFFF
    | 0x1020 => 0x2
    | 0x2000 => 0x10
    | 0x2004 => 0xF
    | 0x2020 => 0xFFFFFFFF
    | 0x3014 => 0xFFFF0004
    | 0x302C => 0xFFFFFFFF
    | 0x3030 => 0x7
    | 0x30C0 => 0xFF
    | 0x30C4 => 0xFF
    | 0x4080 => 0xE
    | 0x4084 => 0xFFFFFFFF
    | 0x4088 => 0xFFFFFFFF
    | 0x4098 => 0xF0
    | 0x5004 => 0xFF
    | 0x5008 => 0x00FFFFFF
    | 0x500C => 0x3F
    | 0x5014 => 0xFFF
    | 0x5024 => 0xFFFFFFFF
    | 0x5028 => 0xFFFFFFFF
    | 0x5034 => 0x1F
    | 0x6000 => 0xFFFF0000
    | 0x600C => if s.chan.accepted.isNone then 0x07FF07FF else 0
    | 0x6014 => 0x1F
    | 0x7000 => 0x0000E380
    | 0x7004 => 0x83
    | 0x7008 => 0xFFFFFFFF
    | 0x700C => 0xFFFFFFFF
    | 0x7400 => 0xFFFF1FFF
    | 0x7408 => 0xFFFFFFFF
    | 0x740C => 0xFFFFFFFF
    | 0x7414 => 0x1F
    | 0x7804 => 0x8
    | 0x7818 => 0xFFFFFFFF
    | 0x781C => 0xFFFFFFFF
    | 0x7820 => 0xF
    | 0x8018 => 0xFFFFFFFF
    | 0x801C => 0xFFFFFFFF
    | 0x906C => 0xFF00
    | 0xA00C => 0x2
    | _ => 0

/-- A field as written: its new value where the range takes it, else as it was (R8). -/
def field (ok : Bool) (new old : Nat) : Nat := if ok then new else old

/-- A count of 16 bits that any one written to it clears. -/
def clearHi (ones v : Nat) : Nat := if bits ones 16 16 != 0 then 0 else v
def clearLo (ones v : Nat) : Nat := if bits ones 0 16 != 0 then 0 else v

/-- A front-end register write is a change that R24 binds to the next frame boundary: it is in flight until then (R304). -/
def deferWrite (p : Port) (a ones : Nat) (s : State) : State :=
  { s with chan.deferred := s.chan.deferred ++ [{ port := p, code := 0xE1, payload := le 2 a ++ le 4 ones }] }

/-- A bridge's configuration written by register: it takes effect at the next K (R162). -/
def writeFrcCfg (n w ones : Nat) (s : State) : State :=
  s.modBridge n (fun b => { b with enW := bit w 0, exc5W := bit w 1, pgaW := bits w 2 2, sat := b.sat && !bit ones 11 })

/-- TH1 to TH3 enabled or disabled. -/
def writeThermEn (w : Nat) (s : State) : State :=
  [1, 2, 3].foldl (fun s i => enableThm i (bit w i) s) s

/-- CAL.TLIM: all three fields or none. -/
def writeTlim (w : Nat) (s : State) : State :=
  let lo := bits w 0 8
  let hi := bits w 8 8
  let t := bits w 16 8
  if 32 ≤ lo && lo ≤ t && t ≤ hi then { s with cal.tMin := lo, cal.tMax := hi, cal.tInit := t } else s

/-- CAL.FGEOM0 and CAL.FGEOM1: a change of geometry discards the epoch's span samples. -/
def writeFgeom (xs : Bool) (w : Nat) (s : State) : State :=
  let lo := bits w 0 16
  let hi := bits w 16 16
  if hi ≤ lo then s
  else
    let changed := if xs then lo != s.cal.x0 || hi != s.cal.x1 else lo != s.cal.y0 || hi != s.cal.y1
    let s := if xs then { s with cal.x0 := lo, cal.x1 := hi } else { s with cal.y0 := lo, cal.y1 := hi }
    if changed then { s with cal.ep.span := List.replicate 4 [] } else s

/-- HS.CFG: each field on its own; both apply from the next transaction (R392, R397). -/
def writeHsCfg (w : Nat) (s : State) : State :=
  let (o, n) := s.hs.cfg
  let o' := bits w 16 16
  let n' := bits w 0 13
  { s with hs.cfgNext := some (field (o' ≤ 61440) o' o, field (8 ≤ n' && n' ≤ 4096 && n' % 8 == 0) n' n) }

/-- LAPSE0 and LAPSE1 cleared. -/
def clearLapse (l0 l1 : Bool) (s : State) : State :=
  settle { s with aon.lapse0 := s.aon.lapse0 && !l0, aon.lapse1 := s.aon.lapse1 && !l1 }

/-- Bits 0 to 5 of AON.SAFECAUSE cleared. -/
def clearSafecause (ones : Nat) (s : State) : State :=
  { s with aon.scShdn := s.aon.scShdn && !bit ones 0, aon.scVinlow := s.aon.scVinlow && !bit ones 1,
           aon.scVhv := s.aon.scVhv && !bit ones 2, aon.scWdog := s.aon.scWdog && !bit ones 3,
           aon.vhvLatch := s.aon.vhvLatch && !bit ones 5 }

/-- One pin of the clamp flags cleared by writing ones. -/
def clearFlags (k ones : Nat) (s : State) : State :=
  { s with clamp.flags := s.clamp.flags &&& ~~~(BitVec.ofNat 177 (ones * 2 ^ (32 * k))) }

/-- A write (GAUGE applies from the next latch, R150; a clear of CLK.COAST also drops its remainder below 1 024 ticks, DESIGN
CHOICE, log 14), `w` the register with its writable bits under the mask replaced and `ones` the ones written to them. -/
def regPut (p : Port) (a w ones : Nat) (s : State) : State :=
  if 0x4000 ≤ a && a < 0x4080 then
    let n := (a - 0x4000) / 32
    if a % 32 == 0 then writeFrcCfg n w ones s
    else s.modBridge n (fun b =>
      let g := field (w != 0) (bits w 0 24) b.gaugeW
      { b with gaugeW := g, gauge := g })
  else if 0x3090 ≤ a && a ≤ 0x30A4 then clearFlags ((a - 0x3090) / 4) ones s
  else if 0x9000 ≤ a && a < 0x9060 then
    s.modFan ((a - 0x9000) / 32) (fun f => { f with
      retries := if bits ones 0 8 != 0 then 0 else f.retries, epis := if bits ones 8 8 != 0 then 0 else f.epis })
  else match a with
    | 0x0004 =>
      let lo := bits w 16 4
      let hi := bits w 20 4
      let ok := 4 ≤ lo && lo ≤ hi && hi ≤ 10
      { s with aon.wakeRate := bits w 25 2, aon.nohib := bit w 24, aon.dozeMin := field ok lo s.aon.dozeMin
               aon.dozeMax := field ok hi s.aon.dozeMax
               aon.hostHold := field (bits w 8 8 != 0) (bits w 8 8) s.aon.hostHold
               aon.wakeHold := field (bits w 0 8 != 0) (bits w 0 8) s.aon.wakeHold }
    | 0x0008 => { s with aon.wakeSrc := s.aon.wakeSrc &&& ~~~(BitVec.ofNat 6 ones) }
    | 0x000C => { s with aon.enTw := bit w 0, aon.enHs := bit w 1, aon.enGpio := bit w 2 }
    | 0x0010 => { s with aon.gpioMask := BitVec.ofNat 16 w, aon.gpioLevel := BitVec.ofNat 16 (w / 65536) }
    | 0x0014 => clearSafecause ones s
    | 0x001C => clearLapse (bit ones 18) (bit ones 19) s
    | 0x1000 => if 20 ≤ w && w ≤ 1023 then { s with power.capNext := some w } else s
    | 0x1008 => { s with power.denied := clearHi ones s.power.denied }
    | 0x1018 =>
      let f (lo old : Nat) : Nat := field (bits w lo 8 != 0) (bits w lo 8) old
      { s with power.fanStart := f 0 s.power.fanStart, power.boostHu := f 8 s.power.boostHu
               power.exc5 := f 16 s.power.exc5, power.exc25 := f 24 s.power.exc25 }
    | 0x101C =>
      let f (lo old : Nat) : Nat := field (bits w lo 8 != 0) (bits w lo 8) old
      { s with power.eraseHu := f 0 s.power.eraseHu, power.progHu := f 8 s.power.progHu
               power.blFull := bits w 16 8, power.blFloor := f 24 s.power.blFloor }
    | 0x1020 => { s with power.dipSeen := s.power.dipSeen && !bit ones 1 }
    | 0x2000 => { s with clk.coasted := s.clk.coasted && !bit ones 4 }
    | 0x2004 => { s with clk.cload := w }
    | 0x2020 => if ones != 0 then { s with clk.coastMs := 0, clk.coastRem := 0 } else s
    | 0x3014 => { s with fe.crej := clearHi ones s.fe.crej, fe.hopped := s.fe.hopped && !bit ones 2 }
    | 0x302C => deferWrite p a ones { s with fc.censel := BitVec.ofNat 32 w }
    | 0x3030 => deferWrite p a ones { s with fc.fix := bit w 2, fc.fixG := bits w 0 2 }
    | 0x30C0 => { s with clamp.sel := field (w ≤ 176) w s.clamp.sel }
    | 0x30C4 => if ones != 0 then { s with clamp.counters := s.clamp.counters.set s.clamp.sel 0 } else s
    | 0x4080 => writeThermEn w s
    | 0x4084 =>
      let f (lo old : Nat) : Nat := field (2500 ≤ bits w lo 16 && bits w lo 16 ≤ 5000) (bits w lo 16) old
      (s.modThm 0 (fun t => { t with beta := f 0 t.beta })).modThm 1 (fun t => { t with beta := f 16 t.beta })
    | 0x4088 =>
      let f (lo old : Nat) : Nat := field (2500 ≤ bits w lo 16 && bits w lo 16 ≤ 5000) (bits w lo 16) old
      (s.modThm 2 (fun t => { t with beta := f 0 t.beta })).modThm 3 (fun t => { t with beta := f 16 t.beta })
    | 0x4098 => [0, 1, 2, 3].foldl (fun s i => s.modThm i (fun t => { t with failSeen := t.failSeen && !bit ones (4 + i) })) s
    | 0x5004 => { s with cal.freeze := BitVec.ofNat 16 (w % 256) ||| (s.cal.freeze &&& 0xFF00) }
    | 0x5008 => writeTlim w s
    | 0x500C => { s with cal.chSel := field (w ≤ 39) w s.cal.chSel }
    | 0x5014 => { s with cal.nodeSel := field (w ≤ 2559) w s.cal.nodeSel }
    | 0x5024 => writeFgeom true w s
    | 0x5028 => writeFgeom false w s
    | 0x5034 => { s with cal.rail := s.cal.rail &&& ~~~(BitVec.ofNat 5 ones) }
    | 0x6000 => { s with eng.slipCnt := clearHi ones s.eng.slipCnt }
    | 0x600C => { s with eng.pcap0 := BitVec.ofNat 16 w, eng.pcap1 := BitVec.ofNat 16 (w / 65536) }
    | 0x6014 => { s with eng.ctxSel := w }
    | 0x7000 =>
      let r := bits w 8 2
      { s with tw.sdaHold := field (6 ≤ bits w 13 3) (bits w 13 3) s.tw.sdaHold
               tw.hnRate := field (r ≤ 1 || (r == 2 && s.feat 20)) r s.tw.hnRate
               tw.hnOff := s.tw.hnOff && !bit ones 7
               tw.hnRun := if bit ones 7 then 0 else s.tw.hnRun }
    | 0x7004 =>
      { s with tw.sclTo := s.tw.sclTo && !bit ones 0, tw.sdaTo := s.tw.sdaTo && !bit ones 1
               tw.arbLost := s.tw.arbLost && !bit ones 7 }
    | 0x7008 => { s with tw.check := clearLo ones s.tw.check, tw.noReply := clearHi ones s.tw.noReply }
    | 0x700C => { s with tw.hnFail := clearLo ones s.tw.hnFail, tw.timeouts := clearHi ones s.tw.timeouts }
    | 0x7400 => writeHsCfg w s
    | 0x7408 => { s with hs.check := clearLo ones s.hs.check, hs.alive := clearHi ones s.hs.alive }
    | 0x740C => { s with hs.busy := clearLo ones s.hs.busy, hs.misPos := clearHi ones s.hs.misPos }
    | 0x7414 =>
      let g := bits w 0 4
      let taken := s.mem.profile.isSome && g == s.mem.sel
      { s with hs.atnEn := bit w 4, hs.atnGp := field (!taken) g s.hs.atnGp }
    | 0x7804 => { s with mem.recov := s.mem.recov && !bit ones 3 }
    | 0x7818 => { s with mem.misses := clearLo ones s.mem.misses, mem.hits := clearHi ones s.mem.hits }
    | 0x781C => { s with mem.rdErr := clearLo ones s.mem.rdErr, mem.timeouts := clearHi ones s.mem.timeouts }
    | 0x7820 => { s with mem.delay := w }
    | 0x8018 => { s with span.lost := clearLo ones s.span.lost, span.crcErr := clearHi ones s.span.crcErr }
    | 0x801C => { s with span.aborts := clearLo ones s.span.aborts, span.late := clearHi ones s.span.late }
    | 0x906C => if bits ones 8 8 != 0 then { s with shdn.asserts := 0 } else s
    | 0xA00C => { s with jrn.force := bit w 1 }
    | _ => s

/-- REG_WRITE's range check, R341. -/
def regWriteOk (s : State) (a mask : Nat) : Bool := (regRead s a).isSome && (mask &&& regWritable s a) != 0

/-- A register write: each writable bit under the mask takes the value's bit, and RW1C bits under a clear mask bit are
written with 0 (R341). -/
def regWrite (p : Port) (a value mask : Nat) (s : State) : State :=
  let m := mask &&& regWritable s a
  let old := (regRead s a).getD 0
  regPut p a ((old - (old &&& m)) + (value &&& m)) (value &&& m) s

end Sys2Proof.Machine
end

