-- ==== Sys2Proof/Machine/Replies.lean ====
section
/-! DEFINITION. The status byte, and the replies that carry live values: what each reads as at its copy instant, and what
the copy does (R301, R307, R317, R321, R327-R340 and the command layouts of every chapter). -/

namespace Sys2Proof.Machine
open Sys2Proof

/-- The status byte of a port, R301. While CORE is in retention or its clock stands, WAKE is set (R385). -/
def statusByte (p : Port) (s : State) : Nat :=
  let q := s.port p
  flagsOf [s.chan.faults != 0, s.chan.wake || s.clk.coreStopped, q.snap, q.qful, q.badf, s.causes p != 0, s.evt p, s.chan.rdy]

/-! ### Sets, identity, session -/

/-- The offered set, R309: every listed feature, and of HS_FRAMED and HS_CHAIN the one of the strapped mode. -/
def State.offered (s : State) : FeatSet :=
  maskOf 128 (fun k => k ≤ 7 || (16 ≤ k && k ≤ 20) || (k == 21 && !s.pins.hsm) || (k == 22 && s.pins.hsm) ||
    (32 ≤ k && k ≤ 36) || k == 48 || k == 49 || (64 ≤ k && k ≤ 67) || (80 ≤ k && k ≤ 84))

/-- The reply of IDENT, R11, R328. -/
def identBytes (p : Port) (s : State) : List Byte :=
  le 2 0x5057 ++ le 2 0x8640 ++ [2, b8 (portNum p), b8 s.pins.gpos, 0] ++ uidBytes s

/-- Tags that a port has in flight or that hold its completions; one whose completion will be discarded is in flight (R324). -/
def State.portTags (s : State) (p : Port) : Nat :=
  (s.chan.tags.filter (fun t => match t with
    | some t => t.port == p
    | none => false)).length

/-- The reply of SESSION_OPEN, with the flags as the command found them (R331). -/
def sessionBytes (p : Port) (flags : Nat) (s : State) : List Byte :=
  [b8 (portNum p), b8 flags, b8 s.aon.mode.code, b8 s.pins.boot] ++ le 2 (s.readable p).length ++ [b8 (s.portTags p), 0]

/-- FAULT_READ: the reply; the copy clears NEWFAULT and marks the bits as returned (R332, R336). -/
def faultRead (p : Port) (s : State) : List Byte × State :=
  (le 4 s.chan.faults.toNat ++ le 4 (s.causes p) ++ le 4 ((aonReg s 0x14).getD 0) ++ le 4 s.chan.faultFrame,
   settle (s.modPort p (fun q => { q with causeNew := false, seen := s.chan.faults })))

/-! ### Tags -/

/-- The tag a TAG_READ names: itself, or for 0xFF the lowest of the port that holds a completion. -/
def tagNamed (p : Port) (t : Nat) (s : State) : Option Nat :=
  if t == 0xFF then (List.range 64).find? (fun i => match s.chan.tags.getD i none with
    | some g => g.port == p && g.done && !g.discard
    | none => false)
  else some t

/-- TAG_READ: a done tag is freed at the copy (R334). -/
def tagRead (p : Port) (t : Nat) (s : State) : List Byte × State :=
  match tagNamed p t s with
  | none => ([0xFF, 0, 0, 0, 0, 0], s)
  | some i =>
    match s.chan.tags.getD i none with
    | none => ([0xFF, 0, 0, 0, 0, 0], s)
    | some g =>
      if g.done then
        ([b8 i, b8 g.code, 1, b8 g.err] ++ le 2 g.comp.length ++ g.comp,
         settle { s with chan.tags := s.chan.tags.set i none })
      else ([b8 i, b8 g.code, 0, 0, 0, 0], s)

/-! ### Contexts -/

/-- The reply of CTX_STATE, R337. -/
def ctxStateBytes (i : Nat) (s : State) : List Byte :=
  let c := s.ctx i
  let r := s.run i
  [b8 c.st, if c.st == 0 then 0xFF else b8 (portNum c.owner)] ++ le 2 c.caps.toNat ++ [b8 c.prio, b8 (sourceOf c), 0, 0] ++
    le 4 c.budget ++ le 4 r.used ++ [b8 r.cause, b8 r.detail, 0, 0] ++ le 4 r.faultPc

/-! ### Events, R317-R319 -/

/-- Gives a record in some queue of the port its sequence number. -/
def setSeq (ord seq : Nat) (q : Queue) : Queue :=
  { q with recs := q.recs.map (fun r => if r.ord == ord && r.seq.isNone then { r with seq := some seq } else r) }

/-- The records that an EVT_READ returns take their numbers at the first return. -/
def numberRecs (p : Port) (rs : List QRec) (s : State) : State :=
  rs.foldl (fun s r =>
    if r.seq.isSome then s
    else
      let n := (s.port p).nextSeq
      let s := s.modPort p (fun q => { q with house := setSeq r.ord n q.house, nextSeq := succ32 n })
      { s with ctxs := s.ctxs.map (fun c =>
          if c.st != 0 && c.owner == p then { c with queue := setSeq r.ord n c.queue } else c) }) s

/-- EVT_READ at its copy. -/
def evtRead (p : Port) (count : Nat) (s : State) : List Byte × State :=
  let all := s.readable p
  let s := numberRecs p (all.take count) s
  let rs := (s.readable p).take count
  let first := match rs with
    | r :: _ => r.seq.getD 0
    | [] => (s.port p).nextSeq
  let dropped := (s.port p).dropped
  (le 4 first ++ [b8 rs.length, b8 (flag (count < all.length))] ++ le 2 dropped ++ rs.flatMap (fun r => recBytes r.r),
   s.modPort p (fun q => { q with dropped := 0, lastRead := rs.map (fun r => r.seq.getD 0) }))

/-- Acknowledges the records of a port whose number a test accepts. -/
def ackRecs (p : Port) (ok : Nat → Bool) (s : State) : State :=
  let gone (r : QRec) : Bool := match r.seq with
    | some n => ok n
    | none => false
  let cut (q : Queue) : Queue := { q with recs := q.recs.filter (fun r => !gone r) }
  let s := s.modPort p (fun q => { q with house := cut q.house })
  settle { s with ctxs := s.ctxs.map (fun c => if c.st != 0 && c.owner == p then { c with queue := cut c.queue } else c) }

/-! ### Planes and the census -/

/-- The bytes of a plane, R116. -/
def planeBytes (s : State) (k : Nat) : List Byte :=
  if selfPlane k then
    ((planeValues s k false).zip (planeValues s k true)).flatMap (fun (i, q) => leS 2 i ++ leS 2 q)
  else
    let w := ((planeShape k).map (·.2)).getD 1
    (planeValues s k false).flatMap (leS w)

/-- The size of a plane in bytes, 0 for a reserved code. -/
def planeSize (k : Nat) : Nat :=
  match planeShape k with
  | some (n, w) => n * w
  | none => 0

/-- The reply of IMAGE_READ, R26, R125. -/
def imageRead (k off n : Nat) (s : State) : List Byte := le 4 s.planes.frame ++ slice (planeBytes s k) off n

/-- The reply of CENSUS_READ, R126. -/
def censusRead (s : State) : List Byte :=
  let b := s.planes.comp
  let elig := maskOf 32 (fun i => eligible s s.fe.inUse s.prof i)
  le 4 s.planes.frame ++ [b8 b.bin, b8 (flagsOf [b.hop, b.rejected, s.fe.hopHeld, s.fe.noQuiet]), b8 s.fe.hops, 0] ++
    le 4 elig.toNat ++ le 4 b.rejMask.toNat ++ planeBytes s 11

/-- CLAMP_READ: the reply, and the clear of flags and counters in the instant of the copy (R159). -/
def clampRead (clear : Bool) (s : State) : List Byte × State :=
  (le 23 s.clamp.flags.toNat ++ le 23 s.clamp.opened.toNat ++ s.clamp.counters.map b8,
   if clear then { s with clamp.flags := 0, clamp.counters := List.replicate 177 0 } else s)

/-- The reply of FE_GET, R124. -/
def feGet (k : Nat) (s : State) : List Byte :=
  match s.fe.sets[k]? with
  | some p => b8 p.stock :: fit 32 0 p.record
  | none => []

/-! ### Power, flash, ledger -/

/-- The reply of POWER_STATE, R77. -/
def powerState (s : State) : List Byte :=
  let p := s.power
  [b8 s.aon.mode.code, b8 s.aon.rate] ++ le 2 p.cap ++ le 2 s.base ++ le 2 s.heldCost ++
    [b8 s.grants.length, b8 p.reqs.length] ++ le 2 (s.metered s.meter.vinMv) ++ le 2 (s.metered s.meter.avg) ++
    [b8 (flagsOf [p.dip, p.overcap, p.vmotUv, s.md.forced.isSome, s.feat 67]), 0]

/-- The reply of POWER_GRANTS, R79. -/
def powerGrants (s : State) : List Byte :=
  b8 s.grants.length :: s.grants.flatMap (fun g =>
    [b8 g.cls, b8 (g.who % 256)] ++ le 2 g.cost ++ [b8 (flagsOf [g.revocable, standing g.cls]), 0])

/-- Where a sealed record stands in flash, none where it is served from RAM. -/
def ledPlace (s : State) (q : Nat) : Option Nat :=
  if ledInRam s q then none
  else match s.ledgerArea with
    | some (a, n) => ((List.range (n / 128)).find? (fun k =>
        let b := readFlash s (a + 128 * k) 128
        sealedOk b && leAt b 4 4 == q)).map (fun k => a + 128 * k)
    | none => none

/-- The sequences of a LEDGER_READ that are served from flash. -/
def ledFlash (s : State) (q n : Nat) : List Nat := (List.range n).filterMap (fun k => ledPlace s ((q + k) % 2 ^ 32))

/-- LEDGER_READ at its copy: FENCED, or the records, R530. -/
def ledgerRead (q n : Nat) (s : State) : Nat × List Byte :=
  if q == 0xFFFFFFFF then (0, [1, 0, 0, 0] ++ ledProvisional s)
  else if (ledFlash s q n).any (fun a => s.fenced a 128) then (0x0B, [])
  else
    let rs := ledRun s n q
    (0, [b8 rs.length, 0, 0, 0] ++ rs.flatten)

/-- The reply of SPAN_MEMBERS, R466. -/
def spanMembers (first n : Nat) (s : State) : List Byte := (List.range n).flatMap (fun k => memberBytes s (first + k))

/-- The reply of IMG_LIST, R295. -/
def imgList (first n : Nat) (s : State) : List Byte := (List.range n).flatMap (fun k => imgEntry s (first + k))

/-! ### The copy -/

/-- A live reply copied: error code and bytes, and the state after the copy's own effects (R307, R340). -/
def liveReply (p : Port) (code : Nat) (pl : List Byte) (s : State) : List Byte × State :=
  let ok (bs : List Byte) : List Byte × State := (0 :: bs, s)
  let via (r : List Byte × State) : List Byte × State := (0 :: r.1, r.2)
  match code with
  | 0x01 => ok (identBytes p s)
  | 0x02 => ok (le 16 (if byteAt pl 0 == 0 then s.offered else s.chan.accepted.getD 0).toNat)
  | 0x04 => ok (sessionBytes p (byteAt pl 0) s)
  | 0x05 => via (faultRead p s)
  | 0x06 => ok (le 4 s.chan.faults.toNat)
  | 0x07 => via (tagRead p (byteAt pl 0) s)
  | 0x17 => ok (ctxStateBytes (byteAt pl 0) s)
  | 0x24 => ok (imgList (byteAt pl 0) (byteAt pl 1) s)
  | 0x26 => ok (imgKeyRead s)
  | 0x30 => via (evtRead p (byteAt pl 0) s)
  | 0x31 => ok (le 2 (s.readable p).length)
  | 0x33 =>
    let (r, s') := journalRead p (byteAt pl 0) (leAt pl 1 4) (byteAt pl 5) s
    (match r with
     | some bs => (0 :: bs, s')
     | none => ([0x0D], s))
  | 0x41 => ok (feGet (byteAt pl 0) s)
  | 0x43 => ok (imageRead (byteAt pl 0) (leAt pl 1 2) (leAt pl 3 2) s)
  | 0x44 => ok (censusRead s)
  | 0x46 => via (clampRead (bit (byteAt pl 0) 0) s)
  | 0x50 => ok (calStateBytes s)
  | 0x53 => ok (seedBytes s)
  | 0x60 => ok (thermRead s)
  | 0x64 => ok (fanState (byteAt pl 0) s)
  | 0x71 => ok (powerState s)
  | 0x73 => ok (powerGrants s)
  | 0x81 => ok (spanState s)
  | 0x82 => ok (spanMembers (byteAt pl 0) (byteAt pl 1) s)
  | 0x92 =>
    let (e, bs, s') := memRead (leAt pl 0 4) (leAt pl 4 2) s
    (b8 e :: bs, s')
  | 0x95 => ok (memState s)
  | 0xA1 => ok (clockRead s)
  | 0xA3 => ok (ledgerState s)
  | 0xA4 =>
    let (e, bs) := ledgerRead (leAt pl 0 4) (byteAt pl 4) s
    (b8 e :: bs, if (ledFlash s (leAt pl 0 4) (byteAt pl 4)).isEmpty then s else otherRead s)
  | 0xE0 => via (regsRead (byteAt pl 2) (leAt pl 0 2) s)
  | _ => ([0x01], s)

/-- The transfer of the last copied reply has ended, R301, R307: SNAP says whether a value in it was written meanwhile. -/
def closeTransfer (p : Port) (s : State) : State :=
  match (s.port p).copied with
  | none => s
  | some c =>
    let now := (liveReply p c.code c.payload s).1
    s.modPort p (fun q => { q with copied := none, snap := c.watched && (c.written || now != c.after) })

/-- Whether SNAP watches a copy: a completion that the copy frees, and records behind the port's pointer, are never written
again. -/
def snapWatched (code : Nat) (same : Bool) : Bool := same || (code != 0x07 && code != 0x33)

/-- The reply the port holds is sent: a live one is copied now, once (R307, R348, R375). Answers error code and bytes. -/
def sendReply (p : Port) (s : State) : List Byte × State :=
  match (s.port p).reply with
  | .none => ([0x01], s)
  | .fixed bs => (bs, s.modPort p (fun q => { q with snap := false }))
  | .live code pl =>
    let (bs, s) := liveReply p code pl s
    let after := (liveReply p code pl s).1
    (bs, s.modPort p (fun q => { q with
      reply := .fixed bs
      copied := some { code := code, payload := pl, after := after, watched := snapWatched code (after == bs), written := false } }))

end Sys2Proof.Machine
end

