-- ==== Sys2Proof/Machine/Channel.lean ====
section
/-! DEFINITION. The command channel: the units of both ports and their checks, the order of checks, tags and bounds,
deferred commands, and how a transaction moves a unit and a reply (R298-R308, R346-R350, R373-R386, R393).
Conventions that the spec leaves open: log 21, log 22 (DEDUCED). -/

namespace Sys2Proof.Machine
open Sys2Proof

/-! ### The order of checks, R303 -/

/-- What a command's layout and rules say of one unit at each step of R303 from step 3 on. -/
structure Checks where
  /-- served on this port and in this port mode -/
  served : Bool := true
  /-- needs no session (R312), and is served before a set is accepted (R308) -/
  free : Bool := false
  early : Bool := false
  /-- the features the command belongs to -/
  feats : List Nat := []
  /-- served in SAFE (R52) -/
  safe : Bool := false
  /-- locked by the command's own rules -/
  locked : Bool := false
  lenOk : Bool
  /-- bytes of its longest reply (R384) -/
  longest : Nat := 0
  /-- a follower refuses it (R450) -/
  held : Bool := false
  perm : Bool := true
  busy : Bool := false
  inRange : Bool := true
  /-- tagged or deferred, and the context named in payload byte 0 (R304) -/
  flight : Bool := false
  ctx : Option Nat := none
  /-- bytes that a RANGE error carries -/
  data : List Byte := []

/-- Whether a deferred command names a context in payload byte 0. -/
def ctxCode (code : Nat) : Bool := (0x10 ≤ code && code ≤ 0x19) || (0x20 ≤ code && code ≤ 0x23) || code == 0x25

/-- Commands in flight that name a context. -/
def State.flightOf (s : State) (i : Nat) : Nat :=
  (s.chan.deferred.filter (fun d => ctxCode d.code && byteAt d.payload 0 == i)).length +
  (s.chan.tags.filter (fun t => match t with
    | some t => t.ctx == some i
    | none => false)).length

/-- The bounds of R304. -/
def State.full (s : State) (ctx : Option Nat) : Bool :=
  64 ≤ s.inFlight || (match ctx with
    | some i => 8 ≤ s.flightOf i
    | none => false)

/-- The first of the steps 3 to 12 of R303 that fails, 0 when the command is accepted. -/
def verdict (p : Port) (session : Bool) (k : Checks) (s : State) : Nat :=
  if !k.served then 0x01
  else if (!k.free && !session) || (!k.early && s.chan.accepted.isNone) then 0x07
  else if !k.feats.all s.feat then 0x01
  else if (s.aon.mode == .safe && !k.safe) || k.locked then 0x0F
  else if !k.lenOk || (p == .hs && s.pins.hsm && s.hs.wlen / 8 - 8 < k.longest) then 0x02
  else if k.held && (s.span.role == 3 || s.span.role == 4) then 0x0C
  else if !k.perm then 0x05
  else if k.busy then 0x08
  else if !k.inRange then 0x0D
  else if k.flight && s.full k.ctx then 0x06
  else 0

/-- A reply that is held whole. -/
def done (bs : List Byte) (s : State) : Reply × State := (.fixed (0 :: bs), s)

/-- A reply with an error code that carrying the command out found. -/
def failed (err : Nat) (bs : List Byte) (s : State) : Reply × State := (.fixed (b8 err :: bs), s)

/-- A reply that is copied when it is sent. -/
def live (code : Nat) (pl : List Byte) (s : State) : Reply × State := (.live code pl, s)

/-- A command as a row of the code map: its checks, and what it does once accepted. -/
structure Cmd where
  checks : Port → List Byte → State → Checks
  run : Port → List Byte → State → Reply × State

/-- Sets the reply that a port holds. -/
def setReply (p : Port) (r : Reply) (s : State) : State := s.modPort p (fun q => { q with reply := r, copied := none })

/-- A unit that passed steps 1 and 2: BADF clears, the other checks follow, and an accepted command is carried out. -/
def carry (p : Port) (c : Cmd) (pl : List Byte) (s : State) : State :=
  let s := s.modPort p (fun q => { q with badf := false })
  let k := c.checks p pl s
  let v := verdict p (s.port p).session k s
  if v == 0 then
    let (r, s) := c.run p pl (s.modPort p (fun q => { q with qful := false }))
    setReply p r s
  else
    let s := if v == 0x06 then s.modPort p (fun q => { q with qful := true }) else s
    setReply p (.fixed (b8 v :: if v == 0x0D then k.data else [])) s

/-- A unit rejected at step 1 or 2 (R325): BADF, and the rejection code as the held reply. -/
def reject (p : Port) (err : Nat) (s : State) : State :=
  setReply p (.fixed [b8 err]) (s.modPort p (fun q => { q with badf := true }))

/-! ### Tags -/

/-- A tagged command takes the lowest free tag (R305). -/
def takeTag (p : Port) (code : Nat) (ctx : Option Nat) (s : State) : Nat × State :=
  let t := (freeTag s).getD 0
  (t, { s with chan.tags := s.chan.tags.set t (some
    { port := p, code := code, ctx := ctx, done := false, err := 0, comp := [], discard := false }) })

/-- The immediate reply of a tagged command. -/
def tagged (t : Nat) (s : State) : Reply × State := (.fixed [0, b8 t], s)

/-! ### What a context will be, R303 -/

/-- State, owner, budget and program of a context once every deferred command accepted before has taken effect. -/
structure Fut where
  st : Nat
  owner : Port
  budget : Nat
  prog : Program
  caps : BitVec 16

/-- The budget of a CTX_OPEN payload (R226). -/
def openBudget (pl : List Byte) : Nat := if leAt pl 4 4 == 0 then 16384 else leAt pl 4 4

/-- The mask that CTX_OPEN gives: what is asked for under the port's ceiling; PLANES only with DYREL_PLANE (R219). -/
def openCaps (p : Port) (pl : List Byte) (s : State) : BitVec 16 :=
  let m := BitVec.ofNat 16 (leAt pl 1 2) &&& (if p == .tw then s.eng.pcap0 else s.eng.pcap1)
  if s.feat 33 then m else setBit m 1 false

/-- One deferred command. -/
def futStep (s : State) (f : Fut) (d : Deferred) : Fut :=
  match d.code with
  | 0x10 => { f with st := if f.st == 0 then 1 else f.st, owner := if f.st == 0 then d.port else f.owner,
                     budget := openBudget d.payload, caps := openCaps d.port d.payload s,
                     prog := if f.st == 0 then .none else f.prog }
  | 0x11 => { f with st := 0, prog := .none }
  | 0x22 => if f.st == 0 || f.st == 3 then f else { f with st := 2, prog := .image }
  | 0x14 => if f.st == 0 then f else { f with st := 2, prog := .stock (byteAt d.payload 1) (slice d.payload 2 16) }
  | 0x15 => if f.st == 0 then f else { f with st := 3 }
  | 0x16 => if f.st == 0 then f else { f with st := 4 }
  | _ => f

/-- Whether a deferred command is of one context; a binding that waits stands among them as 0x22 (R281, R306). -/
def Deferred.isOf (d : Deferred) (i : Nat) : Bool :=
  ((0x10 ≤ d.code && d.code ≤ 0x16) || d.code == 0x22) && byteAt d.payload 0 == i

/-- The context after the bindings and the deferred commands that wait. -/
def State.fut (s : State) (i : Nat) : Fut :=
  let c := s.ctx i
  let f : Fut := { st := c.st, owner := c.owner, budget := c.budget, prog := c.prog, caps := c.caps }
  (s.chan.deferred.filter (·.isOf i)).foldl (futStep s) f

/-- Whether a port may send a context command: it owns the context, or nobody will (R217). -/
def State.mayCtx (s : State) (p : Port) (i : Nat) : Bool := (s.fut i).st == 0 || (s.fut i).owner == p

/-- Whether a CTX_CLOSE of a context waits. -/
def State.closing (s : State) (i : Nat) : Bool := s.chan.deferred.any (fun d => d.code == 0x11 && d.isOf i)

/-- The budgets of the contexts that will run, one left out. -/
def State.futBudget (s : State) (i : Nat) : Nat :=
  sumN ((List.range 32).map (fun j => if j != i && (s.fut j).st == 3 then (s.fut j).budget else 0))

/-! ### Units of the two ports -/

/-- The part is entering HIBERNATE; one whose flash is busy has not begun (R392, R427). -/
def State.entering (s : State) : Bool := s.md.hibEntry && s.mem.op.isNone

/-- Commands are served: the engine runs, the clocks are there (R301, R353), and no entry to HIBERNATE is under way: it
completes first, and the wake is then served (R366, R392). -/
def State.serves (s : State) : Bool := s.chan.rdy && !s.chan.wake && !s.clk.coreStopped && !s.entering

/-- What becomes of a unit at steps 1 and 2. -/
inductive Fate where
  | empty | badCheck | badAlive | repeated | passed
  deriving DecidableEq, Repr

/-- The two-wire address as the first byte of a write (R344). -/
def State.twAddr (s : State) : Nat := 2 * (0x28 + s.pins.haddr)

/-- A command write's PEC: checked where it came, needed once PEC is required (R346, R350). -/
def twFate (code : Nat) (u : HostUnit) (s : State) : Fate :=
  match u.check with
  | none => if s.tw.pecReq then .badCheck else .passed
  | some c => if c == crc8 ([b8 s.twAddr, b8 code, b8 u.payload.length] ++ u.payload) then .passed else .badCheck

/-- The bytes of a chain unit before its CRC (R383). -/
def chainBytes (code : Nat) (u : HostUnit) : List Byte :=
  u.payload ++ [b8 code] ++ le 2 u.payload.length ++ [b8 u.pos]

/-- The bytes of a command frame before its CRC (R376). -/
def frameBytes (code : Nat) (u : HostUnit) : List Byte :=
  [b8 u.alive, b8 code] ++ le 2 u.payload.length ++ u.payload

/-- The window that a part takes of a chain unit: its last bits, right-aligned (R382). -/
def chainWindow (code : Nat) (u : HostUnit) (s : State) : Nat :=
  ofBe (chainBytes code u ++ le 4 (u.check.getD 0)) % 2 ^ min (u.clocks - s.hs.woff) s.hs.wlen

/-- A unit of the serial port. `resync` is ALIVE_RESYNC, exempt from step 2 (R380). -/
def hsFate (code : Nat) (resync : Bool) (u : HostUnit) (s : State) : Fate :=
  if s.pins.hsm then
    let w := chainWindow code u s
    let bs := chainBytes code u
    if u.clocks ≤ s.hs.woff || w == 0 then .empty
    else if w == ofBe (bs ++ le 4 (u.check.getD 0)) && 8 + u.payload.length ≤ s.hs.wlen / 8 &&
        u.pos == 0xC0 + s.pins.gpos && u.check == some (crc32c bs) then .passed
    else .badCheck
  else
    let c := crc32c (frameBytes code u)
    if u.clocks < 8 * (8 + u.payload.length) || u.check != some c then .badCheck
    else if resync || s.hs.eOpen || u.alive == s.hs.e then .passed
    else if (u.alive + 1) % 256 == s.hs.e && s.hs.lastCrc == some c then .repeated
    else .badAlive

/-- Whether a rejected chain window has a wrong position byte (R393). -/
def misplaced (code : Nat) (u : HostUnit) (s : State) : Bool :=
  s.pins.hsm && chainWindow code u s / 2 ^ 32 % 256 != 0xC0 + s.pins.gpos

/-! ### Serial transactions -/

/-- What the pin logic notes of every transaction (R397). -/
def hsEdge (clocks : Nat) (mode3 : Bool) (s : State) : State :=
  let s := match s.hs.cfgNext with
    | some (o, n) => { s with hs.woff := o, hs.wlen := n, hs.cfgNext := none }
    | none => s
  let s := if s.hs.absentNext then { s with hs.present := false, hs.absentNext := false } else s
  { s with hs.nclk := min 65536 clocks, hs.early := clocks < s.hs.woff + s.hs.wlen, hs.cpol := mode3 }

/-- The bytes the port sends for a reply under a status byte: a frame or a window (R377, R384). -/
def hsFrame (status : Nat) (r : List Byte) (s : State) : List Byte :=
  let err := r.headD 0
  let data := r.drop 1
  if s.pins.hsm then
    let w := [b8 status, err] ++ le 2 data.length ++ data
    fit (s.hs.wlen / 8) 0xFF (w ++ le 4 (crc32c w))
  else
    let w := [b8 status, b8 s.hs.replyAlive, err] ++ le 2 data.length ++ data
    w ++ le 4 (crc32c w)

/-- The outward side of a transaction: the status byte, then the held reply, copied if it is live (R375, R385). -/
def hsReply (s : State) : State :=
  let s := closeTransfer .hs s
  let st := statusByte .hs s
  let (r, s) := sendReply .hs s
  let bs := hsFrame st r s
  s.modPort .hs (fun q => { q with out := bs })

/-- A busy transaction, R386, R394: status, then nothing; a port held in reset drives nothing, an absent one status 0. -/
def hsBusy (clocks : Nat) (mode3 : Bool) (s : State) : State :=
  if !s.chan.rdy then s
  else
    let s := hsEdge clocks mode3 s
    if !s.hs.present then s.modPort .hs (fun q => { q with out := [0] })
    else
      let st := statusByte .hs s
      { s.modPort .hs (fun q => { q with out := [b8 st, 0xFF] }) with hs.busy := satAdd 65535 s.hs.busy 1 }

/-- A transaction on a port that serves: its reply goes out, then what came in is taken. -/
def hsTransact (clocks : Nat) (mode3 : Bool) (inward : State → State) (s : State) : State :=
  if !s.serves then hsBusy clocks mode3 s
  else
    let s := hsEdge clocks mode3 s
    if !s.hs.present then s.modPort .hs (fun q => { q with out := [0] })
    else inward (hsReply s)

/-- A unit rejected on the serial port (R393). -/
def hsReject (code : Nat) (u : HostUnit) (f : Fate) (s : State) : State :=
  let s := { s with hs.replyAlive := u.alive % 256 }
  match f with
  | .badAlive => reject .hs 0x04 { s with hs.alive := satAdd 65535 s.hs.alive 1 }
  | _ =>
    let s := if misplaced code u s then { s with hs.misPos := satAdd 65535 s.hs.misPos 1 } else s
    reject .hs 0x03 { s with hs.check := satAdd 65535 s.hs.check 1 }

/-- A unit that passes both steps sets E (R379). -/
def hsPass (code : Nat) (resync : Bool) (u : HostUnit) (s : State) : State :=
  let s := { s with hs.replyAlive := u.alive % 256 }
  if resync || s.pins.hsm then s
  else { s with hs.e := (u.alive + 1) % 256, hs.eOpen := false, hs.lastCrc := some (crc32c (frameBytes code u)) }

/-- A serial unit with its command. -/
def hsUnit (code : Nat) (resync : Bool) (c : Cmd) (u : HostUnit) (s : State) : State :=
  match hsFate code resync u s with
  | .empty => s
  | .repeated => s
  | .passed => carry .hs c u.payload (hsPass code resync u s)
  | f => hsReject code u f s

/-- A transaction to the part's own address begins: the one before it has ended, and an in-band request that it finds
counts as unanswered (R359). -/
def twBegin (s : State) : State :=
  let s := closeTransfer .tw s
  if s.tw.ibr then { s with tw.ibr := false, tw.ibrPend := false } else s

/-- A rejected unit on the two-wire port (R348, R369). -/
def twReject (s : State) : State := reject .tw 0x03 { s with tw.check := satAdd 65535 s.tw.check 1 }

/-- A command write with its command. While commands are not served the part does not acknowledge. -/
def twUnit (code : Nat) (c : Cmd) (u : HostUnit) (s : State) : State :=
  if !s.serves then s
  else
    let s := twBegin s
    match twFate code u s with
    | .passed => carry .tw c u.payload s
    | _ => twReject s

/-- A command unit on its port. -/
def hostUnit (code : Nat) (resync : Bool) (c : Cmd) (u : HostUnit) (s : State) : State :=
  match u.port with
  | .tw => twUnit code c u s
  | .hs => hsTransact u.clocks u.mode3 (hsUnit code resync c u) s

/-- The outcome of a command's row. -/
def hostRow (code : Nat) (c : Cmd) (u : HostUnit) (s : State) : Host.Outcome State Fault Refusal :=
  .next (hostUnit code false c u s)

/-! ### Rows without a command of their own -/

/-- UNASSIGNED_CODE, R9. -/
def unassigned : Cmd := { checks := fun _ _ _ => { served := false, lenOk := true }, run := fun _ _ s => done [] s }

/-- Codes of R339. -/
def assignedCode (c : Nat) : Bool :=
  c ≤ 0x08 || (0x10 ≤ c && c ≤ 0x19) || (0x20 ≤ c && c ≤ 0x27) || (0x30 ≤ c && c ≤ 0x33) || (0x40 ≤ c && c ≤ 0x46) ||
    (0x50 ≤ c && c ≤ 0x54) || (0x60 ≤ c && c ≤ 0x66) || (0x70 ≤ c && c ≤ 0x73) || (0x80 ≤ c && c ≤ 0x84) ||
    (0x90 ≤ c && c ≤ 0x96) || (0xA0 ≤ c && c ≤ 0xA4) || (0xB0 ≤ c && c ≤ 0xB2) || c == 0xE0 || c == 0xE1 || c == 0xF0

/-- UNASSIGNED_CODE: a unit with a code that is not assigned. -/
def execUnassignedCode (u : HostUnit) (code : Nat) (s : State) : Host.Outcome State Fault Refusal :=
  .next (if assignedCode code then s else hostUnit code false unassigned u s)

/-- UNIT_REJECTED, R325, R346, R378: a unit cut short, or one that fails its check or its alive counter. -/
def execUnitRejected (u : HostUnit) (code : Nat) (cut : Bool) (s : State) : Host.Outcome State Fault Refusal :=
  .next (match u.port with
    | .tw =>
      if s.serves && (cut || twFate code u s == .badCheck) then twReject (twBegin s) else s
    | .hs =>
      let bad (f : Fate) : Bool := f == .badCheck || f == .badAlive
      let t := if s.serves then hsEdge u.clocks u.mode3 s else s
      if !(cut || bad (hsFate code (code == 0x08) u t)) then s
      else hsTransact u.clocks u.mode3 (fun s =>
        let f := if cut then .badCheck else hsFate code (code == 0x08) u s
        hsReject code u f s) s)

/-- REPEAT_FRAME, R379: a frame that repeats the last one accepted at step 2. -/
def execRepeatFrame (u : HostUnit) (code : Nat) (s : State) : Host.Outcome State Fault Refusal :=
  .next (if u.port == .hs && hsFate code (code == 0x08) u s == .repeated then hsTransact u.clocks u.mode3 id s else s)

/-- IDLE_TRANSACTION, R378, R383: the held reply again, under a fresh status byte. -/
def execIdleTransaction (x : SerialEdge) (s : State) : Host.Outcome State Fault Refusal :=
  .next (hsTransact x.clocks x.mode3 id s)

/-- BUSY_TRANSACTION, R386. -/
def execBusyTransaction (x : SerialEdge) (s : State) : Host.Outcome State Fault Refusal :=
  .next (hsBusy x.clocks x.mode3 s)

end Sys2Proof.Machine
end

