-- ==== Sys2Proof/Machine/HostCtx.lean ====
section
/-! DEFINITION. The session, context, mail, image and event commands: checks, replies and effects (R216-R236, R277-R297,
R308-R320, R327-R338, R505).
Conventions that the spec leaves open: log 21, log 28 (DEDUCED). -/

namespace Sys2Proof.Machine
open Sys2Proof

/-! ### Session commands -/

/-- STATUS as the serial port serves it, R327. -/
def cmdStatus : Cmd :=
  { checks := fun _ pl _ => { free := true, early := true, safe := true, lenOk := pl.length == 0 }
    run := fun _ _ s => done [] s }

/-- A status read of the two-wire port, R349: the byte and its PEC; the held reply stays. -/
def twStatus (s : State) : State :=
  if !s.serves then s
  else
    let s := twBegin s
    let st := b8 (statusByte .tw s)
    s.modPort .tw (fun q => { q with out := [st, b8 (crc8 [b8 s.twAddr, 0, b8 (s.twAddr + 1), st])] })

def execStatus (u : HostUnit) (s : State) : Host.Outcome State Fault Refusal :=
  .next (match u.port with
    | .tw => twStatus s
    | .hs => hostUnit 0x00 false cmdStatus u s)

/-- IDENT, R328. -/
def cmdIdent : Cmd :=
  { checks := fun _ pl _ => { free := true, early := true, safe := true, lenOk := pl.length == 0, longest := 16 }
    run := fun _ pl s => live 0x01 pl s }

def execIdent (u : HostUnit) (s : State) : Host.Outcome State Fault Refusal := hostRow 0x01 cmdIdent u s

/-- FEAT_READ, R329. -/
def cmdFeatRead : Cmd :=
  { checks := fun _ pl _ => { free := true, early := true, safe := true, lenOk := pl.length == 1, longest := 16,
                              inRange := byteAt pl 0 ≤ 1 }
    run := fun _ pl s => live 0x02 pl s }

def execFeatRead (u : HostUnit) (s : State) : Host.Outcome State Fault Refusal := hostRow 0x02 cmdFeatRead u s

/-- The requirements of R309: a set is offered, complete, and holds not both of 17 and 18. -/
def setOk (s : State) (f : FeatSet) : Bool :=
  let has (k : Nat) : Bool := f.getLsbD k
  (f &&& ~~~s.offered) == 0 && !(has 17 && has 18) &&
    (!(has 33 || has 34 || has 35 || has 36) || has 32) && (!(has 34 || has 49) || has 48) && (!has 65 || has 64) &&
    (!(has 35 || has 81 || has 82) || has 80) && (!has 84 || has 83)

/-- A set is accepted, R310, R311: PEC and speed, the serial port's presence, the ledger and the span follow it. A part in
BOOT makes its mode choice (R55). -/
def acceptSet (f : FeatSet) (s : State) : State :=
  let s := { s with
    chan.accepted := some f
    tw.pecReq := f.getLsbD 16
    tw.fmPlus := f.getLsbD 20 }
  let s := if f.getLsbD 83 then ledgerStart s else s
  let s := if f.getLsbD 48 && s.span.lock && s.span.role == 0 && !s.span.split then startClaim s else s
  settle s

/-- The serial port is absent without its feature: at once, or after the reply of the command that accepts. -/
def hsPresence (p : Port) (s : State) : State :=
  if s.feat (if s.pins.hsm then 22 else 21) then s
  else if p == .hs then { s with hs.absentNext := true }
  else { s with hs.present := false }

/-- The set that FEAT_ACCEPT carries. -/
def setIn (pl : List Byte) : FeatSet := BitVec.ofNat 128 (leAt pl 0 16)

/-- FEAT_ACCEPT, R310, R330. Its own transaction starts HOSTHOLD anew (R55). -/
def cmdFeatAccept : Cmd :=
  { checks := fun _ pl s => { early := true, safe := true, lenOk := pl.length == 16, longest := 16,
                              locked := pl.length == 16 && (match s.chan.accepted with
                                | some f => f != setIn pl
                                | none => false)
                              inRange := setOk s (setIn pl) }
    run := fun p pl s =>
      if s.chan.accepted.isSome then done (pl.take 16) s
      else
        let s := hsPresence p (acceptSet (setIn pl) s)
        let s := cause (otherPort p) (fun q => { q with causePeer := true }) s
        done (pl.take 16) (choose 0 { s with md.bootHold := true }) }

def execFeatAccept (u : HostUnit) (s : State) : Host.Outcome State Fault Refusal := hostRow 0x03 cmdFeatAccept u s

/-- A close frees the tags whose completions wait, and marks those in flight (R324, R331). -/
def dropTags (p : Port) (s : State) : State :=
  { s with chan.tags := s.chan.tags.map (fun t => match t with
      | some g => if g.port == p then (if g.done then none else some { g with discard := true }) else some g
      | none => none) }

/-- SESSION_OPEN, R331: the flags as the command found them; the rest is copied when it is sent. -/
def cmdSessionOpen : Cmd :=
  { checks := fun _ pl _ => { free := true, early := true, safe := true, lenOk := pl.length == 1, longest := 8,
                              inRange := byteAt pl 0 ≤ 1 }
    run := fun p pl s =>
      let opened := byteAt pl 0 == 1
      let was := (s.port p).session
      let fl := flagsOf [was, (s.port (otherPort p)).session, s.chan.accepted.isSome]
      let s := s.modPort p (fun q => { q with session := opened })
      let s := if opened then s else settle (dropTags p s)
      let s := if opened && p == .tw then { s with tw.hnOff := false, tw.hnRun := 0 } else s
      let s := if was != opened then cause (otherPort p) (fun q => { q with causePeer := true }) s else s
      live 0x04 [b8 fl] s }

def execSessionOpen (u : HostUnit) (s : State) : Host.Outcome State Fault Refusal := hostRow 0x04 cmdSessionOpen u s

/-- FAULT_READ, R332. -/
def cmdFaultRead : Cmd :=
  { checks := fun _ pl _ => { early := true, safe := true, lenOk := pl.length == 0, longest := 16 }
    run := fun _ pl s => live 0x05 pl s }

def execFaultRead (u : HostUnit) (s : State) : Host.Outcome State Fault Refusal := hostRow 0x05 cmdFaultRead u s

/-- Whether the condition of a bit of the fault summary stands (R336). -/
def faultStands (s : State) (k : Nat) : Bool :=
  match k with
  | 0 => s.aon.mode == .safe && s.shdn.asserted
  | 1 => s.aon.mode == .safe && s.md.vinLow
  | 2 => s.aon.vhvLatch
  | 3 => s.md.wdogNow
  | 4 => s.clk.xtalFail
  | 5 => s.fc.clip != 0 || s.fc.txoff != 0 || s.clamp.opened != 0
  | 6 => s.bridges.any (·.fault)
  | 7 => s.therm.inputs.any (·.fail)
  | 8 => s.thermal.fans.any (·.failed)
  | 9 => s.span.split || s.span.role == 5
  | 10 => s.mem.fences.any (·.held)
  | 11 => s.ctxs.any (fun c => c.st == 5)
  | 13 => s.power.dip
  | _ => false

/-- FAULT_CLEAR takes effect, R53, R333, R336: bits the port has read, the SAFE causes of bits 0 to 3, the attention
causes; what stands latches again. -/
def faultClear (p : Port) (mask att : Nat) (s : State) : State :=
  let c := (BitVec.ofNat 32 mask &&& (s.port p).seen &&& s.chan.faults).toNat
  let freed := (bit c 2 && s.aon.vhvLatch) || (bit c 3 && s.md.wdogNow)
  let s := { s with chan.faults := s.chan.faults &&& ~~~(BitVec.ofNat 32 c) }
  let s := clearSafecause (c % 16 + if bit c 2 then 32 else 0) s
  let s := if bit c 3 && s.md.wdogNow then
      (s.running.foldl (fun s i => leaveRunning 4 i s) { s with md.wdogNow := false })
    else s
  let s := if freed then leaveSafe s else s
  let s := if bit att 1 then (if p == .tw then clearLapse true false s else clearLapse false true s) else s
  let s := s.modPort p (fun q => { q with causeReset := q.causeReset && !bit att 4, causePeer := q.causePeer && !bit att 5,
                                          causeSpan := q.causeSpan && !bit att 6 })
  let s := ((List.range 14).filter (fun k => bit c k && faultStands s k)).foldl (fun s k => latchFault k s) s
  settle s

/-- FAULT_CLEAR, R333. -/
def cmdFaultClear : Cmd :=
  { checks := fun _ pl s => { early := true, safe := true, lenOk := pl.length == 8, longest := 4, locked := s.clk.xtalFail,
                              inRange := leAt pl 0 4 < 2 ^ 14 && leAt pl 4 4 < 2 ^ 7 }
    run := fun p pl s => live 0x06 pl (faultClear p (leAt pl 0 4) (leAt pl 4 4) s) }

def execFaultClear (u : HostUnit) (s : State) : Host.Outcome State Fault Refusal := hostRow 0x06 cmdFaultClear u s

/-- The tag that a TAG_READ payload names, where one is in use. -/
def tagIn (t : Nat) (s : State) : Option Tag := if t < 64 then s.chan.tags.getD t none else none

/-- TAG_READ, R334. -/
def cmdTagRead : Cmd :=
  { checks := fun p pl s =>
      let t := byteAt pl 0
      { early := true, lenOk := pl.length == 1
        longest := 6 + (match (tagNamed p t s).bind (fun i => tagIn i s) with
          | some g => g.comp.length
          | none => 0)
        perm := match tagIn t s with
          | some g => g.port == p
          | none => true
        inRange := t == 0xFF || (tagIn t s).isSome }
    run := fun _ pl s => live 0x07 pl s }

def execTagRead (u : HostUnit) (s : State) : Host.Outcome State Fault Refusal := hostRow 0x07 cmdTagRead u s

/-- ALIVE_RESYNC, R335, R380. -/
def cmdAliveResync : Cmd :=
  { checks := fun p pl s => { served := p == .hs && !s.pins.hsm, early := true, safe := true, lenOk := pl.length == 0,
                              longest := 1 }
    run := fun _ _ s => done [if s.hs.eOpen then 0xFF else b8 s.hs.e]
      { s with hs.e := (s.hs.replyAlive + 1) % 256, hs.eOpen := false } }

def execAliveResync (u : HostUnit) (s : State) : Host.Outcome State Fault Refusal :=
  .next (hostUnit 0x08 true cmdAliveResync u s)

/-! ### Context commands, R217, R337, R338 -/

/-- The context of a payload. -/
def ctxIn (pl : List Byte) : Nat := byteAt pl 0

/-- A state check that holds only for contexts that exist; a number beyond 31 fails with RANGE. -/
def ctxBusy (pl : List Byte) (s : State) (ok : List Nat) : Bool := ctxIn pl < 32 && !ok.contains (s.fut (ctxIn pl)).st

/-- Ownership, R217. -/
def ctxPerm (p : Port) (pl : List Byte) (s : State) : Bool := 32 ≤ ctxIn pl || s.mayCtx p (ctxIn pl)

/-- The leader of a span defers the span's configuration to its committed K (R450). -/
def State.leads (s : State) : Bool := s.span.role == 2

/-- CTX_OPEN takes effect with a mask. -/
def openCtx (p : Port) (caps : BitVec 16) (pl : List Byte) (s : State) : State :=
  let n := openBudget pl
  let pr := byteAt pl 3
  s.modCtx (ctxIn pl) (fun c =>
    if c.st == 0 then
      { Ctx.closed with st := 1, owner := p, caps := caps, prio := pr, budget := n, contract := .default,
                        region := [{ x0 := 0, y0 := 0, x1 := 65535, y1 := 65535, excl := false }] }
    else { c with caps := caps, prio := pr, budget := n })

/-- Whether a CTX_OPEN waits for K: a leader's does (R450), and one behind a CTX_CLOSE that waits (DEDUCED, log 21). -/
def openWaits (i : Nat) (s : State) : Bool := s.leads || s.closing i

/-- CTX_OPEN, R338. The mask that a leader commits is the one of its reply (R232). -/
def cmdCtxOpen : Cmd :=
  { checks := fun p pl s => { lenOk := pl.length == 8, longest := 2, held := true, perm := ctxPerm p pl s
                              busy := ctxBusy pl s [0, 1, 2, 4, 5]
                              inRange := ctxIn pl < 32 && leAt pl 1 2 < 2048 && byteAt pl 3 ≤ 3 &&
                                (leAt pl 4 4 == 0 || (1024 ≤ leAt pl 4 4 && leAt pl 4 4 ≤ 524288))
                              flight := openWaits (ctxIn pl) s, ctx := some (ctxIn pl) }
    run := fun p pl s =>
      let caps := openCaps p pl s
      if openWaits (ctxIn pl) s then done (le 2 caps.toNat) (deferCmd p 0x10 (splice pl 1 (le 2 caps.toNat)) s)
      else done (le 2 caps.toNat) (openCtx p caps pl s) }

def execCtxOpen (u : HostUnit) (s : State) : Host.Outcome State Fault Refusal := hostRow 0x10 cmdCtxOpen u s

/-- Whether a CTX_CLOSE waits for K: that of a RUNNING context does (R338), and a leader's (R450). -/
def closeWaits (i : Nat) (s : State) : Bool := s.leads || (s.ctx i).st == 3

/-- A CTX_CLOSE that takes effect before its reply ends what waits for its context: it would find it CLOSED (R338). -/
def closeNow (i : Nat) (s : State) : State :=
  closeCtx i { s with chan.deferred := s.chan.deferred.filter (fun d => !d.isOf i) }

/-- CTX_CLOSE. -/
def cmdCtxClose : Cmd :=
  { checks := fun p pl s => { lenOk := pl.length == 1, held := true, perm := ctxPerm p pl s
                              busy := ctxBusy pl s [1, 2, 3, 4, 5], inRange := ctxIn pl < 32
                              flight := closeWaits (ctxIn pl) s, ctx := some (ctxIn pl) }
    run := fun p pl s =>
      if closeWaits (ctxIn pl) s then done [] (deferCmd p 0x11 pl s) else done [] (closeNow (ctxIn pl) s) }

def execCtxClose (u : HostUnit) (s : State) : Host.Outcome State Fault Refusal := hostRow 0x11 cmdCtxClose u s

/-- The contract last accepted for a context. -/
def lastContract (i : Nat) (s : State) : Contract :=
  (s.chan.deferred.filter (fun d => d.code == 0x12 && byteAt d.payload 0 == i)).foldl
    (fun _ d => contractOf (d.payload.drop 1)) (s.ctx i).contract

/-- The ranges of R33 and R35. -/
def contractOk (s : State) (k : Contract) : Bool :=
  (k.report == 0 || (19 ≤ k.report && k.report ≤ 60000)) && (k.wake == 0 || (13 ≤ k.wake && k.wake ≤ 60000)) &&
    k.wset.toNat < 256 && (!getBit k.wset 6 || s.feat 3) && k.grace ≤ 3600 && (k.grace ≤ 60 || s.feat 82)

/-- CTX_CONTRACT. -/
def cmdCtxContract : Cmd :=
  { checks := fun p pl s => { lenOk := pl.length == 9, longest := 8, held := true, perm := ctxPerm p pl s
                              busy := ctxBusy pl s [1, 2, 3, 4, 5]
                              inRange := ctxIn pl < 32 && contractOk s (contractOf (pl.drop 1))
                              flight := true, ctx := some (ctxIn pl) }
    run := fun p pl s => done (contractBytes (lastContract (ctxIn pl) s)) (deferCmd p 0x12 pl s) }

def execCtxContract (u : HostUnit) (s : State) : Host.Outcome State Fault Refusal := hostRow 0x12 cmdCtxContract u s

/-- A CTX_REGION payload in range: the count, rectangles that hold a point, reserved bits (R220). -/
def regionOk (pl : List Byte) : Bool :=
  let n := byteAt pl 1
  1 ≤ n && n ≤ 4 && pl.length == 2 + 10 * n && (List.range n).all (fun k =>
    let r := slice pl (2 + 10 * k) 10
    leAt r 0 2 < leAt r 4 2 && leAt r 2 2 < leAt r 6 2 && byteAt r 8 ≤ 1 && byteAt r 9 == 0)

/-- CTX_REGION. -/
def cmdCtxRegion : Cmd :=
  { checks := fun p pl s => { lenOk := [12, 22, 32, 42].contains pl.length, held := true, perm := ctxPerm p pl s
                              busy := ctxBusy pl s [1, 2, 3, 4, 5], inRange := ctxIn pl < 32 && regionOk pl
                              flight := true, ctx := some (ctxIn pl) }
    run := fun p pl s => done [] (deferCmd p 0x13 pl s) }

def execCtxRegion (u : HostUnit) (s : State) : Host.Outcome State Fault Refusal := hostRow 0x13 cmdCtxRegion u s

/-- CTX_STOCK, R290, R291. -/
def stockOk (s : State) (pl : List Byte) : Bool :=
  let n := byteAt pl 1
  let i := ctxIn pl
  i < 32 && n < 8 && stockRange n (slice pl 2 16) &&
    (!stockNeedsForce n (slice pl 2 16) (lastContract i s).wset || s.feat 3) && stockWorst n ≤ (s.fut i).budget

/-- CTX_STOCK. -/
def cmdCtxStock : Cmd :=
  { checks := fun p pl s => { lenOk := pl.length == 18, longest := 5, held := true
                              perm := ctxPerm p pl s && (32 ≤ ctxIn pl || (s.fut (ctxIn pl)).st == 0 ||
                                getBit (s.fut (ctxIn pl)).caps 0)
                              busy := ctxBusy pl s [1, 2, 4, 5], inRange := stockOk s pl
                              flight := true, ctx := some (ctxIn pl) }
    run := fun p pl s => done ([b8 (byteAt pl 1)] ++ le 4 (stockWorst (byteAt pl 1))) (deferCmd p 0x14 pl s) }

def execCtxStock (u : HostUnit) (s : State) : Host.Outcome State Fault Refusal := hostRow 0x14 cmdCtxStock u s

/-- The budget checks of a start, R228, R291. -/
def startOk (s : State) (i : Nat) : Bool :=
  (s.futBudget i + (s.fut i).budget ≤ 524288) && (match (s.fut i).prog with
    | .stock n _ => stockWorst n ≤ (s.fut i).budget
    | _ => true)

/-- CTX_START. -/
def cmdCtxStart : Cmd :=
  { checks := fun p pl s => { lenOk := pl.length == 2, held := true, perm := ctxPerm p pl s
                              busy := ctxBusy pl s (if byteAt pl 1 == 1 then [4] else [2, 4, 5])
                              inRange := ctxIn pl < 32 && byteAt pl 1 ≤ 1 && startOk s (ctxIn pl)
                              flight := true, ctx := some (ctxIn pl) }
    run := fun p pl s => done [] (deferCmd p 0x15 pl s) }

def execCtxStart (u : HostUnit) (s : State) : Host.Outcome State Fault Refusal := hostRow 0x15 cmdCtxStart u s

/-- CTX_STOP. -/
def cmdCtxStop : Cmd :=
  { checks := fun p pl s => { lenOk := pl.length == 1, held := true, perm := ctxPerm p pl s
                              busy := ctxBusy pl s [3, 5], inRange := ctxIn pl < 32
                              flight := true, ctx := some (ctxIn pl) }
    run := fun p pl s => done [] (deferCmd p 0x16 pl s) }

def execCtxStop (u : HostUnit) (s : State) : Host.Outcome State Fault Refusal := hostRow 0x16 cmdCtxStop u s

/-- CTX_STATE. -/
def cmdCtxState : Cmd :=
  { checks := fun _ pl _ => { safe := true, lenOk := pl.length == 1, longest := 24, inRange := ctxIn pl < 32 }
    run := fun _ pl s => live 0x17 pl s }

def execCtxState (u : HostUnit) (s : State) : Host.Outcome State Fault Refusal := hostRow 0x17 cmdCtxState u s

/-- CTX_MAIL_WRITE, R231. -/
def cmdCtxMailWrite : Cmd :=
  { checks := fun p pl s => { lenOk := 2 ≤ pl.length && pl.length ≤ 65, perm := ctxPerm p pl s
                              busy := ctxBusy pl s [3, 4] || (ctxIn pl < 32 && !(s.ctx (ctxIn pl)).mailIn.isEmpty)
                              inRange := ctxIn pl < 32 }
    run := fun _ pl s => done [] (s.modCtx (ctxIn pl) (fun c =>
      { c with mailIn := pl.drop 1, mailNew := true, mailVis := false })) }

def execCtxMailWrite (u : HostUnit) (s : State) : Host.Outcome State Fault Refusal := hostRow 0x18 cmdCtxMailWrite u s

/-- CTX_MAIL_READ, R231: notice 0x06 follows when the box held mail. -/
def cmdCtxMailRead : Cmd :=
  { checks := fun p pl s => { lenOk := pl.length == 1, longest := 65, perm := ctxPerm p pl s
                              busy := ctxBusy pl s [3, 4], inRange := ctxIn pl < 32 }
    run := fun _ pl s =>
      let m := (s.ctx (ctxIn pl)).mailOut
      let t := s.modCtx (ctxIn pl) (fun c => { c with mailOut := [] })
      done (b8 m.length :: m) (if m.isEmpty then t else notify (ctxIn pl) 0x06 [] t) }

def execCtxMailRead (u : HostUnit) (s : State) : Host.Outcome State Fault Refusal := hostRow 0x19 cmdCtxMailRead u s

/-! ### What the deferred context commands do at K, R24 -/

/-- CTX_CONTRACT at K: notice 0x05 (R229). -/
def applyContract (pl : List Byte) (s : State) : State :=
  if (s.ctx (ctxIn pl)).st == 0 then s
  else notify (ctxIn pl) 0x05 [] (s.modCtx (ctxIn pl) (fun c => { c with contract := contractOf (pl.drop 1) }))

/-- CTX_REGION at K. -/
def applyRegion (pl : List Byte) (s : State) : State :=
  if (s.ctx (ctxIn pl)).st == 0 then s
  else notify (ctxIn pl) 0x05 [] (s.modCtx (ctxIn pl) (fun c => { c with region := rectsOf (byteAt pl 1) (pl.drop 2) }))

/-- CTX_STOCK at K: the program is bound in place of what was (R281, R290). -/
def applyStock (pl : List Byte) (s : State) : State :=
  let i := ctxIn pl
  if (s.ctx i).st == 0 || (s.ctx i).st == 3 then s
  else (s.modCtx i (fun c => { c with st := 2, prog := .stock (byteAt pl 1) (slice pl 2 16), img := .none })).modRun i
    (fun r => { r with stock := .empty })

/-- CTX_START at K, R228. A start clears the fault record. -/
def applyStart (pl : List Byte) (s : State) : State :=
  let i := ctxIn pl
  if (s.ctx i).st == 0 || (s.ctx i).st == 3 then s
  else
    let s := s.modRun i (fun r => { r with cause := 0, detail := 0, faultPc := 0 })
    let s := if byteAt pl 1 == 0 then (ctxReset i s).modRun i (fun r => { r with initDue := true }) else s
    s.modCtx i (fun c => { c with st := 3 })

/-- CTX_STOP at K. -/
def applyStop (pl : List Byte) (s : State) : State :=
  let i := ctxIn pl
  if (s.ctx i).st == 3 then leaveRunning 4 i s
  else if (s.ctx i).st == 5 then s.modCtx i (fun c => { c with st := 4 })
  else s

/-! ### Image commands, R278-R297 -/

/-- The feature of the image commands: DYREL_BASE, and IMAGE_SIGNED once SIGREQ is set (R277, R295). -/
def imgFeats (s : State) : List Nat := if s.otp.sigreq then [32, 36] else [32]

/-- Load sessions that are open; a load from flash is none (R278). -/
def State.openSessions (s : State) : Nat := (s.eng.sessions.filter (·.flash.isNone)).length

/-- IMG_BEGIN: a fifth session fails with BUSY_CONTEXT, and an earlier one of the context is aborted (R286, R287). -/
def cmdImgBegin : Cmd :=
  { checks := fun p pl s => { feats := imgFeats s, lenOk := pl.length == 5, held := true, perm := ctxPerm p pl s
                              busy := ctxBusy pl s [1, 2, 3, 4, 5] || ((s.session (ctxIn pl)).isNone && 4 ≤ s.openSessions)
                              inRange := ctxIn pl < 32 && 100 ≤ leAt pl 1 4 && leAt pl 1 4 ≤ 270560 }
    run := fun _ pl s => done [] (openSession (ctxIn pl) (leAt pl 1 4) s) }

def execImgBegin (u : HostUnit) (s : State) : Host.Outcome State Fault Refusal := hostRow 0x20 cmdImgBegin u s

/-- Most data bytes of a chunk on a port, R286. -/
def chunkMax (p : Port) : Nat := if p == .tw then 240 else 4096

/-- Whether a chunk's offset is taken, R279. -/
def chunkTaken (e : Session) (off n : Nat) : Bool :=
  off == e.bytes.length || off + n ≤ e.bytes.length

/-- IMG_DATA. -/
def cmdImgData : Cmd :=
  { checks := fun p pl s =>
      let e := s.session (ctxIn pl)
      { feats := imgFeats s, lenOk := 6 ≤ pl.length && pl.length ≤ 5 + chunkMax p, longest := 4, held := true
        perm := ctxPerm p pl s
        busy := ctxBusy pl s [1, 2, 3, 4, 5]
        inRange := ctxIn pl < 32 && (match e with
          | some e => chunkTaken e (leAt pl 1 4) (pl.length - 5)
          | none => false)
        data := match e with
          | some e => le 4 e.bytes.length
          | none => if s.eng.aborted.contains (ctxIn pl) then [0x0D] else [] }
    run := fun _ pl s =>
      let i := ctxIn pl
      let had := ((s.session i).map (·.bytes.length)).getD 0
      if leAt pl 1 4 == had then
        let (r, s) := appendData i (pl.drop 5) s
        if r != 0 then failed 0x09 [b8 r] s else done (le 4 (had + (pl.length - 5))) s
      else done (le 4 had) s }

def execImgData (u : HostUnit) (s : State) : Host.Outcome State Fault Refusal := hostRow 0x21 cmdImgData u s

/-- IMG_END, R281: its checks end with IMG_VERIFY_DONE. -/
def cmdImgEnd : Cmd :=
  { checks := fun p pl s =>
      let e := s.session (ctxIn pl)
      { feats := imgFeats s, lenOk := pl.length == 1, longest := 5, held := true, perm := ctxPerm p pl s
        busy := ctxBusy pl s [1, 2, 4, 5] || (ctxIn pl < 32 && s.verifies (ctxIn pl))
        inRange := ctxIn pl < 32 && e.isSome
        flight := true, ctx := some (ctxIn pl)
        data := if e.isNone && s.eng.aborted.contains (ctxIn pl) then [0x0D] else [] }
    run := fun p pl s =>
      let (t, s) := takeTag p 0x22 (some (ctxIn pl)) s
      tagged t (modSession false (ctxIn pl) (fun e => { e with verifying := some t, short := e.bytes.length < e.length }) s) }

def execImgEnd (u : HostUnit) (s : State) : Host.Outcome State Fault Refusal := hostRow 0x22 cmdImgEnd u s

/-- IMG_VERIFY_DONE, R281. -/
def execImgVerifyDone (ctx : Nat) (s : State) : Host.Outcome State Fault Refusal :=
  .next (verifyDone ctx ((s.fut ctx).st == 3) s)

/-- IMG_FROM_FLASH, R283: a load beside the context's session; execute in place enables the window (R424). -/
def cmdImgFromFlash : Cmd :=
  { checks := fun p pl s =>
      { feats := imgFeats s ++ (if byteAt pl 5 == 1 then [35, 80] else [80]), lenOk := pl.length == 6, longest := 5, held := true
        perm := ctxPerm p pl s
        busy := ctxBusy pl s [1, 2, 4, 5] || s.mem.profile.isNone || (ctxIn pl < 32 && s.verifies (ctxIn pl))
        inRange := ctxIn pl < 32 && leAt pl 1 4 % 4 == 0 && byteAt pl 5 ≤ 1
        flight := true, ctx := some (ctxIn pl) }
    run := fun p pl s =>
      let i := ctxIn pl
      let xip := byteAt pl 5 == 1
      let (t, s) := takeTag p 0x23 (some i) s
      let s := otherRead (if xip then { s with mem.xipEn := true } else s)
      tagged t { s with eng.sessions := s.eng.sessions ++ [newSession i 0 (some (leAt pl 1 4, xip)) (some t)] } }

def execImgFromFlash (u : HostUnit) (s : State) : Host.Outcome State Fault Refusal := hostRow 0x23 cmdImgFromFlash u s

/-- IMG_LIST. -/
def cmdImgList : Cmd :=
  { checks := fun p pl s => { feats := imgFeats s, lenOk := pl.length == 2, longest := 16 * byteAt pl 1
                              inRange := 1 ≤ byteAt pl 1 && byteAt pl 1 ≤ (if p == .tw then 14 else 32) &&
                                byteAt pl 0 + byteAt pl 1 ≤ 32 }
    run := fun _ pl s => live 0x24 pl s }

def execImgList (u : HostUnit) (s : State) : Host.Outcome State Fault Refusal := hostRow 0x24 cmdImgList u s

/-- IMG_ABORT. -/
def cmdImgAbort : Cmd :=
  { checks := fun p pl s => { feats := imgFeats s, lenOk := pl.length == 1, held := true, perm := ctxPerm p pl s
                              inRange := ctxIn pl < 32 && (s.session (ctxIn pl)).isSome }
    run := fun _ pl s => done [] (abortSession (ctxIn pl) s) }

def execImgAbort (u : HostUnit) (s : State) : Host.Outcome State Fault Refusal := hostRow 0x25 cmdImgAbort u s

/-- IMG_KEY_READ. -/
def cmdImgKeyRead : Cmd :=
  { checks := fun _ pl s => { feats := imgFeats s, lenOk := pl.length == 0, longest := 33 }
    run := fun _ pl s => live 0x26 pl s }

def execImgKeyRead (u : HostUnit) (s : State) : Host.Outcome State Fault Refusal := hostRow 0x26 cmdImgKeyRead u s

/-- The write that an IMG_KEY_PROG payload asks for: a blank slot while no hash is valid, or SIGREQ alone for the hash that
stands (R296, R297); none where it is locked. -/
def keyWrite (pl : List Byte) (s : State) : Option (Nat × Bool) :=
  let sig := bit (byteAt pl 32) 0
  match s.imgKey with
  | some h => if sig && !s.otp.sigreq && h == pl.take 32 then some (2, true) else none
  | none => (blankSlot s.otp.imgA s.otp.imgB).map (fun n => (n, sig))

/-- IMG_KEY_PROG. -/
def cmdImgKeyProg : Cmd :=
  { checks := fun _ pl s => { feats := imgFeats s, lenOk := pl.length == 33, held := true
                              locked := s.aon.mode != .service || (pl.length == 33 && (keyWrite pl s).isNone)
                              busy := s.otp.write.isSome
                              inRange := leAt pl 0 32 != 0 && byteAt pl 32 ≤ 1
                              flight := true }
    run := fun p pl s =>
      let (t, s) := takeTag p 0x27 none s
      let w := (keyWrite pl s).getD (0, false)
      tagged t (startKeyWrite { ledger := false, slot := w.1, hash := pl.take 32, sigreq := w.2, tag := some t } s) }

def execImgKeyProg (u : HostUnit) (s : State) : Host.Outcome State Fault Refusal := hostRow 0x27 cmdImgKeyProg u s

/-! ### Event and journal commands -/

/-- A count of records in the range of a port. -/
def countOk (p : Port) (n : Nat) : Bool := 1 ≤ n && n ≤ (if p == .tw then 14 else 64)

/-- EVT_READ, R317. -/
def cmdEvtRead : Cmd :=
  { checks := fun p pl _ => { lenOk := pl.length == 2, longest := 8 + 16 * byteAt pl 0
                              inRange := countOk p (byteAt pl 0) && byteAt pl 1 ≤ 1 }
    run := fun p pl s =>
      let last := (s.port p).lastRead
      live 0x30 pl (if bit (byteAt pl 1) 0 then ackRecs p (fun n => last.contains n) s else s) }

def execEvtRead (u : HostUnit) (s : State) : Host.Outcome State Fault Refusal := hostRow 0x30 cmdEvtRead u s

/-- EVT_ACK, R318, R319. -/
def cmdEvtAck : Cmd :=
  { checks := fun p pl s => { lenOk := pl.length == 4, longest := 2
                              inRange := !seqBefore (s.port p).nextSeq (leAt pl 0 4) }
    run := fun p pl s => live 0x31 pl (ackRecs p (fun n => seqBefore n (leAt pl 0 4)) s) }

def execEvtAck (u : HostUnit) (s : State) : Host.Outcome State Fault Refusal := hostRow 0x31 cmdEvtAck u s

/-- EVT_MASK, R320. -/
def cmdEvtMask : Cmd :=
  { checks := fun _ pl _ => { lenOk := pl.length == 2, longest := 2, inRange := leAt pl 0 2 < 512 }
    run := fun p pl s =>
      done (le 2 (s.port p).evtMask.toNat) (s.modPort p (fun q => { q with evtMask := BitVec.ofNat 16 (leAt pl 0 2) })) }

def execEvtMask (u : HostUnit) (s : State) : Host.Outcome State Fault Refusal := hostRow 0x32 cmdEvtMask u s

/-- JOURNAL_READ, R321, R505. -/
def cmdJournalRead : Cmd :=
  { checks := fun p pl s => { lenOk := pl.length == 6, longest := 8 + 16 * byteAt pl 5
                              inRange := byteAt pl 0 ≤ 1 && countOk p (byteAt pl 5) &&
                                (byteAt pl 0 == 0 || !seqBefore s.jrn.next (leAt pl 1 4)) }
    run := fun _ pl s => live 0x33 pl s }

def execJournalRead (u : HostUnit) (s : State) : Host.Outcome State Fault Refusal := hostRow 0x33 cmdJournalRead u s

end Sys2Proof.Machine
end

