-- ==== Sys2Proof/Machine/HostDev.lean ====
section
/-! DEFINITION. The commands of the front end, the bridges, calibration, the thermal household, power, the memory port, the
clock and ledger, diagnostics and registers (R76-R79, R123-R126, R158-R159, R208-R213, R340-R341, R403-R424, R496-R502,
R528-R530, R549-R552).
Conventions that the spec leaves open: log 29 (DEDUCED). -/

namespace Sys2Proof.Machine
open Sys2Proof

/-! ### Front end, R123-R126 -/

/-- FE_PROFILE and FE_SET assign at once and take effect at a frame boundary; a leader proposes them instead (R24, R450). -/
def assignLater (p : Port) (code : Nat) (pl : List Byte) (stock : Nat) (rec_ : List Byte) (s : State) : State :=
  deferCmd p code pl (if s.leads then s else assignProfile (byteAt pl 0) stock rec_ s)

/-- The stock number of a set, 0xFF for a custom record. -/
def stockNow (s : State) (k : Nat) : Nat := ((s.fe.sets[k]?).map (·.stock)).getD 0xFF

/-- FE_PROFILE. -/
def cmdFeProfile : Cmd :=
  { checks := fun _ pl _ => { lenOk := pl.length == 2, longest := 1, held := true
                              inRange := byteAt pl 0 ≤ 2 && byteAt pl 1 ≤ 3 &&
                                Profile.fits (stockProfile (byteAt pl 1)) (byteAt pl 0)
                              flight := true }
    run := fun p pl s =>
      done [b8 (stockNow s (byteAt pl 0))] (assignLater p 0x40 pl (byteAt pl 1) (stockProfile (byteAt pl 1)) s) }

def execFeProfile (u : HostUnit) (s : State) : Host.Outcome State Fault Refusal := hostRow 0x40 cmdFeProfile u s

/-- FE_GET. -/
def cmdFeGet : Cmd :=
  { checks := fun _ pl _ => { lenOk := pl.length == 1, longest := 33, inRange := byteAt pl 0 ≤ 2 }
    run := fun _ pl s => live 0x41 pl s }

def execFeGet (u : HostUnit) (s : State) : Host.Outcome State Fault Refusal := hostRow 0x41 cmdFeGet u s

/-- FE_SET. -/
def cmdFeSet : Cmd :=
  { checks := fun _ pl _ => { lenOk := pl.length == 33, held := true
                              inRange := byteAt pl 0 ≤ 2 && Profile.inRange (pl.drop 1) && Profile.fits (pl.drop 1) (byteAt pl 0)
                              flight := true }
    run := fun p pl s => done [] (assignLater p 0x42 pl 0xFF (pl.drop 1) s) }

def execFeSet (u : HostUnit) (s : State) : Host.Outcome State Fault Refusal := hostRow 0x42 cmdFeSet u s

/-- IMAGE_READ. Without feature CENSUS the CENSUS plane is refused as a raw plane is without RAW_PLANES (R119; DEDUCED,
log 29). -/
def cmdImageRead : Cmd :=
  { checks := fun p pl s =>
      let n := leAt pl 3 2
      { lenOk := pl.length == 5, longest := 4 + n
        inRange := 1 ≤ n && n ≤ (if p == .tw then 240 else 4096) && leAt pl 1 2 + n ≤ planeSize (byteAt pl 0) &&
          (!rawPlane (byteAt pl 0) || s.feat 6) && (byteAt pl 0 != 11 || s.feat 7) }
    run := fun _ pl s => live 0x43 pl s }

def execImageRead (u : HostUnit) (s : State) : Host.Outcome State Fault Refusal := hostRow 0x43 cmdImageRead u s

/-- CENSUS_READ. -/
def cmdCensusRead : Cmd :=
  { checks := fun _ pl _ => { feats := [7], lenOk := pl.length == 0, longest := 144 }
    run := fun _ pl s => live 0x44 pl s }

def execCensusRead (u : HostUnit) (s : State) : Host.Outcome State Fault Refusal := hostRow 0x44 cmdCensusRead u s

/-! ### Bridges and clamps, R158, R159 -/

/-- FORCE_CFG: the setting is written at once and applies at the next K. -/
def cmdForceCfg : Cmd :=
  { checks := fun _ pl _ => { feats := [3], lenOk := pl.length == 5, longest := 4
                              inRange := byteAt pl 0 ≤ 3 && byteAt pl 1 < 16 && leAt pl 2 3 != 0 }
    run := fun _ pl s =>
      let n := byteAt pl 0
      let f := byteAt pl 1
      let b := s.bridge n
      done (b8 (bridgeFlags b) :: le 3 b.gaugeW) (s.modBridge n (fun b => { b with
        enW := bit f 0, exc5W := bit f 1, pgaW := bits f 2 2, gaugeW := leAt pl 2 3 })) }

def execForceCfg (u : HostUnit) (s : State) : Host.Outcome State Fault Refusal := hostRow 0x45 cmdForceCfg u s

/-- CLAMP_READ. -/
def cmdClampRead : Cmd :=
  { checks := fun _ pl _ => { lenOk := pl.length == 1, longest := 223, inRange := byteAt pl 0 ≤ 1 }
    run := fun _ pl s => live 0x46 pl s }

def execClampRead (u : HostUnit) (s : State) : Host.Outcome State Fault Refusal := hostRow 0x46 cmdClampRead u s

/-! ### Calibration, R208-R213 -/

/-- CAL_STATE. -/
def cmdCalState : Cmd :=
  { checks := fun _ pl _ => { lenOk := pl.length == 0, longest := 24 }
    run := fun _ pl s => live 0x50 pl s }

def execCalState (u : HostUnit) (s : State) : Host.Outcome State Fault Refusal := hostRow 0x50 cmdCalState u s

/-- The freeze mask last accepted. -/
def lastFreeze (s : State) : Nat :=
  (s.chan.deferred.filter (fun d => d.code == 0x51)).foldl (fun _ d => leAt d.payload 0 2) s.cal.freeze.toNat

/-- CAL_FREEZE. -/
def cmdCalFreeze : Cmd :=
  { checks := fun _ pl _ => { lenOk := pl.length == 2, longest := 2, inRange := leAt pl 0 2 < 256, flight := true }
    run := fun p pl s => done (le 2 (lastFreeze s)) (deferCmd p 0x51 pl s) }

def execCalFreeze (u : HostUnit) (s : State) : Host.Outcome State Fault Refusal := hostRow 0x51 cmdCalFreeze u s

/-- CAL_SEED. -/
def cmdCalSeed : Cmd :=
  { checks := fun _ pl s => { lenOk := pl.length == 240, inRange := seedOk s pl, flight := true }
    run := fun p pl s => done [] (deferCmd p 0x52 pl s) }

def execCalSeed (u : HostUnit) (s : State) : Host.Outcome State Fault Refusal := hostRow 0x52 cmdCalSeed u s

/-- CAL_SNAPSHOT. -/
def cmdCalSnapshot : Cmd :=
  { checks := fun _ pl _ => { lenOk := pl.length == 0, longest := 240 }
    run := fun _ pl s => live 0x53 pl { s with cal.save := some s.cal.d } }

def execCalSnapshot (u : HostUnit) (s : State) : Host.Outcome State Fault Refusal := hostRow 0x53 cmdCalSnapshot u s

/-- CAL_RESTORE. -/
def cmdCalRestore : Cmd :=
  { checks := fun _ pl s => { lenOk := pl.length == 0, inRange := s.cal.save.isSome, flight := true }
    run := fun p pl s => done [] (deferCmd p 0x54 pl s) }

def execCalRestore (u : HostUnit) (s : State) : Host.Outcome State Fault Refusal := hostRow 0x54 cmdCalRestore u s

/-! ### Thermal household, R496-R502 -/

/-- THERM_READ. -/
def cmdThermRead : Cmd :=
  { checks := fun _ pl _ => { lenOk := pl.length == 0, longest := 32 }
    run := fun _ pl s => live 0x60 pl s }

def execThermRead (u : HostUnit) (s : State) : Host.Outcome State Fault Refusal := hostRow 0x60 cmdThermRead u s

/-- The policy that a payload selects, none for a read. -/
def policyIn (pl : List Byte) : Option (Nat × List Byte) :=
  if byteAt pl 0 == 0xFE then none
  else if byteAt pl 0 == 0xFF then some (0xFF, pl.drop 1)
  else some (byteAt pl 0, stockPolicy (byteAt pl 0))

/-- THERM_POLICY. -/
def cmdThermPolicy : Cmd :=
  { checks := fun _ pl _ => { feats := [64], lenOk := pl.length == (if byteAt pl 0 == 0xFF then 65 else 1), longest := 65
                              inRange := byteAt pl 0 ≤ 2 || byteAt pl 0 == 0xFE ||
                                (byteAt pl 0 == 0xFF && policyOk (pl.drop 1)) }
    run := fun _ pl s =>
      let r := b8 s.thermal.policy :: s.thermal.record
      match policyIn pl with
      | none => done r s
      | some x => done r { s with thermal.policyNext := some x } }

def execThermPolicy (u : HostUnit) (s : State) : Host.Outcome State Fault Refusal := hostRow 0x61 cmdThermPolicy u s

/-- FAN_SET. -/
def cmdFanSet : Cmd :=
  { checks := fun _ pl _ => { feats := [64], lenOk := pl.length == 17, longest := 16
                              inRange := byteAt pl 0 ≤ 2 && fanOk (pl.drop 1) }
    run := fun _ pl s =>
      let f := s.fan (byteAt pl 0)
      done (f.recNext.getD f.record) (s.modFan (byteAt pl 0) (fun f => { f with recNext := some (pl.drop 1) })) }

def execFanSet (u : HostUnit) (s : State) : Host.Outcome State Fault Refusal := hostRow 0x62 cmdFanSet u s

/-- FAN_SKIP. -/
def cmdFanSkip : Cmd :=
  { checks := fun _ pl _ => { feats := [65], lenOk := 2 ≤ pl.length && pl.length == 2 + 4 * byteAt pl 1
                              inRange := byteAt pl 0 ≤ 2 && byteAt pl 1 ≤ 4 &&
                                (bandsOf pl).all (fun b => b.1 < b.2 && b.2 ≤ 20000) }
    run := fun _ pl s => done [] (s.modFan (byteAt pl 0) (fun f => { f with skips := bandsOf pl })) }

def execFanSkip (u : HostUnit) (s : State) : Host.Outcome State Fault Refusal := hostRow 0x63 cmdFanSkip u s

/-- FAN_STATE. -/
def cmdFanState : Cmd :=
  { checks := fun _ pl _ => { feats := [64], lenOk := pl.length == 1, longest := 16, inRange := byteAt pl 0 ≤ 2 }
    run := fun _ pl s => live 0x64 pl s }

def execFanState (u : HostUnit) (s : State) : Host.Outcome State Fault Refusal := hostRow 0x64 cmdFanState u s

/-- BL_SET: the duty moves with the policy runs (R480). -/
def cmdBlSet : Cmd :=
  { checks := fun _ pl _ => { feats := [66], lenOk := pl.length == 6, longest := 4, inRange := blSetOk pl }
    run := fun _ pl s =>
      let k := byteAt pl 0
      let s := s.modBl k (fun b => { b with hostDuty := leAt pl 1 2, freq := leAt pl 3 2, inverted := bit (byteAt pl 5) 0 })
      done (le 2 (s.bl k).duty ++ le 2 (s.bl k).limit) s }

def execBlSet (u : HostUnit) (s : State) : Host.Outcome State Fault Refusal := hostRow 0x65 cmdBlSet u s

/-- BL_CURVE. -/
def cmdBlCurve : Cmd :=
  { checks := fun _ pl _ => { feats := [66], lenOk := pl.length == 10, longest := 9, inRange := blCurveOk pl }
    run := fun _ pl s => done (s.bl (byteAt pl 0)).curve (s.modBl (byteAt pl 0) (fun b => { b with curve := pl.drop 1 })) }

def execBlCurve (u : HostUnit) (s : State) : Host.Outcome State Fault Refusal := hostRow 0x66 cmdBlCurve u s

/-! ### Power, R76-R79 -/

/-- POWER_CAP: in flight until the next Hearth decision (R24). -/
def cmdPowerCap : Cmd :=
  { checks := fun _ pl _ => { lenOk := pl.length == 2, longest := 2, inRange := 20 ≤ leAt pl 0 2 && leAt pl 0 2 ≤ 1023
                              flight := true }
    run := fun p pl s =>
      done (le 2 (s.power.capNext.getD s.power.cap)) (deferCmd p 0x70 pl { s with power.capNext := some (leAt pl 0 2) }) }

def execPowerCap (u : HostUnit) (s : State) : Host.Outcome State Fault Refusal := hostRow 0x70 cmdPowerCap u s

/-- POWER_STATE. -/
def cmdPowerState : Cmd :=
  { checks := fun _ pl _ => { safe := true, lenOk := pl.length == 0, longest := 16 }
    run := fun _ pl s => live 0x71 pl s }

def execPowerState (u : HostUnit) (s : State) : Host.Outcome State Fault Refusal := hostRow 0x71 cmdPowerState u s

/-- The mode and rate that a POWER_FORCE payload names, R78. -/
def forceIn (m r : Nat) : Option ModeSel :=
  match m with
  | 2 => if r == 0 then some { mode := .hibernate, rate := 0, hz := 0 } else none
  | 3 => if 4 ≤ r && r ≤ 10 then some { mode := .doze, rate := 1, hz := r } else none
  | 4 => if r == 0 then some { mode := .watch, rate := 2, hz := 0 } else none
  | 5 => if 3 ≤ r && r ≤ 6 then some { mode := .active, rate := r, hz := 0 } else none
  | 6 => if 2 ≤ r && r ≤ 6 then some { mode := .service, rate := r, hz := 0 } else none
  | _ => none

/-- A force or its release takes hold. A follower's mode is its leader's, but for HIBERNATE (R41, R453). A force of another mode
leaves SERVICE too, where R56 names its release and a reset only (DESIGN CHOICE, log 35). -/
def powerForce (f : Option ModeSel) (s : State) : State :=
  let was := s.md.forced
  let s := { s with md.forced := f }
  let follows := s.span.role == 3 || s.span.role == 4
  match f with
  | some m =>
    if s.aon.mode == .safe then s
    else if follows then (if m.mode == .hibernate then takeMode m 4 { s with md.chosen := m } else s)
    else choose 0 s
  | none => if was.isNone && s.aon.mode != .service then s else choose 0 s

/-- POWER_FORCE. -/
def cmdPowerForce : Cmd :=
  { checks := fun _ pl s => { lenOk := pl.length == 2
                              inRange := (byteAt pl 0 == 0xFF && byteAt pl 1 == 0) ||
                                ((forceIn (byteAt pl 0) (byteAt pl 1)).isSome &&
                                  !(5 ≤ byteAt pl 0 && byteAt pl 1 == 6 && s.inSpan)) }
    run := fun _ pl s => done [] (powerForce (forceIn (byteAt pl 0) (byteAt pl 1)) s) }

def execPowerForce (u : HostUnit) (s : State) : Host.Outcome State Fault Refusal := hostRow 0x72 cmdPowerForce u s

/-- POWER_GRANTS. -/
def cmdPowerGrants : Cmd :=
  { checks := fun _ pl s => { lenOk := pl.length == 0, longest := 1 + 6 * s.power.slots.length }
    run := fun _ pl s => live 0x73 pl s }

def execPowerGrants (u : HostUnit) (s : State) : Host.Outcome State Fault Refusal := hostRow 0x73 cmdPowerGrants u s

/-! ### The memory port, R403-R424 -/

/-- A length in the range of a port's flash reads and writes. -/
def flashLen (p : Port) (n : Nat) : Bool := 1 ≤ n && n ≤ (if p == .tw then 240 else 4096)

/-- MEM_PROFILE: not while an operation runs, a range is fenced or an image executes in place (R417). -/
def cmdMemProfile : Cmd :=
  { checks := fun _ pl s => { feats := [80], lenOk := pl.length == 128, longest := 2
                              busy := s.flashBusy || !s.mem.fences.isEmpty || s.xipBound
                              inRange := profileOk (s.feat 81) pl, flight := true }
    run := fun p pl s =>
      let (t, s) := takeTag p 0x90 none s
      tagged t (memProfile t pl s) }

def execMemProfile (u : HostUnit) (s : State) : Host.Outcome State Fault Refusal := hostRow 0x90 cmdMemProfile u s

/-- MEM_DISCOVER. -/
def cmdMemDiscover : Cmd :=
  { checks := fun _ pl s => { feats := [80], lenOk := pl.length == 1, longest := 132
                              busy := s.mem.profile.isSome || s.flashBusy, inRange := byteAt pl 0 ≤ 15 }
    run := fun _ pl s =>
      let (bs, s) := memDiscover (byteAt pl 0) s
      done bs s }

def execMemDiscover (u : HostUnit) (s : State) : Host.Outcome State Fault Refusal := hostRow 0x91 cmdMemDiscover u s

/-- MEM_READ. -/
def cmdMemRead : Cmd :=
  { checks := fun p pl s =>
      let n := leAt pl 4 2
      { feats := [80], lenOk := pl.length == 6, longest := n, busy := memReadBusy s
        inRange := flashLen p n && leAt pl 0 4 + n ≤ s.flashSize }
    run := fun _ pl s => live 0x92 pl s }

def execMemRead (u : HostUnit) (s : State) : Host.Outcome State Fault Refusal := hostRow 0x92 cmdMemRead u s

/-- MEM_PROGRAM. -/
def cmdMemProgram : Cmd :=
  { checks := fun p pl s =>
      let a := leAt pl 0 4
      let n := pl.length - 4
      { feats := [80], lenOk := 5 ≤ pl.length && flashLen p n, longest := 4
        busy := s.mem.profile.isNone || s.flashBusy || s.noSuspend || touchesXip s a n
        inRange := hostWritable s.flashProfile a n, flight := true }
    run := fun p pl s =>
      let (t, s) := takeTag p 0x93 none s
      tagged t (memProgram t (leAt pl 0 4) (pl.drop 4) s) }

def execMemProgram (u : HostUnit) (s : State) : Host.Outcome State Fault Refusal := hostRow 0x93 cmdMemProgram u s

/-- MEM_ERASE. -/
def cmdMemErase : Cmd :=
  { checks := fun _ pl s =>
      let a := leAt pl 0 4
      let n := eraseLen s.flashProfile (byteAt pl 4)
      { feats := [80], lenOk := pl.length == 5
        busy := s.mem.profile.isNone || s.flashBusy || s.noSuspend || touchesXip s a n
        inRange := byteAt pl 4 ≤ 1 && n != 0 && a % n == 0 && hostWritable s.flashProfile a n, flight := true }
    run := fun p pl s =>
      let (t, s) := takeTag p 0x94 none s
      tagged t (memErase t (leAt pl 0 4) (byteAt pl 4) s) }

def execMemErase (u : HostUnit) (s : State) : Host.Outcome State Fault Refusal := hostRow 0x94 cmdMemErase u s

/-- MEM_STATE. -/
def cmdMemState : Cmd :=
  { checks := fun _ pl _ => { feats := [80], lenOk := pl.length == 0, longest := 24 }
    run := fun _ pl s => live 0x95 pl s }

def execMemState (u : HostUnit) (s : State) : Host.Outcome State Fault Refusal := hostRow 0x95 cmdMemState u s

/-- MEM_XIP. -/
def cmdMemXip : Cmd :=
  { checks := fun _ pl s => { feats := [35], lenOk := pl.length == 1, longest := 1
                              busy := s.mem.profile.isNone || (byteAt pl 0 == 0 && s.xipBound), inRange := byteAt pl 0 ≤ 1 }
    run := fun _ pl s => done [b8 (flag s.mem.xipEn)] (memXip (byteAt pl 0 == 1) s) }

def execMemXip (u : HostUnit) (s : State) : Host.Outcome State Fault Refusal := hostRow 0x96 cmdMemXip u s

/-! ### Clock and ledger, R528-R530 -/

/-- CLOCK_SET, R509, R528. -/
def cmdClockSet : Cmd :=
  { checks := fun _ pl _ => { lenOk := pl.length == 12, longest := 16, held := true
                              inRange := 946684800 ≤ leAt pl 0 8 && leAt pl 8 4 ≤ 1023999 }
    run := fun p pl s =>
      let old := le 8 s.wc.secs ++ le 4 s.wc.ticks
      let (q, s) := setClock (portNum p) (leAt pl 0 8) (leAt pl 8 4) s
      done (old ++ le 4 (q.getD 0xFFFFFFFF)) s }

def execClockSet (u : HostUnit) (s : State) : Host.Outcome State Fault Refusal := hostRow 0xA0 cmdClockSet u s

/-- CLOCK_READ. -/
def cmdClockRead : Cmd :=
  { checks := fun _ pl _ => { lenOk := pl.length == 0, longest := 24 }
    run := fun _ pl s => live 0xA1 pl s }

def execClockRead (u : HostUnit) (s : State) : Host.Outcome State Fault Refusal := hostRow 0xA1 cmdClockRead u s

/-- LEDGER_CONFIG: the locks of R529. -/
def ledLocked (pl : List Byte) (s : State) : Bool :=
  match byteAt pl 0 with
  | 0 => s.led.lock
  | 1 => s.aon.mode != .service || s.ledgerKey.isSome || (blankSlot s.otp.ledA s.otp.ledB).isNone
  | _ => false

/-- The ranges of R510 and R529. -/
def ledCfgOk (pl : List Byte) (s : State) : Bool :=
  let l := leAt pl 1 4
  let fl := byteAt pl 9
  match byteAt pl 0 with
  | 0 => 3600 ≤ l && l ≤ 2678400 && leAt pl 5 4 < l && fl ≤ 3 && (!bit fl 0 || (s.feat 84 && s.ledgerKey.isSome)) &&
      5 ≤ byteAt pl 10 && byteAt pl 10 ≤ 240
  | 1 => leAt pl 1 32 != 0
  | _ => false

/-- A ledger key write starts; each op writes a CONFIG record. -/
def ledKeyWrite (pl : List Byte) (s : State) : State :=
  let n := (blankSlot s.otp.ledA s.otp.ledB).getD 0
  ledRec 0x07 0 0 s.led.nextSeq
    (startKeyWrite { ledger := true, slot := n, hash := slice pl 1 32, sigreq := false, tag := none } s)

/-- LEDGER_CONFIG. -/
def cmdLedgerConfig : Cmd :=
  { checks := fun _ pl s => { feats := [83], lenOk := pl.length == (if byteAt pl 0 == 1 then 33 else 11), longest := 4
                              locked := ledLocked pl s, busy := byteAt pl 0 == 1 && s.otp.write.isSome
                              inRange := ledCfgOk pl s }
    run := fun _ pl s =>
      let s := if byteAt pl 0 == 1 then ledKeyWrite pl s
        else ledgerConfig (leAt pl 1 4) (leAt pl 5 4) (byteAt pl 9) (byteAt pl 10) s
      done (le 4 s.led.nextSeq) s }

def execLedgerConfig (u : HostUnit) (s : State) : Host.Outcome State Fault Refusal := hostRow 0xA2 cmdLedgerConfig u s

/-- LEDGER_STATE. -/
def cmdLedgerState : Cmd :=
  { checks := fun _ pl _ => { feats := [83], lenOk := pl.length == 0, longest := 40 }
    run := fun _ pl s => live 0xA3 pl s }

def execLedgerState (u : HostUnit) (s : State) : Host.Outcome State Fault Refusal := hostRow 0xA3 cmdLedgerState u s

/-- LEDGER_READ. -/
def cmdLedgerRead : Cmd :=
  { checks := fun p pl s =>
      let q := leAt pl 0 4
      let n := byteAt pl 4
      { feats := [83], lenOk := pl.length == 5, longest := 4 + 128 * n
        busy := q != 0xFFFFFFFF && !(ledFlash s q n).isEmpty && memReadBusy s
        inRange := 1 ≤ n && n ≤ (if p == .tw then 1 else 32) &&
          (q == 0xFFFFFFFF || (!seqBefore q s.ledOldest && seqBefore q s.led.nextSeq)) }
    run := fun _ pl s => live 0xA4 pl s }

def execLedgerRead (u : HostUnit) (s : State) : Host.Outcome State Fault Refusal := hostRow 0xA4 cmdLedgerRead u s

/-! ### Diagnostics, R549-R552 -/

/-- A diagnostics command waits its turn. -/
def startDiag (p : Port) (code : Nat) (pl : List Byte) (s : State) : Reply × State :=
  let (t, s) := takeTag p code none s
  tagged t { s with rst.diag := s.rst.diag ++ [(code, pl, t)] }

/-- DIAG_SELFTEST. -/
def cmdDiagSelftest : Cmd :=
  { checks := fun _ pl s => { lenOk := pl.length == 1, longest := 8, locked := s.aon.mode != .service
                              inRange := byteAt pl 0 < 64, flight := true }
    run := fun p pl s => startDiag p 0xB0 pl s }

def execDiagSelftest (u : HostUnit) (s : State) : Host.Outcome State Fault Refusal := hostRow 0xB0 cmdDiagSelftest u s

/-- Pins of a group, R551. -/
def groupPins : Nat → Nat
  | 0 => 64 | 1 => 40 | 2 => 40 | 3 => 4 | 4 => 24
  | _ => 5

/-- DIAG_PINS. -/
def cmdDiagPins : Cmd :=
  { checks := fun _ pl s => { lenOk := pl.length == 1, longest := groupPins (byteAt pl 0)
                              locked := s.aon.mode != .service, inRange := byteAt pl 0 ≤ 5, flight := true }
    run := fun p pl s => startDiag p 0xB1 pl s }

def execDiagPins (u : HostUnit) (s : State) : Host.Outcome State Fault Refusal := hostRow 0xB1 cmdDiagPins u s

/-- DIAG_LOOPBACK. -/
def cmdDiagLoopback : Cmd :=
  { checks := fun _ pl s => { lenOk := pl.length == 3, longest := 8, locked := s.aon.mode != .service
                              busy := (byteAt pl 0 ≤ 1 && s.inSpan) || (byteAt pl 0 == 2 && s.mem.profile.isNone)
                              inRange := byteAt pl 0 ≤ 2 && leAt pl 1 2 != 0, flight := true }
    run := fun p pl s => startDiag p 0xB2 pl s }

def execDiagLoopback (u : HostUnit) (s : State) : Host.Outcome State Fault Refusal := hostRow 0xB2 cmdDiagLoopback u s

/-- The completion of a diagnostics command from what its tests found: the layout's length, and the tests that were asked
for (R550-R552). -/
def diagComp (code : Nat) (pl result : List Byte) : List Byte :=
  match code with
  | 0xB0 => b8 (byteAt pl 0) :: fit 7 0 (result.drop 1)
  | 0xB1 => fit (groupPins (byteAt pl 0)) 0 result
  | _ => fit 8 0 result

/-- DIAG_COMPLETE, R549: the command under way ends, by TIMEOUT only a self test. -/
def execDiagComplete (timeout : Bool) (result : List Byte) (s : State) : Host.Outcome State Fault Refusal :=
  .next (match s.rst.diag with
    | [] => s
    | (code, pl, t) :: rest =>
      let s := { s with rst.diag := rest }
      if timeout && code == 0xB0 then completeTag t 0x0E [] s else completeTag t 0 (diagComp code pl result) s)

/-! ### Registers, R340, R341 -/

/-- REG_READ. -/
def cmdRegRead : Cmd :=
  { checks := fun p pl _ =>
      let n := byteAt pl 2
      { early := true, lenOk := pl.length == 3, longest := 4 * n
        inRange := leAt pl 0 2 % 4 == 0 && 1 ≤ n && n ≤ (if p == .tw then 60 else 255) }
    run := fun _ pl s => live 0xE0 pl s }

def execRegRead (u : HostUnit) (s : State) : Host.Outcome State Fault Refusal := hostRow 0xE0 cmdRegRead u s

/-- Register writes that R24 binds to the next frame boundary. -/
def feWrite (a : Nat) : Bool := a == 0x302C || a == 0x3030

/-- REG_WRITE. -/
def cmdRegWrite : Cmd :=
  { checks := fun _ pl s =>
      let a := leAt pl 0 2
      { early := true, lenOk := pl.length == 10, longest := 4, inRange := regWriteOk s a (leAt pl 6 4), flight := feWrite a }
    run := fun p pl s =>
      let a := leAt pl 0 2
      let s := regWrite p a (leAt pl 2 4) (leAt pl 6 4) s
      done (le 4 ((regRead s a).getD 0)) s }

def execRegWrite (u : HostUnit) (s : State) : Host.Outcome State Fault Refusal := hostRow 0xE1 cmdRegWrite u s

/-- A unit whose payload names a register of the row. -/
def atReg (a : Nat) (u : HostUnit) : HostUnit := { u with payload := le 2 a ++ u.payload.drop 2 }

/-- CLK_TIMELO_READ. -/
def execClkTimeloRead (u : HostUnit) (s : State) : Host.Outcome State Fault Refusal := hostRow 0xE0 cmdRegRead (atReg 0x2010 u) s
/-- POWER_PIN_READ. -/
def execPowerPinRead (u : HostUnit) (s : State) : Host.Outcome State Fault Refusal := hostRow 0xE0 cmdRegRead (atReg 0x1014 u) s
/-- TW_STRETCH_READ. -/
def execTwStretchRead (u : HostUnit) (s : State) : Host.Outcome State Fault Refusal := hostRow 0xE0 cmdRegRead (atReg 0x7010 u) s
/-- WC_SECLO_READ. -/
def execWcSecloRead (u : HostUnit) (s : State) : Host.Outcome State Fault Refusal := hostRow 0xE0 cmdRegRead (atReg 0xA020 u) s
/-- FRC_CFG_WRITE: of the bridge that the address names. -/
def execFrcCfgWrite (u : HostUnit) (s : State) : Host.Outcome State Fault Refusal :=
  hostRow 0xE1 cmdRegWrite (atReg (0x4000 + 32 * (leAt u.payload 0 2 / 32 % 4)) u) s
/-- CAL_TLIM_WRITE. -/
def execCalTlimWrite (u : HostUnit) (s : State) : Host.Outcome State Fault Refusal := hostRow 0xE1 cmdRegWrite (atReg 0x5008 u) s
/-- CAL_FGEOM_WRITE: the first register, or the second where the address names it. -/
def execCalFgeomWrite (u : HostUnit) (s : State) : Host.Outcome State Fault Refusal :=
  hostRow 0xE1 cmdRegWrite (atReg (if leAt u.payload 0 2 == 0x5028 then 0x5028 else 0x5024) u) s
/-- HNOFF_CLEAR. -/
def execHnoffClear (u : HostUnit) (s : State) : Host.Outcome State Fault Refusal := hostRow 0xE1 cmdRegWrite (atReg 0x7000 u) s
/-- HS_CFG_WRITE. -/
def execHsCfgWrite (u : HostUnit) (s : State) : Host.Outcome State Fault Refusal := hostRow 0xE1 cmdRegWrite (atReg 0x7400 u) s
/-- SPILL_FORCE_WRITE. -/
def execSpillForceWrite (u : HostUnit) (s : State) : Host.Outcome State Fault Refusal := hostRow 0xE1 cmdRegWrite (atReg 0xA00C u) s
/-- THERM_EN_WRITE. -/
def execThermEnWrite (u : HostUnit) (s : State) : Host.Outcome State Fault Refusal := hostRow 0xE1 cmdRegWrite (atReg 0x4080 u) s
/-- LAPSE_CLEAR. -/
def execLapseClear (u : HostUnit) (s : State) : Host.Outcome State Fault Refusal := hostRow 0xE1 cmdRegWrite (atReg 0x001C u) s

/-! ### Deferred commands take effect, R24, R306 -/

/-- A deferred command at its instant. Those bound to a frame boundary or to a Hearth decision have their own. -/
def applyDeferred (d : Deferred) (s : State) : State :=
  match d.code with
  | 0x10 => openCtx d.port (BitVec.ofNat 16 (leAt d.payload 1 2)) d.payload s
  | 0x11 => closeCtx (byteAt d.payload 0) s
  | 0x12 => applyContract d.payload s
  | 0x13 => applyRegion d.payload s
  | 0x14 => applyStock d.payload s
  | 0x15 => applyStart d.payload s
  | 0x16 => applyStop d.payload s
  | 0x22 => match s.bindOf (byteAt d.payload 0) with
    | some w => bindOne w s
    | none => s
  | 0x51 => { s with cal.freeze := BitVec.ofNat 16 (leAt d.payload 0 2) }
  | 0x52 => applySeed d.payload s
  | 0x54 => applyRestore s
  | _ => s

/-- Codes that take effect at K, R24. -/
def atK (code : Nat) : Bool := (0x10 ≤ code && code ≤ 0x16) || code == 0x22 || code == 0x51 || code == 0x52 || code == 0x54

end Sys2Proof.Machine
end

