-- ==== Sys2Proof/Machine/Span.lean ====
section
/-! DEFINITION. What a span commits: changes of the configuration on leader and followers, adoption, admission, and the
packets that carry them (R442, R443, R449-R456).
Conventions that the spec leaves open: log 13 (DESIGN CHOICE), log 18 (DEDUCED). -/

namespace Sys2Proof.Machine
open Sys2Proof

/-! ### Changes -/

/-- An image that waits for its binding, whole. -/
def waitBytes (w : BindWait) : List Byte := w.img.header ++ w.code ++ w.img.roomInit ++ w.img.trailer

/-- A waiting binding as a change: context, execute in place, offset in flash, the image. -/
def bindChange (s : State) (w : BindWait) : Deferred :=
  { port := (s.ctx w.ctx).owner, code := 0x22,
    payload := [b8 w.ctx, b8 (flag w.img.xip)] ++ le 4 (if w.img.xip then w.img.base - 64 else 0) ++ waitBytes w }

/-- The codes whose effect belongs to the span configuration. -/
def spanCode (code : Nat) : Bool := (0x10 ≤ code && code ≤ 0x16) || code == 0x40 || code == 0x42 || code == 0x80

/-- What a leader has accepted for the configuration and not yet committed (R450), in its order; a binding that waits for
space holds back what follows it for its context. -/
def changesFrom (s : State) : List Deferred → List Nat → List Deferred
  | [], _ => []
  | d :: ds, held =>
    let i := byteAt d.payload 0
    if d.isOf i && held.contains i then changesFrom s ds held
    else if d.code == 0x22 then
      if s.bindWaits i then changesFrom s ds (i :: held)
      else match s.bindOf i with
        | some w => bindChange s w :: changesFrom s ds held
        | none => changesFrom s ds held
    else if spanCode d.code then d :: changesFrom s ds held
    else changesFrom s ds held

/-- The changes that a leader proposes. -/
def leaderChanges (s : State) : List Deferred := changesFrom s s.chan.deferred []

/-- A committed change waits no longer. -/
def dropChange (l : List Deferred) (d : Deferred) : List Deferred :=
  if d.code == 0x22 then l.filter (fun x => !(x.code == 0x22 && byteAt x.payload 0 == byteAt d.payload 0)) else l.erase d

/-- A binding on a follower: its own checks, and the image that the leader sent in its own code store, executed in place or
not on the leader (R280, R281, R285). Its store is packed at once where only that makes room (DESIGN CHOICE, log 13). -/
def installImage (pl : List Byte) (s : State) : State :=
  let i := byteAt pl 0
  let b := pl.drop 6
  let caps := (s.ctx i).caps
  let code := codeOf b
  match placeNow (kibOf code.length) s with
  | none => s
  | some (base, t) =>
    if (s.ctx i).st == 0 || (s.ctx i).st == 3 || headerResult s caps none (b.take 64) != 0 ||
        finalResult s caps (imgLength (b.take 64)) b != 0 then s
    else
      let t := { t with eng.code := Memory.writeN 0 t.eng.code base code }
      t.modCtx i (fun c => { c with st := 2, prog := .image, img := imageOf t b base false })

/-- One change takes effect. -/
def applyChange (leader : Bool) (s : State) (d : Deferred) : State :=
  match d.code with
  | 0x22 =>
    if leader then (match s.eng.binds.find? (fun w => w.ctx == byteAt d.payload 0) with
      | some w => bindOne w s
      | none => s)
    else installImage d.payload s
  | 0x40 => assignProfile (byteAt d.payload 0) (byteAt d.payload 1) (stockProfile (byteAt d.payload 1)) s
  | 0x42 => assignProfile (byteAt d.payload 0) 0xFF (d.payload.drop 1) s
  | 0x80 => { s with span.config := d.payload.take 48 }
  | _ => applyDeferred d s

/-- Changes in their order. -/
def applyChanges (leader : Bool) (cs : List Deferred) (s : State) : State := cs.foldl (applyChange leader) s

/-- Changes as CONFIG packets carry them: code, port, length, payload; a SPAN_CONFIG without its tag. -/
def changeBytes (cs : List Deferred) : List Byte :=
  cs.flatMap (fun d =>
    let pl := if d.code == 0x80 then d.payload.take 48 else d.payload
    [b8 d.code, b8 (portNum d.port)] ++ le 4 pl.length ++ pl)

/-- The changes that bytes spell. -/
def changesOf : Nat → List Byte → List Deferred
  | 0, _ => []
  | k + 1, b =>
    if b.length < 6 then []
    else
      let n := leAt b 2 4
      { port := if byteAt b 1 == 0 then .tw else .hs, code := byteAt b 0, payload := slice b 6 n } ::
        changesOf k (b.drop (6 + n))

/-- The hash of the configuration once the changes have taken effect. -/
def hashAfter (cs : List Deferred) (s : State) : List Byte := spanHash (applyChanges (s.span.role == 2) cs s)

/-! ### Packets of the configuration -/

/-- CONFIG packets of bytes from an offset, at most 1 015 data bytes each: kind, offset, total, data (R454). -/
def sendConfig (kind dst : Nat) (bs : List Byte) (off n : Nat) (s : State) : State :=
  (List.range (ceilDiv n 1015)).foldl (fun s k =>
    let a := off + 1015 * k
    let m := min 1015 (off + n - a)
    sendPacket 0x07 dst s.frame.n ([b8 kind] ++ le 4 a ++ le 4 bs.length ++ slice bs a m) s) s

/-- A PULL packet. -/
def sendPull (s : State) : State :=
  sendPacket 0x08 s.span.leader s.frame.n [] { s with spanx.recv := [], spanx.recvTotal := 0, span.pulled := 0 }

/-! ### HELD, and members taken in -/

/-- The tile turns dark: what it tracks is cleared, as where frames stop (R456). -/
def darken (s : State) : State := clearTracked s

/-- A member becomes HELD and pulls (R456). -/
def becomeHeld (s : State) : State :=
  sendPull (darken { s with span.role := 4, span.joined := false, spanx.commit := none, spanx.changes := [] })

/-- The leader takes members in (R443, R456): JOINED, and the set in force follows (R452). -/
def joinMembers (mask : BitVec 16) (s : State) : State :=
  let ps := filterIdx 16 (fun p => getBit mask p && !getBit s.span.members p)
  let s := { s with span.members := s.span.members ||| mask, span.heldMask := s.span.heldMask &&& ~~~mask,
                    spanx.adopted := s.spanx.adopted &&& ~~~mask }
  let s := ps.foldl (fun s p => spanRec 0x02 p 0 (modMember p (fun m => { m with st := 2 }) s)) s
  { s with span.inForce := leaderForce s }

/-- A member is no longer joined as the leader sees it. -/
def dropMember (p st : Nat) (s : State) : State :=
  let s := { s with span.members := setBit s.span.members p false, spanx.adopted := setBit s.spanx.adopted p false,
                    spanx.stitches := s.spanx.stitches.filter (fun x => x.1 != p) }
  let s := modMember p (fun m => { m with st := st }) s
  { s with span.inForce := leaderForce s }

/-! ### The committed K -/

/-- Whether the colour of some tile differs between two configuration records. -/
def coloursDiffer (a b : List Byte) : Bool := (List.range 16).any (fun p => cfgColour a p != cfgColour b p)

/-- The leader's changes take effect; a SPAN_CONFIG completes with the frame of effect and the new hash (R464). -/
def leaderCommit (cs : List Deferred) (s : State) : State :=
  let old := s.span.config
  let s := applyChanges true cs s
  let s := { s with chan.deferred := cs.foldl dropChange s.chan.deferred, spanx.changes := []
                    spanx.recolour := s.spanx.recolour || coloursDiffer old s.span.config }
  let comp := le 4 s.frameOr ++ spanHash s
  (cs.filter (fun d => d.code == 0x80)).foldl (fun s d => completeTag (byteAt d.payload 48) 0 comp s) s

/-- A committed proposal takes effect. A follower that fails to reach the new hash becomes HELD (R456). -/
def takeCommit (p : Proposal) (s : State) : State :=
  let cs := s.spanx.changes
  match p.kind with
  | 2 =>
    if s.span.role == 2 then leaderCommit cs s
    else
      let t := { applyChanges false cs s with spanx.changes := [] }
      if spanHash t == p.subject then t else sendReady 4 0 (becomeHeld t)
  | 3 => if s.span.role == 2 then joinMembers (BitVec.ofNat 16 (leAt p.subject 0 2)) s else s
  | _ => s

/-- A configuration that was verified is adopted, and admission asked for (R456). -/
def adoptAtK (s : State) : State :=
  match s.spanx.adopt with
  | none => s
  | some b =>
    if s.span.role == 3 || s.span.role == 4 then
      let s := adoptBlob b { s with spanx.adopt := none }
      let s := completeOpt s.spanx.pullTag 0 [0, 0] s
      sendReady 0 0 { s with span.role := 3, spanx.pullTag := none }
    else { s with spanx.adopt := none }

/-- Whether frame `e` is not after frame `n`. -/
def notAfter (e n : Nat) : Bool := (n + 2 ^ 32 - e % 2 ^ 32) % 2 ^ 32 < 2 ^ 31

/-- What the span binds to K. While its frames do not run a leader commits at once and says so (R323). -/
def commitAtK (s : State) : State :=
  let s := adoptAtK s
  match s.spanx.commit with
  | some p =>
    if s.framesRun && !notAfter p.effect s.frame.n then s else takeCommit p { s with spanx.commit := none }
  | none =>
    if s.span.role == 2 && !s.framesRun then
      let cs := leaderChanges s
      if cs.isEmpty then s
      else
        let bs := changeBytes cs
        leaderCommit cs (sendConfig 2 0xFF bs 0 bs.length s)
    else s

end Sys2Proof.Machine
end

