-- ==== Sys2Proof/Machine/Frames.lean ====
section
/-! DEFINITION. The frame: its boundary, its slots, the computation start, the passes, the epoch end, the DOZE sweep and the
decisions of the Hearth (R13-R30, R66, R67, R102, R120, R147, R188, R323).
Conventions that the spec leaves open: log 14, log 32 (DESIGN CHOICE), log 15, log 16 (DEDUCED). -/

namespace Sys2Proof.Machine
open Sys2Proof

/-! ### Instants -/

/-- The timebase reaches an instant that lies ahead; one that lies behind is where it already is. -/
def tickTo (t : Nat) (s : State) : State :=
  let n := ticksSince s.clk.tb t
  if n < 2 ^ 47 then { advance n { s with clk.slew := 0 } with clk.slew := s.clk.slew } else s

/-- A frame period in thirds of a tick. -/
def thirds (hz : Nat) : Nat := 3072000 / max 1 hz

/-- A follower's beacon for its next boundary. -/
def State.nextBeacon (s : State) : Option (List Byte) :=
  if s.span.role == 3 || s.span.role == 4 then s.spanx.beacon else none

/-- B(N+1) in ticks, with what is left over in thirds of a tick (R13); a follower's lies where its beacon places it
(R438), the first one now. -/
def nextBoundary (s : State) : Nat × Nat :=
  if s.nextBeacon.isSome then (s.spanx.beaconAt, 0)
  else if !s.framesRun then (s.clk.tb, 0)
  else
    let t := s.frame.bFrac + thirds s.hz
    ((s.frame.bTb + t / 3) % 2 ^ 48, t % 3)

/-- The timebase reaches the boundary; one that comes late places the frame where it comes. -/
def toBoundary (s : State) : State :=
  let (t, f) := nextBoundary s
  let u := tickTo t s
  if u.clk.tb == t then { u with frame.bTb := t, frame.bFrac := f } else { u with frame.bTb := u.clk.tb, frame.bFrac := 0 }

/-- K(N), 0.48 P after the boundary (R14). -/
def computeAt (s : State) : Nat := (s.frame.bTb + (s.frame.bFrac + thirds s.hz * 48 / 100) / 3) % 2 ^ 48

/-! ### The boundary -/

/-- The mode change that waits takes effect (R25); 240 Hz is left, or not taken, when the budgets forbid it (R233). -/
def boundaryMode (s : State) : State :=
  let s := if s.aon.rate == 6 && 114688 < s.capSum then choose 0 s else s
  match s.md.pending with
  | some (m, why) =>
    let c := rateCapped s m
    if s.md.hibEntry then s
    else if c == m then enterMode m why s
    else
      let s := { s with md.chosen := c, md.pending := none, eng.rateCap := true }
      if s.sel == c then s else enterMode c why s
  | none => s

/-- The number of the frame that begins (R30, R438). -/
def frameNumber (s : State) : Nat :=
  match s.nextBeacon with
  | some b => leAt b 0 4
  | none => if s.frame.started then succ32 s.frame.n else 0

/-- A frame begins: its number, the pins that clamp in it (R137), and resumed settle after a pause of more than 60 s (R201). -/
def beginFrame (s : State) : State :=
  let n := frameNumber s
  let long : Bool := match s.frame.stoppedAt with
    | some t => 60 * 1024000 < ticksSince t s.clk.tb
    | none => false
  let s := { s with frame.n := n, frame.started := true, frame.running := true, frame.sensed := true, frame.stoppedAt := none,
                    clamp.inFrame := 0 }
  let s := setDomains true s.power.domDrive s
  if long then resumeSettle s else s

/-- SCAN follows the amplitude that the profile asks for; a fall-back waits for its time (R64, R68, R69). -/
def scanNeed (s : State) : State :=
  let need := scanCost (profileTotal s) s.hz
  let have_ := s.grantCost 2 0x50
  if need ≤ have_ then
    let s := if s.fe.scanFb then dropReReq 2 0x50 { s with fe.scanAmp := none, fe.scanFb := false } else s
    if need == have_ && (s.reqOf 2 0x50).isNone then s else follow 2 0x50 need s
  else if s.power.rereq.any (fun r => r.cls == 2 && r.who == 0x50) then s
  else match s.reqOf 2 0x50 with
    | some q => if q.cost == need - (if q.incr then have_ else 0) then s else follow 2 0x50 need s
    | none => follow 2 0x50 need s

/-- The front-end settings written since the last boundary are in effect, and the commands that brought them are done
(R24, R306); a leader's profiles wait for their commit. -/
def settingsDone (s : State) : State :=
  { s with fc.fixOn := s.fc.fix, fc.fixGOn := s.fc.fixG, fc.censelOn := s.fc.censel,
           chan.deferred := s.chan.deferred.filter (fun d =>
             d.code != 0xE1 && (s.span.role == 2 || !(d.code == 0x40 || d.code == 0x42))) }

/-- The tuning words of the present tones: a phase tap keeps its delay when they change with a move or a profile. -/
def retune (turn : Bool) (s : State) : State :=
  let p := s.prof
  let a := ftw p.cyc s.stepLen
  let b := if s.dual then ftw p.bcyc s.stepLen else s.fe.wordB
  let s := if turn then convertTaps s.fe.wordA a s.fe.wordB b s else s
  { s with fe.wordA := a, fe.wordB := b }

/-- What a move or a new profile restarts, and whether its frame is a hop frame; before the first computed frame there is
nothing to restart (R120, R204). -/
def moveTone (s : State) : Bool × State :=
  let t := { retune true s with cal.xferB := 0 < s.fe.appB }
  if s.cal.endDone.isNone then (false, { t with cal.stepS := t.stepLen }) else (true, hopRestart t)

/-- New settings of the set in use, else a move of the tone; the flag says that the frame is a hop frame (R114, R120). -/
def newTone (s : State) : Bool × State :=
  let k := setOf s.aon.rate
  let rec_ := ((s.fe.sets[k]?).map (·.record)).getD []
  let fresh := k != s.fe.inUse || rec_ != s.fe.applied.getD k []
  if fresh then
    moveTone { s with fe.inUse := k, fe.applied := s.fe.applied.set k rec_,
                      fe.bins := s.fe.bins.set k (Profile.toneIdx rec_), census.urgent := 0, census.move := none,
                      fe.hops := s.fe.hops - flag s.census.move.isSome }
  else
    let goal : Option Nat := match s.nextBeacon with
      | some b => if byteAt b 28 == s.bin then none else some (byteAt b 28)
      | none => if s.span.role == 2 && s.spanx.beaconSent then s.spanx.binSaid else s.census.move
    match goal with
    | none => (false, retune false s)
    | some i =>
      if i == s.bin then (false, { retune false s with census.move := none })
      else
        moveTone { s with fe.bins := s.fe.bins.set k i, fe.hopped := true,
                          fe.hops := s.fe.hops + flag s.census.move.isNone, census.move := none, census.urgent := 0 }

/-- A change of colour that the beacon announces (R440, R120). -/
def newColour (s : State) : State :=
  match (if s.span.joined then s.spanx.beacon else none) with
  | some b =>
    if byteAt b 29 == s.span.cepoch then s
    else { s with span.cepoch := byteAt b 29, span.colour := cfgColour s.span.config s.pins.gpos, census.urgent := 0 }
  | none => s

/-- The VHV setpoint in 0.1 V (R102). -/
def vhvSetpoint (total : Nat) : Nat := max 80 (5 * total + 40)

/-- The highest total that the SCAN grant covers, in half volts. -/
def scanCovers (s : State) : Nat :=
  (List.range 41).foldl (fun a h => if scanCost h s.hz ≤ s.grantCost 2 0x50 then h else a) 0

/-- The total applied in a frame: a decrease at once, an increase once VHV is near its setpoint, until then what VHV
allows (R102); `vhv` is in 10 mV. -/
def applyTotal (vhv : Nat) (s : State) : Nat :=
  if !s.meter.boostOn then 0
  else
    let want := min (profileTotal s) (s.fe.scanAmp.getD 40)
    let lim := min want (scanCovers s)
    let set10 := 10 * vhvSetpoint (profileTotal s)
    if want ≤ s.fe.appA + s.fe.appB then lim
    else if lim == want && 20 * (max vhv set10 - min vhv set10) ≤ set10 then want
    else min lim ((vhv - 400) / 50)

/-- The amplitudes of a frame: both tones scaled when the total differs from the profile's, the baselines with them (R102,
R194). -/
def newAmplitude (vhv : Nat) (s : State) : State :=
  let p := s.prof
  let want := profileTotal s
  let tot := applyTotal vhv s
  let vb := if s.dual then byteAt p 11 else 0
  let (a, b) := if tot < 4 then (0, 0) else if tot == want then (byteAt p 10, vb)
    else (byteAt p 10 * tot / max 1 want, vb * tot / max 1 want)
  let s := { s with fe.appA := a, fe.appB := b, fe.ampLim := tot < want,
                    fe.vhvSet := if s.meter.boostOn then vhvSetpoint want else 0 }
  if p.flag 1 then scaleAmp a b s else s

/-- The time and the wall clock of the boundary just passed: the beacon's on every member of a span, so that they are one in
the span (R263), else the part's own. -/
def State.frameTime (s : State) : Nat × Nat :=
  match (if s.span.joined then s.spanx.beacon else none) with
  | some b => (leAt b 4 6, leAt b 10 8)
  | none => (s.frame.bTb, s.wc.secs)

/-- Step 1 of a frame: the Hearth decides, settings take effect, pins are restored (R24, R67, R151). -/
def boundarySettings (vhv : Nat) (s : State) : State :=
  let s := newColour s
  let (hop, s) := newTone (settingsDone s)
  let s := decideLeave true true (scanNeed (rereqFrame s))
  let s := newAmplitude vhv (restorePins s)
  let b := { Bank.empty with
    hop := hop
    bin := s.bin
    openTx := maskOf 64 (fun t => getBit s.fc.txoff t || lineOpen s t)
    openRx := maskOf 40 (fun r => lineOpen s (64 + r))
    valid := !s.dark }
  let (tb, utc) := s.frameTime
  { s with planes.write := b
           frame.mutStart := (tb + s.prof.listenLen * 2 / 3) % 2 ^ 48
           frame.utc := utc }

/-! ### Sensing -/

/-- Channels that R121 retries for this frame are not held while it senses. -/
def retryOpen (s : State) : State :=
  { s with fc.clip := s.fc.clip &&& ~~~s.fc.clipTry
           clamp.opened := (List.range 40).foldl (fun m r => if getBit s.fc.clipTry r then setBit m (64 + r) false else m)
             s.clamp.opened
           planes.write.openRx := s.planes.write.openRx &&& ~~~s.fc.clipTry }

/-- After a MUTUAL slot a retried channel is restored, or held again (R151). -/
def retryClose (s : State) : State :=
  let t := s.fc.clipTry
  if t == 0 || !s.planes.write.mutualOn || s.planes.write.minv then s
  else
    (filterIdx 40 (getBit t)).foldl (fun s r =>
      if 0 < s.fc.clipRuns.getD r 0 then
        { s with fc.clip := setBit s.fc.clip r true, clamp.opened := setBit s.clamp.opened (64 + r) true }
      else restorePin (64 + r) s) { s with fc.clipTry := 0 }

/-- A retry that had no MUTUAL slot waits for the next frame. -/
def retryWait (s : State) : State :=
  { s with fc.clip := s.fc.clip ||| s.fc.clipTry
           clamp.opened := (List.range 40).foldl (fun m r => if getBit s.fc.clipTry r then setBit m (64 + r) true else m)
             s.clamp.opened }

/-- A member's CENSUS packet, R447: 32 scores and the rejected mask. -/
def censusPacket (s : State) : State :=
  if s.span.joined && s.span.role == 3 && s.planes.write.listen then
    sendPacket 0x03 s.span.leader s.frame.n ((s.census.scores.map (le 2)).flatten ++ le 4 s.census.rejNow.toNat) s
  else s

/-- The slots of a frame in their order (R13). -/
def senseFrame (x : Sense) (s : State) : State :=
  let p := s.prof
  let s := slotMutual x (censusPacket (slotListen x (retryOpen s)))
  let s := retryWait (retryClose s)
  let charge := p.flag 2 && s.feat 1
  let s := applyGuards p x.vhv (p.flag 1) charge s
  let s := if charge then slotCharge p x.charge s else noCharge s
  let s := if charge && !s.planes.write.hop then gammaSample (byteAt p 27 == 1) x.gamma x.gammaR s else s
  if s.span.role == 2 then s else urgentMove s

/-- FRAME_BOUNDARY, R13. In SAFE, while a diagnostic runs, before the PLL has locked (R90), or where a span does not let the
part run frames, none begins. -/
def frameBoundary (x : Sense) (s : State) : State :=
  if !s.mayFrame || !s.rst.diag.isEmpty || s.md.hibEntry || !s.chan.rdy || s.clk.spare then s
  else if !(framesIn s.sel || (match s.md.pending with
    | some (m, _) => framesIn m
    | none => false)) then s
  else
    let s := boundaryMode (toBoundary s)
    if !framesIn s.sel then s
    else
      let s := boundarySettings x.vhv (beginFrame s)
      let s := if s.dark then s else senseFrame x s
      if s.span.role == 2 then { s with spanx.beaconSent := false } else { s with spanx.beacon := none }

def execFrameBoundary (x : Sense) (s : State) : Host.Outcome State Fault Refusal := .next (frameBoundary x s)

/-! ### The computation start -/

/-- A start that 240 Hz has no room for waits for a boundary at 120 Hz (R233). -/
def startWaits (d : Deferred) (s : State) : Bool :=
  d.code == 0x15 && s.aon.rate == 6 && (s.ctx (byteAt d.payload 0)).st != 3 &&
    114688 < s.budSum + (s.ctx (byteAt d.payload 0)).budget

/-- Whether a deferred command is bound to this K; a leader's configuration waits for its commit (R450). -/
def dueAtK (s : State) (d : Deferred) : Bool :=
  atK d.code && !(s.span.role == 2 && ((0x10 ≤ d.code && d.code ≤ 0x16) || d.code == 0x22))

/-- The deferred commands of K in their order; one that waits, as a binding does for its space, holds back those of its
context (R24, R224, R233). -/
def runDeferred : List Deferred → List Nat → List Deferred → State → List Deferred × State
  | [], _, kept, s => (kept.reverse, s)
  | d :: ds, held, kept, s =>
    let i := byteAt d.payload 0
    let context := d.isOf i
    if !dueAtK s d then runDeferred ds held (d :: kept) s
    else if context && (held.contains i || startWaits d s || (d.code == 0x22 && s.bindWaits i)) then runDeferred ds (i :: held) (d :: kept) s
    else runDeferred ds held kept (applyDeferred d s)

/-- What is bound to a computation start takes effect (R24, R231, R265, R281). -/
def effectsAtK (s : State) : State :=
  let (kept, s) := runDeferred s.chan.deferred [] [] s
  let s := { s with chan.deferred := kept }
  match s.eng.freezeNext with
  | some m => { s with cal.freeze := BitVec.ofNat 16 m, eng.freezeNext := none }
  | none => s

/-- Contexts that trapped elsewhere are FAULTED (R235). -/
def faultsAtK (s : State) : State :=
  let f := s.spanx.faultNext
  (filterIdx 32 (getBit f)).foldl (fun s i => if (s.ctx i).st == 3 then unassign i (leaveRunning 5 i s) else s)
    { s with spanx.faultNext := 0 }

/-- Span messages of the last frame reach the copies that are RUNNING in this one (R264). -/
def msgsAtK (s : State) : State :=
  s.spanx.msgsIn.foldl (fun s (i, src, m) => if (s.ctx i).st == 3 then notify i (0x04 + 256 * src) m s else s)
    { s with spanx.msgsIn := [] }

/-- Host mail written before K is in the box that the program sees (R231). -/
def mailAtK (s : State) : State :=
  { s with ctxs := s.ctxs.map (fun c => { c with mailVis := !c.mailIn.isEmpty }) }

/-- The samples of the members join the leader's own for its tone decision: per bin the largest accepted (R115, R447). -/
def mergeCensus (s : State) : State :=
  let ps := s.spanx.censuses.map (·.2)
  let own (i : Nat) : List Nat := if getBit s.census.rejNow i then [] else [s.census.scores.getD i 0]
  let of (p : List Byte) (i : Nat) : List Nat := if bit (leAt p 64 4) i then [] else [leAt p (2 * i) 2]
  let all (i : Nat) : List Nat := own i ++ ps.flatMap (of · i)
  { s with census.scores := tabulate 32 (fun i => (all i).foldl max 0)
           census.rejNow := maskOf 32 (fun i => (all i).isEmpty)
           spanx.censuses := [] }

/-- The leader's tone decision of a frame. -/
def leaderCensus (s : State) : State :=
  if s.span.role == 2 && s.planes.write.listen then urgentMove (censusCount (mergeCensus s))
  else { s with spanx.censuses := [] }

/-- The stitching of a span is on (R444, R464). -/
def State.stitching (s : State) : Bool := s.span.joined && bit (byteAt s.span.config 0) 1 && s.feat 49

/-- The raw banks swap and the computation of the frame begins with its pre-pass; outside stitching the context pass
opens (R15, R17). -/
def startComputation (s : State) : State :=
  let s := { s with
    planes.comp := s.planes.write
    frame.comp := s.frame.n
    frame.phase := 1
    frame.mutComp := s.frame.mutStart
    frame.utcComp := s.frame.utc
    frame.kComp := computeAt s
    spanx.markers := 0
    frame.first := s.frame.firstNext
    frame.firstNext := false
    cal.endDone := match s.cal.endDone with
      | some e => some e
      | none => some (s.frame.n / 256)
    spanx.stitchSent := false }
  let s := prePass s
  if s.inSpan then s else finishPass s

/-- COMPUTATION_START, R14. A computation that has not ended makes the frame slip: its bank is discarded (R28). -/
def computationStart (s : State) : State :=
  if !(s.framesRun && s.frame.sensed) then s
  else
    let s := leaderCensus { tickTo (computeAt s) s with frame.sensed := false }
    if s.frame.phase == 1 || s.frame.phase == 2 then
      { s with eng.slipCnt := satAdd 65535 s.eng.slipCnt 1, eng.slipRun := s.eng.slipRun + 1,
               bridges := s.bridges.map (fun b => { b with sum := 0, count := 0 }) }
    else
      let s := { s with eng.slipRun := 0 }
      let s := mailAtK (effectsAtK (faultsAtK s))
      let s := latchForce (msgsAtK (commitAtK s))
      if s.dark || !s.planes.write.valid then s else startComputation (markClamps s)

def execComputationStart (s : State) : Host.Outcome State Fault Refusal := .next (computationStart s)

/-! ### Publication and the post-pass -/

/-- Span messages leave with the pass (R264). -/
def sendMsgs (s : State) : State :=
  let ms := s.spanx.msgsOut
  ms.foldl (fun s (i, mask, m) =>
    (filterIdx 16 (fun p => bit mask p)).foldl (fun s p => sendPacket 0x0A p s.frame.comp (b8 i :: m) s) s)
    { s with spanx.msgsOut := [] }

/-- A follower's context records of the frame go to the leader, closed by an end marker, when RELAY is set (R449). They
leave its own queues. -/
def relayRecords (s : State) : State :=
  if !(s.span.role == 3 && s.span.joined && bit (byteAt s.span.config 0) 0) then s
  else
    let rs := sortBy (fun (x : Nat × QRec) => Int.ofNat x.2.ord) ((List.range 32).flatMap (fun i =>
      ((s.ctx i).queue.recs.filter (fun r => r.pub.isNone)).map (fun r => (i, r))))
    let s := rs.foldl (fun s (i, r) => sendPacket 0x09 s.span.leader s.frame.comp (b8 i :: recBytes r.r) s) s
    let s := sendPacket 0x09 s.span.leader s.frame.comp [0xFF] s
    (List.range 32).foldl (fun s i => s.modCtx i (fun c =>
      { c with queue := { c.queue with recs := c.queue.recs.filter (fun r => r.pub.isSome) } })) s

/-- Whether timebase `a` is not after `b`. -/
def notAfterTb (a b : Nat) : Bool := (b + 2 ^ 48 - a % 2 ^ 48) % 2 ^ 48 < 2 ^ 47

/-- WAKE records about to be published raise the wake floor (R44). -/
def wakeRaised (s : State) : State :=
  if s.ctxs.any (fun c => c.queue.recs.any (fun r => r.pub.isNone && r.r.typ == 6)) then floorWake s else s

/-- The post-pass: compaction, the thermal policy, reads of contexts, the mode choice (R17, R40, R224, R470). -/
def postPass (s : State) : State := choose 0 (deliverRead (policyRun (compactStep s)))

/-- Whether the leader's publication still waits for the end marker of a joined member, at most until K + 7.5 ms (R449). -/
def relayWaits (s : State) : Bool :=
  s.span.role == 2 && bit (byteAt s.span.config 0) 0 && !notAfterTb ((s.frame.kComp + 7680) % 2 ^ 48) s.clk.tb &&
    setBit (s.span.members &&& ~~~s.spanx.markers) s.pins.gpos false != 0

/-- PUBLICATION, R19: the open pass runs to its end, then the records become readable and the post-pass runs. A publication
that waits for relayed records has run the pass only. -/
def publication (s : State) : State :=
  if s.frame.phase != 2 then s
  else if relayWaits s then runPass passFuel s
  else
    let s := runPass passFuel s
    let s := wakeRaised (relayRecords (sendMsgs s))
    let s := publish s
    postPass { s with frame.phase := 3, eng.passCyc := s.eng.passNow }

def execPublication (s : State) : Host.Outcome State Fault Refusal := .next (publication s)

/-- EPOCH_END, R188: once per epoch, in the post-pass of its last frame or of the next one computed. -/
def epochEnd (s : State) : State :=
  let e := epochsThrough s.frame.comp
  if s.frame.phase != 3 || s.cal.endDone.getD e == e then s
  else
    let s := epochMove (calEpochEnd s)
    { s with cal.endDone := some e, cal.epoch := (e + 2 ^ 24 - 1) % 2 ^ 24
             fc.txoff := 0, fc.txRuns := List.replicate 64 0, fc.clipTry := s.fc.clip }

def execEpochEnd (s : State) : Host.Outcome State Fault Refusal := .next (epochEnd s)

/-! ### The DOZE sweep -/

/-- The samples of a sweep enter the charge baselines when no line rises (R192). -/
def sweepTarn (s : State) : State :=
  let b := s.planes.comp
  let rises := s.cal.d.capturedC && (List.range 104).any (lineRises b s.cal.d)
  baselineStep (pushLines b (fun _ => !rises) s)

/-- S, AONCLK cycles from one sweep to the next, R89. -/
def sweepCycles (hz : Nat) : Nat := (65536 + hz) / (2 * max 1 hz)

/-- The timebase reaches the instant of the next sweep, S cycles of AONCLK after the last one, or after the entry to DOZE
(DESIGN CHOICE, log 14); one that comes late is placed where it comes. An AONCLK cycle is 31.25 ticks. -/
def toSweep (s : State) : State :=
  let q := (s.clk.sweepAt + 125 * sweepCycles s.aon.dozeHz) % 2 ^ 50
  let u := tickTo (q / 4) s
  { u with clk.sweepAt := if u.clk.tb == q / 4 then q else 4 * u.clk.tb }

/-- DOZE_SWEEP, R89, R147, R179, R193. Before the PLL has locked SENSE does not start (R90). -/
def dozeSweep (charge : List (List Int)) (ratios : Ratios) (s : State) : State :=
  if s.aon.mode != .doze || s.clk.spare then s
  else
    let s := toSweep s
    let p : Profile := ((s.fe.sets[2]?).map (·.record)).getD []
    let s := applyGuards p s.meter.vhvMeas false true { s with planes.write := .empty }
    let s := gammaSample (byteAt p 27 == 1) ratios.guards ratios.companions (slotCharge p charge s)
    let w := s.planes.write
    let b := { s.planes.comp with stxI := w.stxI, stxQ := w.stxQ, srxI := w.srxI, srxQ := w.srxQ, charge := true,
                                  range := (s.planes.comp.range.take 40) ++ w.range.drop 40 }
    let s := { s with planes.comp := b }
    if !s.cal.d.capturedC then captureCharge b s
    else approach (approachStep (bankRises s b) (sweepTarn s))

def execDozeSweep (charge : List (List Int)) (ratios : Ratios) (s : State) : Host.Outcome State Fault Refusal :=
  .next (dozeSweep charge ratios s)

/-! ### Hearth decisions -/

/-- What a frame's instants would bring takes effect within 1 ms while no frames run (R323); a contract that comes into
force makes the choice (R540). -/
def idleEffects (s : State) : State :=
  let due := !s.chan.deferred.isEmpty
  let s := effectsAtK s
  let s := (List.range 4).foldl (fun s n => applyForceCfg n s) s
  let s := commitAtK s
  if due && (s.aon.mode == .boot || s.aon.mode == .hibernate) then choose 0 s else s

/-- HEARTH_DECISION, R66, R67: rank 0 every 1 ms, every class while no frames run, with one wait per 8 ms. DRIVE then
follows the demand as it stands (R32). -/
def hearthDecision (s : State) : State :=
  if s.framesRun then decideLeave false false s
  else
    let n := (s.power.eighth + 1) % 8
    driveFollow (idleEffects (decideLeave true (n == 0) { s with power.eighth := n }))

def execHearthDecision (s : State) : Host.Outcome State Fault Refusal := .next (hearthDecision s)

end Sys2Proof.Machine
end

