-- ==== Sys2Proof/Machine/Reset.lean ====
section
/-! DEFINITION. Resets: what each kind keeps, the power-on sequence to RDY, the reset record, and the boot paths
(R532-R547).
Conventions that the spec leaves open: log 22, log 23 (DEDUCED). -/

namespace Sys2Proof.Machine
open Sys2Proof

/-! ### What a reset cuts short -/

/-- A key write that a reset cuts short, R297: its steps are the hash, the check word, the lock bit and SIGREQ, in this order;
which it had reached, and which bits of the step it was in, is free (DESIGN CHOICE, log 3). -/
def cutOtp (s : State) : State :=
  match s.otp.write with
  | some w =>
    let (v, s) := fresh s
    if w.slot == 2 then { s with otp.sigreq := s.otp.sigreq || v.getLsbD 0, otp.write := none }
    else
      let (fs, s) := freeBytes 32 s
      let (c, s) := fresh s
      let hashed := v.getLsbD 0
      let locked := hashed && v.getLsbD 1
      let k : OtpSlot :=
        { hash := if hashed then w.hash else (w.hash.zip fs).map (fun (h, f) => h &&& f)
          check := if locked then crc32c w.hash else if hashed then (BitVec.ofNat 32 (crc32c w.hash) &&& c.setWidth 32).toNat else 0
          lock := locked }
      { s with otp := { setSlot w.ledger w.slot k s.otp with
        write := none, sigreq := s.otp.sigreq || (locked && w.sigreq && v.getLsbD 2) } }
  | none => s

/-! ### What survives, R546 -/

/-- A power-on reset keeps OTP and flash; CORE is off. -/
def wipe (s : State) : State :=
  { State.reset with
    pending := s.pending
    freeCtr := s.freeCtr
    otp := s.otp
    cal := .reset s.otp.trim
    clk.keepRail := s.otp.trim == -128 || s.otp.trim == 127
    mem.flash := s.mem.flash
    mem.sfdp := s.mem.sfdp
    pins.resetLow := s.pins.resetLow
    power.domCore := false }

/-- The other kinds keep the timebase and its coast, the wall clock and the ledger's, the SHDN_N comparator, the clamps'
flags and counters, and the journal's numbering. -/
def wipeKept (s : State) : State :=
  let s := ledTouches s
  let t := wipe s
  { t with
    clk := { Clk.reset with keepRail := t.clk.keepRail, tb := s.clk.tb, frac := s.clk.frac, coasted := s.clk.coasted, coastMs := s.clk.coastMs,
                            coastRem := s.clk.coastRem, held := s.clk.held, xtal := s.clk.xtal, onKeeper := s.clk.onKeeper,
                            keepQ := s.clk.keepQ, keepAcc := s.clk.keepAcc }
    wc := s.wc
    led := { s.led with running := false, queue := [] }
    shdn := s.shdn
    clamp := { Clamp.reset with flags := s.clamp.flags, counters := s.clamp.counters }
    jrn := { Jrn.reset with next := s.jrn.next, shown := s.jrn.next, spillNext := s.jrn.next, spillOld := s.jrn.spillOld,
                            writeAt := s.jrn.writeAt }
    chan.tw.jptr := s.jrn.next
    chan.hs.jptr := s.jrn.next }

/-! ### Boot paths, R537-R539 -/

/-- A set that a boot path accepts; the serial port is absent without its feature. -/
def bootAccept (f : FeatSet) (s : State) : State := hsPresence .tw (acceptSet f s)

/-- The stock set of R538. -/
def stockSet (s : State) : FeatSet :=
  maskOf 128 (fun k => k ≤ 5 || k == 7 || k == 17 || k == 32 || k == 33 || (64 ≤ k && k ≤ 67) || k == 80 || k == 83 ||
    (k == 21 && !s.pins.hsm) || (k == 22 && s.pins.hsm))

/-- A seed of this part in the seed area is applied. -/
def bootSeed (s : State) : State :=
  match s.mem.map.bind (·.seed) with
  | none => s
  | some (a, _) =>
    let p := readFlash s a 240
    if !s.fenced a 240 && seedOk s p then applySeed p s else s

/-- A boot path starts a context; while the crystal does not run, the start waits for it (R97). -/
def bootStart (xtal : Bool) (i : Nat) (s : State) : State :=
  if xtal then applyStart [b8 i, 0] s else { s with rst.bootStarts := s.rst.bootStarts ++ [i] }

/-- Path 0b01. -/
def bootStock (xtal : Bool) (s : State) : State :=
  let s := bootSeed (bootAccept (stockSet s) s)
  let pl : List Byte := [0, 1, 0, 0, 0, 0, 0, 0]
  let s := openCtx .tw (openCaps .tw pl s) pl s
  bootStart xtal 0 (applyStock (0 :: 0 :: zeros 16) s)

/-- A context entry in range. -/
def bootEntryOk (s : State) (e : List Byte) : Bool :=
  let src := byteAt e 1
  byteAt e 0 < 32 && 1 ≤ src && src ≤ 3 && byteAt e 2 ≤ 1 && byteAt e 3 ≤ 3 && leAt e 4 2 < 2048 && byteAt e 7 == 0 &&
    (leAt e 8 4 == 0 || (1024 ≤ leAt e 8 4 && leAt e 8 4 ≤ 524288)) &&
    (if src == 1 then byteAt e 6 < 8 && leAt e 12 4 == 0 && stockRange (byteAt e 6) (slice e 16 16)
     else byteAt e 6 == 0 && leAt e 12 4 % 4 == 0 && leAt e 16 16 == 0) &&
    contractOk s (contractOf (slice e 32 8)) && leAt e 40 8 == 0

/-- The context entries of a boot record. -/
def bootEntries (b : List Byte) : List (List Byte) := (List.range (byteAt b 7)).map (fun k => slice b (80 + 48 * k) 48)

/-- A valid boot record, R539, R544. -/
def bootRecordOk (s : State) (b : List Byte) : Bool :=
  let n := byteAt b 7
  let f := BitVec.ofNat 128 (leAt b 8 16)
  let t := { s with chan.accepted := some f }
  let es := bootEntries b
  leAt b 0 4 == 0x474C4252 && leAt b 4 2 == 1 && leAt b 508 4 == crc32c (b.take 508) && byteAt b 6 < 4 &&
    1 ≤ n && n ≤ 4 && setOk s f && 20 ≤ leAt b 24 2 && leAt b 24 2 ≤ 1023 && byteAt b 26 ≤ 2 && byteAt b 27 ≤ 3 &&
    Profile.fits (stockProfile (byteAt b 27)) 0 && leAt b 28 4 == 0 &&
    (List.range 3).all (fun k => fanOk (slice b (32 + 16 * k) 16)) && es.all (bootEntryOk t) &&
    (es.map (byteAt · 0)).eraseDups.length == n && (slice b (80 + 48 * n) (48 * (4 - n))).all (· == 0#8) &&
    (!bit (byteAt b 6) 1 || spanCfgOk t (slice b 272 48)) && (slice b 320 188).all (· == 0#8)

/-- The boot record in flash. -/
def bootRecord (s : State) : Option (List Byte) :=
  match s.mem.map.bind (·.image) with
  | none => none
  | some (a, _) =>
    let b := readFlash s a 512
    if !s.fenced a 512 && bootRecordOk s b then some b else none

/-- Loads an image of flash into a context as IMG_FROM_FLASH does: the result of R288. -/
def bootImage (i off : Nat) (xip : Bool) (s : State) : Nat × State :=
  let caps := (s.ctx i).caps
  let (h, b) := flashImage s caps off
  if h != 0 then (h, s)
  else
    match (if xip then some (off + 64) else firstFit s (kibOf (codeOf b).length)) with
    | none => (0x07, s)
    | some base =>
      let r := finalResult s caps (imgLength b) b
      if r != 0 then (r, s)
      else
        let s := if xip then { s with mem.xipEn := true } else { s with eng.code := Memory.writeN 0 s.eng.code base (codeOf b) }
        (0, s.modCtx i (fun c => { c with st := 2, prog := .image, img := imageOf s b base xip }))

/-- The features that a load asks for. -/
def loadFeats (s : State) (e : List Byte) : Bool :=
  (imgFeats s ++ (if byteAt e 1 == 3 then [35, 80] else [80])).all s.feat

/-- A step that fails for a reason outside R288: the result byte is not stated (DESIGN CHOICE, log 3). -/
def entryFails (s : State) : Option Nat × State :=
  let (v, s) := fresh s
  (some (v.toNat % 256), s)

/-- One context entry: opened, given its contract, loaded, started fresh. Answers the result of a step that failed. -/
def bootEntry (xtal : Bool) (e : List Byte) (s : State) : Option Nat × State :=
  let i := byteAt e 0
  let p := if byteAt e 2 == 0 then Port.tw else Port.hs
  let pl := [b8 i] ++ slice e 4 2 ++ [b8 (byteAt e 3)] ++ slice e 8 4
  let s := openCtx p (openCaps p pl s) pl s
  let s := applyContract (b8 i :: slice e 32 8) s
  if byteAt e 1 == 1 then
    let pl := [b8 i, b8 (byteAt e 6)] ++ slice e 16 16
    if !(stockOk s pl && getBit (s.ctx i).caps 0) then entryFails s
    else
      let s := applyStock pl s
      if startOk s i then (none, bootStart xtal i s) else entryFails s
  else if !loadFeats s e then entryFails s
  else
    let (r, s) := bootImage i (leAt e 12 4) (byteAt e 1 == 3) s
    if r != 0 then (some r, s)
    else if startOk s i then (none, bootStart xtal i s)
    else entryFails s

/-- Path 0b10 with a valid record. -/
def bootFlash (xtal : Bool) (b : List Byte) (s : State) : State :=
  let s := bootAccept (BitVec.ofNat 128 (leAt b 8 16)) s
  let s := { s with power.cap := leAt b 24 2, thermal.policyNext := some (byteAt b 26, stockPolicy (byteAt b 26)) }
  let s := assignProfile 0 (byteAt b 27) (stockProfile (byteAt b 27)) s
  let s := (List.range 3).foldl (fun s k => s.modFan k (fun f => { f with recNext := some (slice b (32 + 16 * k) 16) })) s
  let s := if bit (byteAt b 6) 0 then bootSeed s else s
  let s := if bit (byteAt b 6) 1 then { s with span.config := slice b 272 48 } else s
  (bootEntries b).foldl (fun s e =>
    match bootEntry xtal e s with
    | (none, s) => s
    | (some r, s) =>
      if s.rst.outcome == 2 then s
      else { s with rst.outcome := 2, rst.detail := r, rst.detailCtx := byteAt e 0 }) s

/-- The path that a reset takes: SERVICE by command, else as strapped. -/
def State.path (s : State) : Nat := if s.rst.kind == 5 then 3 else s.pins.boot

/-- The boot path of R537. -/
def bootPath (xtal : Bool) (s : State) : State :=
  match s.path with
  | 0 => s
  | 1 => choose 0 (bootStock xtal { s with md.bootHold := false })
  | 2 =>
    let s := { s with md.bootHold := false }
    choose 0 (match bootRecord s with
      | some b => bootFlash xtal b s
      | none => bootStock xtal (latchFault 10 { s with rst.outcome := 1 }))
  | _ => enterMode ⟨.service, 0, 0⟩ 0 { s with md.forced := some ⟨.service, 0, 0⟩ }

/-! ### The sequence of R533 from step 4 -/

/-- Straps are sampled at the release of the CORE reset (R535); TCRIT is read continuously. -/
def sampleStraps (b : BootInput) (s : State) : State :=
  { s with
    pins.boot := b.boot.toNat
    pins.gpos := b.gpos.toNat
    pins.haddr := b.haddr.toNat
    pins.hsm := b.hsm
    pins.testMode := b.testLow
    shdn.tcrit := b.tcrit.toNat
    hs := .reset b.gpos.toNat
    meter.vinMv := 10 * b.vin
    power.domCore := true }

/-- A power-on reset: code 1 or 2. -/
def State.powerOn (s : State) : Bool := s.rst.kind ≤ 2

/-- Discovery, the map and the boot scan; after a power-on reset the spill and the ledger are recovered from a scanned
flash (R423, R525). Recoveries come first where flash is to be read then (R417). -/
def bootMemory (s : State) : State :=
  let s := memBoot s
  let recover : Bool := s.path == 2 || (s.powerOn && (s.spillArea.isSome || s.ledgerArea.isSome))
  let s := if recover then runRecoveries 8 s else s
  if s.powerOn then ledRecover (spillRecover s) else s

/-- RDY is set: cause RESET stands on both ports, and a watchdog reset latches WDOG. -/
def setRdy (s : State) : State :=
  let s := { s with chan.rdy := true }
  let s := cause .hs (fun q => { q with causeReset := true }) (cause .tw (fun q => { q with causeReset := true }) s)
  if s.rst.kind == 6 then latchFault 3 s else s

/-- The reset record, R536, with what the boot path is going to find. -/
def resetRecord (found : Rst) (vin : Nat) (s : State) : State :=
  let two : Bool := found.outcome == 2
  record 0x40 ([0x09, b8 s.rst.kind, b8 found.outcome, 0, b8 (if two then found.detail else 0),
    b8 (if two then found.detailCtx else 0)] ++ le 2 (min 65535 vin)) s

/-- Steps 4 to 10; `xtal` of the input says that the crystal passes its two windows within 20 ms of the start (R97). With TEST_N low RDY is never set (R560); with a crystal that does not start the part ends in SAFE (R97);
SHDN_N that stands takes it there at the end (R543). -/
def bootUp (b : BootInput) (s : State) : State :=
  let s := sampleStraps b s
  if b.testLow then s
  else
    let s := bootMemory (setRdy s)
    let found := (bootPath b.xtal s).rst
    let s := resetRecord found b.vin s
    let s := bootPath b.xtal (if b.xtal then { toCrystal (stableWait s) s with clk.xtal := true, clk.goodRun := 2 } else s)
    let s := if b.xtal then s else xtalFailed s
    if s.shdn.asserted then safeShdn s else s

/-! ### The kinds, R532 -/

/-- A power-on reset of a kind: below the threshold the part stays in OFF (R534), with RESET_N low it waits for its rise. -/
def powerReset (kind : Nat) (b : BootInput) (s : State) : State :=
  let s := wipe (cutOtp (cutProgram s))
  let s := { s with rst.kind := kind }
  if b.vin < 435 then { s with aon.mode := .off }
  else if s.pins.resetLow then s
  else bootUp b s

/-- A pin, command or watchdog reset up to its release. -/
def heldReset (kind : Nat) (s : State) : State :=
  let s := wipeKept (cutOtp (cutProgram s))
  { s with rst.kind := kind }

/-- POWER_ON_RESET: VIN rises through the threshold of R534, from OFF or before the first boot. A brown-out that left the
part in OFF keeps its kind. -/
def execPowerOnReset (b : BootInput) (s : State) : Host.Outcome State Fault Refusal :=
  .next (if s.chan.rdy || s.pins.testMode || b.vin < 435 || (s.pins.resetLow && s.aon.mode != .off) then s
    else powerReset (if s.aon.mode == .off && s.rst.kind == 2 then 2 else 1) b s)

/-- BROWN_OUT, R70, R543. -/
def execBrownOut (b : BootInput) (s : State) : Host.Outcome State Fault Refusal :=
  .next (if s.aon.mode == .off then s else powerReset 2 b s)

/-- VAON_OUT_OF_RANGE, R532. -/
def execVaonOutOfRange (b : BootInput) (s : State) : Host.Outcome State Fault Refusal := .next (powerReset 1 b s)

/-- PIN_RESET, R542: while RESET_N is low CORE is held off; at its rise the sequence resumes at step 4. -/
def execPinReset (low : Bool) (b : BootInput) (s : State) : Host.Outcome State Fault Refusal :=
  .next (if low then
      if s.pins.resetLow then s
      else if s.aon.mode == .off then { s with pins.resetLow := true }
      else { heldReset 3 s with pins.resetLow := true }
    else if !s.pins.resetLow then s
    else if s.aon.mode == .off then { s with pins.resetLow := false }
    else bootUp b { s with pins.resetLow := false })

/-- WATCHDOG_RESET, R545. -/
def execWatchdogReset (b : BootInput) (s : State) : Host.Outcome State Fault Refusal :=
  .next (if s.chan.rdy then bootUp b (heldReset 6 s) else s)

/-- SAFE_WATCHDOG_RESET, R53, R96: SAFE of a watchdog fault, and no session is open. -/
def execSafeWatchdogReset (b : BootInput) (s : State) : Host.Outcome State Fault Refusal :=
  .next (if s.aon.mode == .safe && s.aon.scWdog && !s.chan.tw.session && !s.chan.hs.session && !s.clk.xtalFail then
      bootUp b (heldReset 6 s)
    else s)

/-- What a command reset finds at the pins: the straps as they stand, VIN as last measured, and a crystal that runs unless
it had failed. -/
def commandInput (s : State) : BootInput :=
  { boot := BitVec.ofNat 2 s.pins.boot, gpos := BitVec.ofNat 4 s.pins.gpos, haddr := BitVec.ofNat 3 s.pins.haddr,
    hsm := s.pins.hsm, tcrit := BitVec.ofNat 3 s.shdn.tcrit, xtal := !s.clk.xtalFail, vin := s.meter.vinMv / 10,
    testLow := false }

/-- RESET, R342, R547. An accepted RESET has no reply. -/
def cmdReset : Cmd :=
  { checks := fun _ pl _ => { free := true, early := true, safe := true, lenOk := pl.length == 3
                              inRange := leAt pl 0 2 == 0xA55A && (byteAt pl 2 == 1 || byteAt pl 2 == 2) }
    run := fun _ pl s => (.none, bootUp (commandInput s) (heldReset (3 + byteAt pl 2) s)) }

def execReset (u : HostUnit) (s : State) : Host.Outcome State Fault Refusal := hostRow 0xF0 cmdReset u s

end Sys2Proof.Machine
end

