-- ==== Sys2Proof/Machine/SpanLink.lean ====
section
/-! DEFINITION. The ring of a span: lock and break, election, the beacon, proposals, stitching, the census, configuration,
relayed records and messages (R428-R461).
Conventions that the spec leaves open: log 13 (DESIGN CHOICE), log 18 (DEDUCED). -/

namespace Sys2Proof.Machine
open Sys2Proof

/-- Whether a packet from the ring is taken: SPAN is accepted, the input is locked, and the packet is for this part. -/
def heard (p : Packet) (s : State) : Bool :=
  s.spanOn && s.span.lock && (p.dst == 0xFF || p.dst == s.pins.gpos)

/-! ### Lock, break, healing, R428, R458, R459, R463 -/

/-- LINK_LOCK. The link runs while CORE runs and the PLL is locked. -/
def linkLock (s : State) : State :=
  if s.power.domCore && s.clk.lock && !s.clk.xtalFail then
    let s := { s with span.lock := true }
    if s.span.split then s else startClaim s
  else s

def execLinkLock (s : State) : Host.Outcome State Fault Refusal := .next (linkLock s)

/-- A part that has no ring: a joined member goes on as an island, any other waits. -/
def loseRing (s : State) : State :=
  if s.span.role == 2 || (s.span.role == 3 && s.span.joined) then becomeIsland s
  else if s.span.role == 0 then s
  else stopFrames { clearRing s with span.role := 0 }

/-- RING_BREAK, R458: no lock, counted once as a loss, or no beacon. -/
def ringBreak (s : State) : State :=
  let s := if s.span.lock then { s with span.lock := false, span.lost := satAdd 65535 s.span.lost 1 } else s
  loseRing s

def execRingBreak (s : State) : Host.Outcome State Fault Refusal := .next (ringBreak s)

/-- HEALED, R459: an island elects again. SPLIT stands until it leads or joins. -/
def healed (s : State) : State :=
  if s.span.split && s.spanOn && s.span.lock then startClaim (spanRec 0x09 s.pins.gpos 0 s) else s

def execHealed (s : State) : Host.Outcome State Fault Refusal := .next (healed s)

/-- SPAN_ALONE, R463: the part runs alone with SPLIT set. -/
def spanAlone (s : State) : State :=
  if s.spanOn && !s.span.lock && s.span.role ≤ 1 && !s.span.split then
    choose 0 { clearRing s with span.role := 0, span.split := true }
  else s

def execSpanAlone (s : State) : Host.Outcome State Fault Refusal := .next (spanAlone s)

/-! ### Packets in transit, R431, R461 -/

/-- PACKET_FORWARD: a packet of the part's own that has gone round is removed, any other goes on with one more hop; a
packet in error is counted. The round trip of the leader's own beacon and the hops of its return are its rtt and the
number of parts. -/
def packetForward (p : Packet) (crcOk : Bool) (rtt : Nat) (s : State) : State :=
  if !s.span.lock then s
  else if !crcOk then
    { s with span.crcErr := satAdd 65535 s.span.crcErr 1, spanx.crcRun := s.spanx.crcRun + 1 }
  else if p.src % 16 == s.pins.gpos && p.hops != 0 then
    let s := { s with span.parts := p.hops }
    if p.typ == 0x02 then { s with span.rtt := min 65535 rtt } else s
  else
    let xs := s.spanx.sent ++ [{ p with hops := p.hops + 1 }]
    { s with spanx.sent := xs.drop (xs.length - 64) }

def execPacketForward (p : Packet) (crcOk : Bool) (rtt : Nat) (s : State) : Host.Outcome State Fault Refusal :=
  .next (packetForward p crcOk rtt s)

/-- SPAN_CRC, R461: a second has passed. -/
def spanCrc (s : State) : State :=
  let many : Bool := 100 < s.spanx.crcRun
  let s' := { s with spanx.crcRun := 0, spanx.crcDone := many }
  if many && !s.spanx.crcDone then spanRec 0x0E s.pins.gpos 0 s' else s'

def execSpanCrc (s : State) : Host.Outcome State Fault Refusal := .next (spanCrc s)

/-! ### Election, R434, R435 -/

/-- CLAIM_SEND. -/
def claimSend (s : State) : State :=
  if s.span.role == 1 && s.span.lock then
    sendPacket 0x01 0xFF s.frame.n
      (b8 s.pins.gpos :: (uidBytes s ++ le 16 (s.chan.accepted.getD 0).toNat ++ spanHash s)) s
  else s

def execClaimSend (s : State) : Host.Outcome State Fault Refusal := .next (claimSend s)

/-- The member that a CLAIM tells of. -/
def claimOf (p : Packet) : Member :=
  let b := p.payload
  { pos := byteAt b 0 % 16, uid := leAt b 1 8, feats := BitVec.ofNat 128 (leAt b 9 16), hash := leAt b 25 8, st := 1,
    hops := p.hops, latch := 0 }

/-- A member is entered or renewed. -/
def putMember (m : Member) (s : State) : State :=
  { s with spanx.table := insertBy (fun x => Int.ofNat x.pos) m (s.spanx.table.filter (fun x => x.pos != m.pos)) }

/-- The leader takes a claim: a part that lacks a required feature is excluded, one with another configuration is HELD
(R456, R457), any other may be taken in. -/
def classify (m : Member) (s : State) : State :=
  if (firstMissing s.required m.feats).isSome then
    putMember { m with st := 4 } { s with span.excl := setBit s.span.excl m.pos true }
  else
    let s := { s with span.excl := setBit s.span.excl m.pos false }
    if m.hash == leAt (spanHash s) 0 8 then putMember m s
    else
      let was := getBit s.span.heldMask m.pos
      let s := putMember { m with st := 3 } { s with span.heldMask := setBit s.span.heldMask m.pos true }
      if was then s else spanRec 0x04 m.pos 0 s

/-- CLAIM: a duplicate position is contested, a better claim is noted, a leader takes the claim. -/
def claim (p : Packet) (s : State) : State :=
  if !(heard p s && p.typ == 0x01 && p.payload.length == 33) || s.span.role == 0 || s.span.role == 5 then s
  else
    let m := claimOf p
    if m.pos == s.pins.gpos then
      if m.uid == s.otp.uid then s
      else if m.uid < s.otp.uid then stopFrames (becomeExcluded 0x07 0 s)
      else { s with span.dupPos := true }
    else if s.span.role == 2 then
      if getBit s.span.members m.pos then spanRec 0x03 m.pos 0 (dropMember m.pos 1 s) |> classify m else classify m s
    else if s.span.role == 1 then
      let s := putMember m s
      if m.pos < s.pins.gpos then { s with spanx.claimAt := some s.clk.tb } else s
    else s

def execClaim (p : Packet) (s : State) : Host.Outcome State Fault Refusal := .next (claim p s)

/-- The part leads (R434, R451): its colour is that of its configuration. -/
def lead (s : State) : State :=
  let g := s.pins.gpos
  let ms := s.spanx.table
  let s := { s with
    span.role := 2, span.leader := g, span.split := false, span.joined := true, span.led := true
    span.members := setBit 0 g true, span.heldMask := 0, span.excl := 0, span.hops := 0
    span.colour := cfgColour s.span.config g
    clk.slew := 0
    census.urgent := 0
    spanx.table := []
    spanx.beaconSent := false
    spanx.idHeld := maskOf 64 (fun i => s.pipe.contacts.any (fun c => c.id == i))
    spanx.idIdle := s.pipe.idle }
  let s := { spanRec 0x01 g g s with span.inForce := s.chan.accepted.getD 0 }
  choose 0 (ms.foldl (fun s m => classify m s) s)

/-- ELECTED: for 10 ms no CLAIM ranks before the part's own, and no BEACON was seen. -/
def elected (s : State) : State :=
  if s.span.role == 1 && s.span.lock && atLeastSince 10240 s.spanx.claimAt s.clk.tb then
    if (firstMissing s.required (s.chan.accepted.getD 0)).isSome then s else lead s
  else s

def execElected (s : State) : Host.Outcome State Fault Refusal := .next (elected s)

/-- ADMISSION_RETRY, R457. -/
def execAdmissionRetry (s : State) : Host.Outcome State Fault Refusal :=
  .next (if s.span.role == 5 then startClaim s else s)

/-! ### The beacon as it is sent, R436, R437, R443 -/

/-- The mode that a frame about to begin will have. A leader in SAFE goes by its choice. -/
def nextSel (s : State) : ModeSel :=
  match s.md.pending with
  | some (m, _) => m
  | none => if s.aon.mode == .safe then s.md.chosen else s.sel

/-- The bin that a frame about to begin will have (R114, R120). -/
def nextBin (s : State) : Nat :=
  let k := setOf (nextSel s).rate
  let r := ((s.fe.sets[k]?).map (·.record)).getD []
  if k != s.fe.inUse || r != s.fe.applied.getD k [] then Profile.toneIdx r else s.census.move.getD s.bin

/-- The members that have to answer: the other joined ones that are not in SAFE (R443). -/
def answering (s : State) : BitVec 16 :=
  maskOf 16 (fun p => getBit s.span.members p && p != s.pins.gpos && (match s.member p with
    | some m => m.st != 5
    | none => true))

/-- The parts that ask for admission: those that have adopted, and claimants with the configuration. -/
def askers (s : State) : BitVec 16 :=
  let h := leAt (spanHash s) 0 8
  maskOf 16 (fun p => !getBit s.span.members p && (match s.member p with
    | some m => getBit s.spanx.adopted p || (m.st == 1 && m.hash == h)
    | none => false))

/-- The subject of a mode proposal: mode and rate, and the rate of DOZE. -/
def modeSubject (m : ModeSel) : List Byte := [b8 m.mode.code, b8 m.rate, b8 m.hz]

/-- A mode code and a rate as a mode, R31, R57. -/
def modeOf (s : State) (code rate hz : Nat) : ModeSel :=
  match code with
  | 1 => ⟨.boot, 0, 0⟩
  | 2 => ⟨.hibernate, 0, 0⟩
  | 3 => ⟨.doze, 1, if hz == 0 then dozeRate s.aon (leastNonzero (s.inForce.map (·.wake))) else hz⟩
  | 4 => ⟨.watch, 2, 0⟩
  | 5 => ⟨.active, rate, 0⟩
  | 6 => ⟨.service, rate, 0⟩
  | _ => ⟨.safe, 0, 0⟩

/-- What a beacon says of a proposal: the proposal and its phase, 0 for none. -/
abbrev Said := Option (Proposal × Nat)

/-- The proposal of the last beacon is committed or aborted by the answers (R443). -/
def answerProposal (s : State) : Said × State :=
  match s.spanx.proposal with
  | none => (none, s)
  | some p =>
    let ok := !p.refused && (answering s &&& ~~~p.ready) == 0
    let s := { s with spanx.proposal := none }
    if ok then
      let c := { p with phase := 2 }
      (some (c, 2), { s with spanx.commit := some c
                             spanx.modeNext := if p.kind == 1 then none else s.spanx.modeNext })
    else
      let s := { s with span.aborts := satAdd 65535 s.span.aborts 1, spanx.changes := [] }
      (some (p, 3), spanRec 0x0D s.pins.gpos 0 s)

/-- A new proposal of frame `n`: the mode first, then the configuration, then admission (R443, R455). -/
def propose (n : Nat) (s : State) : Said × State :=
  let mk (kind : Nat) (subject : List Byte) : Proposal :=
    { kind := kind, phase := 1, effect := (n + 2) % 2 ^ 32, subject := subject, ready := 0, refused := false }
  let put (p : Proposal) (s : State) : Said × State := (some (p, 1), { s with spanx.proposal := some p })
  let cs := leaderChanges s
  let ask := askers s
  match s.spanx.modeNext with
  | some m => if m == nextSel s then (none, { s with spanx.modeNext := none }) else put (mk 1 (modeSubject m)) s
  | none =>
    if !cs.isEmpty then
      let bs := changeBytes cs
      put (mk 2 (hashAfter cs s)) { sendConfig 1 0xFF bs 0 bs.length s with spanx.changes := cs }
    else if ask != 0 then put (mk 3 (le 2 ask.toNat)) s
    else (none, s)

/-- A committed mode takes effect at the boundary of its frame (R443). -/
def commitMode (n : Nat) (s : State) : State :=
  match s.spanx.commit with
  | some p =>
    if p.kind == 1 && notAfter p.effect n then
      let m := modeOf s (byteAt p.subject 0) (byteAt p.subject 1) (byteAt p.subject 2)
      let s := { s with spanx.commit := none }
      if s.aon.mode == .safe then { s with md.chosen := m } else { s with md.pending := some (m, 1) }
    else s
  | none => s

/-- Members that a commit due in frame `n` takes in. -/
def joiningAt (n : Nat) (s : State) : BitVec 16 :=
  match s.spanx.commit with
  | some p => if p.kind == 3 && p.effect == n then BitVec.ofNat 16 (leAt p.subject 0 2) else 0
  | none => 0

/-- The wall clock when the timebase reads `t`, which lies at or after the present. -/
def utcAt (t : Nat) (s : State) : Nat := (wcAdd ((t + 2 ^ 48 - s.clk.tb) % 2 ^ 48) s.wc).secs

/-- The payload of the beacon of frame `n`. -/
def beaconBytes (n : Nat) (said : Said) (s : State) : List Byte :=
  let m := nextSel s
  let p := match said with
    | some (p, ph) => [b8 p.kind, b8 ph] ++ le 4 p.effect ++ fit 8 0 p.subject
    | none => zeros 14
  le 4 n ++ le 6 (nextBoundary s).1 ++ le 8 (utcAt (nextBoundary s).1 s) ++ spanHash s ++
    [b8 m.mode.code, b8 m.rate, b8 (nextBin s), b8 (s.span.cepoch + flag s.spanx.recolour)] ++ le 16 s.span.inForce.toNat ++
    le 2 (s.span.members ||| joiningAt n s).toNat ++ le 2 s.span.rtt ++ p

/-- Each pulling member gets at most 4 096 bytes (R454). -/
def servePulls (s : State) : State :=
  let bs := cfgBlob s
  let s := s.spanx.pulls.foldl (fun s (p, off) => sendConfig 0 p bs off (min 4096 (bs.length - off)) s) s
  { s with spanx.pulls := (s.spanx.pulls.map (fun (p, off) => (p, off + 4096))).filter (fun x => x.2 < bs.length) }

/-- BEACON_SEND: the beacon of the frame about to begin. -/
def beaconSend (s : State) : State :=
  if s.span.role != 2 || !s.span.lock || (s.spanx.beaconSent && s.aon.mode != .safe) ||
      !(s.framesRun || framesIn (nextSel s)) then s
  else
    let n := frameNumber s
    let s := commitMode n s
    let (said, s) := answerProposal s
    let free := said.isNone && s.spanx.commit.isNone
    let (said, s) := if free then propose n s else (said, s)
    let b := beaconBytes n said s
    let bin := if nextBin s == s.bin then none else some (nextBin s)
    let s := { s with spanx.beacon := some b, spanx.beaconSent := true, spanx.recolour := false, spanx.binSaid := bin }
    let s := sendPacket 0x02 0xFF n b s
    let s := servePulls s
    if s.aon.mode == .safe then { s with frame.n := n, frame.started := true } else s

def execBeaconSend (s : State) : Host.Outcome State Fault Refusal := .next (beaconSend s)

/-! ### The beacon as a follower takes it, R438, R439 -/

/-- A time as the 48-bit timebase holds it. -/
def wrap48 (x : Int) : Nat :=
  let m : Int := 281474976710656
  (x % m).toNat

/-- Where B(N) lies: the reception + 20 us - k rtt / n, in ticks of the present timebase. -/
def beaconPlace (p : Packet) (s : State) : Nat :=
  let delay := if s.span.parts == 0 then 0 else p.hops * leAt p.payload 48 2 / s.span.parts
  wrap48 ((s.clk.tb : Int) + roundDiv ((20000 - (delay : Int)) * 1024) 1000000)

/-- The signed distance from `b` to `a` on the 48-bit timebase. -/
def tickDiff (a b : Nat) : Int :=
  let d : Nat := (a + 2 ^ 48 - b % 2 ^ 48) % 2 ^ 48
  if d < 2 ^ 47 then (d : Int) else (d : Int) - 281474976710656

/-- A timebase that differs by more than 10 ms. -/
def farTime (d : Int) : Bool := 10240 < absN d

/-- The timebase steps to the beacon's time at a join, with the record TIME_STEP (R439). -/
def stepTime (d : Int) (s : State) : State :=
  let tb := wrap48 ((s.clk.tb : Int) - d)
  spanRec 0x0A s.pins.gpos (toU 16 (sat16 (roundDiv (-d * 1000) 1024000))) { s with clk.tb := tb }

/-- The wall clock follows the beacon's utc. -/
def followClock (utc : Nat) (s : State) : State :=
  if utc != 0 && (!s.wc.set || 2 ≤ max utc s.wc.secs - min utc s.wc.secs) then (setClock 2 utc 0 s).2 else s

/-- The mode of the beacon governs its frame; SAFE and a forced HIBERNATE of the part's own stand (R443, R453). -/
def followMode (code rate : Nat) (s : State) : State :=
  let m := modeOf s code rate 0
  if s.aon.mode == .safe || s.md.hibEntry || s.aon.mode == .hibernate then { s with md.chosen := m }
  else if m.mode == s.aon.mode && m.rate == s.aon.rate then { s with md.chosen := m, md.pending := none }
  else if framesIn m then
    let s := { s with md.chosen := m, md.pending := some (m, 1) }
    if s.framesRun then s else senseOn s
  else if s.framesRun then { s with md.chosen := m, md.pending := some (m, 1) }
  else enterMode m 1 { s with md.chosen := m }

/-- A claimant joins the ring of a beacon (R439, R448, R456, R459): the frame it runs is discarded, and a part whose
configuration differs is HELD. -/
def join (p : Packet) (d : Int) (s : State) : State :=
  let n := leAt p.payload 0 4
  let same := slice p.payload 18 8 == spanHash s
  let s := if s.framesRun && s.frame.sensed then
      { s with frame.sensed := false, eng.slipCnt := satAdd 65535 s.eng.slipCnt 1 }
    else s
  let s := { s with span.role := 3, span.leader := p.src % 16, span.split := false, span.joined := false,
                    cal.endDone := s.cal.endDone.map (fun _ => n / 256 % 2 ^ 24) }
  let s := if farTime d then stepTime d s else s
  if same then s else becomeHeld s

/-- The joined mask of a beacon takes the part in, or drops it. -/
def followJoined (b : List Byte) (s : State) : State :=
  let own := bit (leAt b 46 2) s.pins.gpos
  let s := { s with span.members := BitVec.ofNat 16 (leAt b 46 2) }
  if s.span.role != 3 then s
  else
    let s := if own then { s with span.inForce := BitVec.ofNat 128 (leAt b 30 16) } else s
    if own && !s.span.joined then
      { s with span.joined := true, span.colour := cfgColour s.span.config s.pins.gpos, span.cepoch := byteAt b 29,
               census.urgent := 0 }
    else if !own && s.span.joined then darken { s with span.joined := false }
    else s

/-- A follower's answer to a proposal, and what it keeps of a commit (R443). -/
def followProposal (b : List Byte) (s : State) : State :=
  let kind := byteAt b 50
  let subject := slice b 56 8
  let p : Proposal := { kind := kind, phase := byteAt b 51, effect := leAt b 52 4, subject := subject, ready := 0,
                        refused := false }
  match byteAt b 51 with
  | 1 =>
    let named := kind == 3 && bit (leAt subject 0 2) s.pins.gpos
    let s := { s with spanx.proposal := some p }
    if !(s.span.role == 3 && (s.span.joined || named)) then s
    else if s.aon.mode == .safe then sendReady 3 0 s
    else if kind == 2 && hashAfter s.spanx.changes s != subject then sendReady 1 0 s
    else sendReady 0 0 s
  | 2 =>
    if s.span.role == 3 then { s with spanx.commit := if kind == 1 then none else some p, spanx.proposal := none } else s
  | 3 => { s with spanx.proposal := none, spanx.changes := [] }
  | _ => { s with spanx.proposal := none }

/-- BEACON, R438, R439, R443. -/
def beacon (p : Packet) (s : State) : State :=
  let b := p.payload
  if !(heard p s && p.typ == 0x02 && b.length == 64 && p.src % 16 != s.pins.gpos) then s
  else if !(s.span.role == 1 || s.span.role == 3 || s.span.role == 4) then s
  else
    let place := beaconPlace p s
    let d := tickDiff place (leAt b 4 6)
    let missing := firstMissing s.required (s.chan.accepted.getD 0)
    let same := slice b 18 8 == spanHash s
    if same && missing.isSome then stopFrames (becomeExcluded 0x06 (missing.getD 0) s)
    else if s.span.role != 1 && farTime d then
      stopFrames { clearRing s with span.role := 1, spanx.claimAt := some s.clk.tb }
    else
      let joining := s.span.role == 1
      let s := if joining then join p d s else s
      let step := joining && farTime d
      let place := if step then wrap48 ((place : Int) - d) else place
      let d := if step then 0 else d
      let us := roundDiv (d * 1000) 1024
      let s := { s with
        span.d := us
        clk.slew := clampI (-500) 500 (-us)
        span.hops := p.hops
        span.rtt := leAt b 48 2
        span.leader := p.src % 16
        spanx.beacon := some b
        spanx.beaconAt := place }
      followProposal b (followMode (byteAt b 26) (byteAt b 27) (followJoined b (followClock (leAt b 10 8) s)))

def execBeacon (p : Packet) (s : State) : Host.Outcome State Fault Refusal := .next (beacon p s)

/-! ### Answers, pulls and configuration, R443, R456 -/

/-- READY, at the leader: answers to a proposal, an adoption, a member in SAFE, and one that is HELD again (R443, R455, R456). -/
def ready (p : Packet) (s : State) : State :=
  if !(heard p s && p.typ == 0x06 && s.span.role == 2 && 6 ≤ p.payload.length) then s
  else
    let q := p.src % 16
    match byteAt p.payload 0 with
    | 0 =>
      let s := modMember q (fun m => if m.st == 5 then { m with st := 2 } else m) s
      let s := if getBit s.span.heldMask q && !getBit s.spanx.adopted q then
          let s := spanRec 0x05 q 0 { s with spanx.adopted := setBit s.spanx.adopted q true }
          modMember q (fun m => { m with hash := leAt (spanHash s) 0 8 }) s
        else s
      { s with spanx.proposal := s.spanx.proposal.map (fun x => { x with ready := setBit x.ready q true }) }
    | 3 => modMember q (fun m => { m with st := 5 }) s
    | 4 =>
      if getBit s.span.members q then
        spanRec 0x04 q 0 { dropMember q 3 s with span.heldMask := setBit s.span.heldMask q true }
      else s
    | _ =>
      if getBit s.span.members q then { s with spanx.proposal := s.spanx.proposal.map (fun x => { x with refused := true }) }
      else s

def execReady (p : Packet) (s : State) : Host.Outcome State Fault Refusal := .next (ready p s)

/-- PULL, at the leader: the member is sent the configuration from its start. -/
def pull (p : Packet) (s : State) : State :=
  if !(heard p s && p.typ == 0x08 && s.span.role == 2) then s
  else
    let q := p.src % 16
    { s with spanx.pulls := s.spanx.pulls.filter (fun x => x.1 != q) ++ [(q, 0)] }

def execPull (p : Packet) (s : State) : Host.Outcome State Fault Refusal := .next (pull p s)

/-- A whole configuration has come: it is verified, and adopted at the next K, or reported (R456, R467). -/
def pulledAll (b : List Byte) (s : State) : State :=
  let r := blobResult s b
  if r == 0 then { s with spanx.adopt := some b }
  else
    let s := spanRec 0x0F s.pins.gpos r s
    let s := completeOpt s.spanx.pullTag 0 [1, b8 r] s
    sendReady 2 r { s with spanx.pullTag := none }

/-- CONFIG: the parts of a kind come in order; kind 0 the whole, 1 a change to be committed, 2 a change in effect. -/
def config (p : Packet) (s : State) : State :=
  let b := p.payload
  if !(heard p s && p.typ == 0x07 && 9 ≤ b.length && (s.span.role == 3 || s.span.role == 4)) then s
  else
    let kind := byteAt b 0
    let off := leAt b 1 4
    let total := leAt b 5 4
    let data := b.drop 9
    let start : Bool := off == 0
    if !start && !(kind == s.spanx.recvKind && off == s.spanx.recv.length) then s
    else
      let got := if start then data else s.spanx.recv ++ data
      let s := { s with spanx.recvKind := kind, spanx.recvTotal := total, spanx.recv := got
                        span.pulled := if kind == 0 then got.length else s.span.pulled }
      if got.length < total then s
      else
        let s := { s with spanx.recv := [], spanx.recvTotal := 0 }
        let cs := changesOf got.length got
        match kind with
        | 0 => pulledAll got s
        | 1 => if s.span.joined then { s with spanx.changes := cs } else s
        | _ => if s.span.joined && !s.framesRun then applyChanges false cs s else s

def execConfig (p : Packet) (s : State) : Host.Outcome State Fault Refusal := .next (config p s)

/-! ### The census, R447 -/

/-- CENSUS, at the leader: one packet of each member for its decision. -/
def census (p : Packet) (s : State) : State :=
  if heard p s && p.typ == 0x03 && s.span.role == 2 && p.payload.length == 68 && getBit s.span.members (p.src % 16) &&
      p.frame == s.frame.n % 256 then
    { s with spanx.censuses := s.spanx.censuses.filter (fun x => x.1 != p.src % 16) ++ [(p.src % 16, p.payload)] }
  else s

def execCensus (p : Packet) (s : State) : Host.Outcome State Fault Refusal := .next (census p s)

/-! ### Records and messages, R264, R449 -/

/-- RELAY, at the leader: context and record, or the end marker of a member; a record of a frame already published counts as
late. -/
def relay (p : Packet) (s : State) : State :=
  let now : Bool := p.frame == s.frame.comp % 256
  if !(heard p s && p.typ == 0x09 && s.span.role == 2) then s
  else if p.payload == [0xFF] then (if now then { s with spanx.markers := setBit s.spanx.markers (p.src % 16) true } else s)
  else if !(p.payload.length == 17 && byteAt p.payload 0 < 32) then s
  else
    let r := recOf (p.payload.drop 1)
    let s := if !now || s.frame.phase == 3 then { s with span.late := satAdd 65535 s.span.late 1 } else s
    putCtx (byteAt p.payload 0) { r with origin := r.origin % 128 + 128 } s

def execRelay (p : Packet) (s : State) : Host.Outcome State Fault Refusal := .next (relay p s)

/-- MSG: the message reaches the copy of its context at the next K (R264). One without words says that the context trapped on
its sender (R235). -/
def msg (p : Packet) (s : State) : State :=
  if !(heard p s && p.typ == 0x0A && s.inSpan && byteAt p.payload 0 < 32) then s
  else if p.payload.length == 1 then { s with spanx.faultNext := setBit s.spanx.faultNext (byteAt p.payload 0) true }
  else if p.payload.length == 9 then
    { s with spanx.msgsIn := s.spanx.msgsIn ++ [(byteAt p.payload 0, p.src % 16, p.payload.drop 1)] }
  else s

def execMsg (p : Packet) (s : State) : Host.Outcome State Fault Refusal := .next (msg p s)

end Sys2Proof.Machine
end

