-- ==== Sys2Proof/Machine/SpanHost.lean ====
section
/-! DEFINITION. The span commands of the host, and commands relayed to followers (R464-R468).
Conventions that the spec leaves open: log 22 (DEDUCED). -/

namespace Sys2Proof.Machine
open Sys2Proof

/-! ### SPAN_CONFIG to SPAN_PULL -/

/-- SPAN_CONFIG, R451, R464: a leader proposes the record, any other part stores it for when it leads. -/
def cmdSpanConfig : Cmd :=
  { checks := fun _ pl s => { feats := [48], lenOk := pl.length == 48, longest := 1, held := true
                              inRange := spanCfgOk s pl, flight := true }
    run := fun p pl s =>
      let (t, s) := takeTag p 0x80 none s
      if s.leads then tagged t (deferCmd p 0x80 (pl ++ [b8 t]) s)
      else
        let s := { s with span.config := pl }
        tagged t (completeTag t 0 (le 4 s.frameOr ++ spanHash s) s) }

def execSpanConfig (u : HostUnit) (s : State) : Host.Outcome State Fault Refusal := hostRow 0x80 cmdSpanConfig u s

/-- SPAN_STATE. -/
def cmdSpanState : Cmd :=
  { checks := fun _ pl _ => { feats := [48], lenOk := pl.length == 0, longest := 32 }
    run := fun _ pl s => live 0x81 pl s }

def execSpanState (u : HostUnit) (s : State) : Host.Outcome State Fault Refusal := hostRow 0x81 cmdSpanState u s

/-- SPAN_MEMBERS. -/
def cmdSpanMembers : Cmd :=
  { checks := fun p pl _ => { feats := [48], lenOk := pl.length == 2, longest := 16 * byteAt pl 1
                              inRange := 1 ≤ byteAt pl 1 && byteAt pl 1 ≤ (if p == .tw then 14 else 16) &&
                                byteAt pl 0 + byteAt pl 1 ≤ 16 }
    run := fun _ pl s => live 0x82 pl s }

def execSpanMembers (u : HostUnit) (s : State) : Host.Outcome State Fault Refusal := hostRow 0x82 cmdSpanMembers u s

/-- SPAN_PULL: with no leader, as while claiming or excluded, it completes at once. -/
def cmdSpanPull : Cmd :=
  { checks := fun _ pl s => { feats := [48], lenOk := pl.length == 0, longest := 1
                              busy := s.span.role == 0 || s.span.role == 2 || s.spanx.pullTag.isSome, flight := true }
    run := fun p _ s =>
      let (t, s) := takeTag p 0x83 none s
      if s.span.role == 5 || s.span.role == 1 then tagged t (completeTag t 0 [2, 0] s)
      else tagged t (sendPull { s with spanx.pullTag := some t }) }

def execSpanPull (u : HostUnit) (s : State) : Host.Outcome State Fault Refusal := hostRow 0x83 cmdSpanPull u s

/-! ### SPAN_RELAY and what a follower does with it -/

/-- Codes that are never relayed. -/
def notRelayed (code : Nat) : Bool := code == 0x84 || code == 0x03 || code == 0x04

/-- SPAN_RELAY: a request of [0, port, code, payload] goes to the member. -/
def cmdSpanRelay : Cmd :=
  { checks := fun p pl s => { served := pl.length < 2 || !notRelayed (byteAt pl 1), feats := [48]
                              lenOk := 2 ≤ pl.length && pl.length ≤ 2 + (if p == .tw then 240 else 1021)
                              longest := 1, held := true, busy := s.span.role != 2
                              inRange := byteAt pl 0 ≤ 15, flight := true }
    run := fun p pl s =>
      let (t, s) := takeTag p 0x84 none s
      let b := [0, b8 (portNum p), b8 (byteAt pl 1)] ++ pl.drop 2
      tagged t (sendPacket 0x0B (byteAt pl 0) s.frame.n b { s with spanx.relays := s.spanx.relays ++ [(byteAt pl 0, t)] }) }

def execSpanRelay (u : HostUnit) (s : State) : Host.Outcome State Fault Refusal := hostRow 0x84 cmdSpanRelay u s

/-- The commands by their codes, R339. -/
def cmdOf : Nat → Cmd
  | 0x00 => cmdStatus
  | 0x01 => cmdIdent
  | 0x02 => cmdFeatRead
  | 0x05 => cmdFaultRead
  | 0x06 => cmdFaultClear
  | 0x07 => cmdTagRead
  | 0x08 => cmdAliveResync
  | 0x10 => cmdCtxOpen
  | 0x11 => cmdCtxClose
  | 0x12 => cmdCtxContract
  | 0x13 => cmdCtxRegion
  | 0x14 => cmdCtxStock
  | 0x15 => cmdCtxStart
  | 0x16 => cmdCtxStop
  | 0x17 => cmdCtxState
  | 0x18 => cmdCtxMailWrite
  | 0x19 => cmdCtxMailRead
  | 0x20 => cmdImgBegin
  | 0x21 => cmdImgData
  | 0x22 => cmdImgEnd
  | 0x23 => cmdImgFromFlash
  | 0x24 => cmdImgList
  | 0x25 => cmdImgAbort
  | 0x26 => cmdImgKeyRead
  | 0x27 => cmdImgKeyProg
  | 0x30 => cmdEvtRead
  | 0x31 => cmdEvtAck
  | 0x32 => cmdEvtMask
  | 0x33 => cmdJournalRead
  | 0x40 => cmdFeProfile
  | 0x41 => cmdFeGet
  | 0x42 => cmdFeSet
  | 0x43 => cmdImageRead
  | 0x44 => cmdCensusRead
  | 0x45 => cmdForceCfg
  | 0x46 => cmdClampRead
  | 0x50 => cmdCalState
  | 0x51 => cmdCalFreeze
  | 0x52 => cmdCalSeed
  | 0x53 => cmdCalSnapshot
  | 0x54 => cmdCalRestore
  | 0x60 => cmdThermRead
  | 0x61 => cmdThermPolicy
  | 0x62 => cmdFanSet
  | 0x63 => cmdFanSkip
  | 0x64 => cmdFanState
  | 0x65 => cmdBlSet
  | 0x66 => cmdBlCurve
  | 0x70 => cmdPowerCap
  | 0x71 => cmdPowerState
  | 0x72 => cmdPowerForce
  | 0x73 => cmdPowerGrants
  | 0x80 => cmdSpanConfig
  | 0x81 => cmdSpanState
  | 0x82 => cmdSpanMembers
  | 0x83 => cmdSpanPull
  | 0x90 => cmdMemProfile
  | 0x91 => cmdMemDiscover
  | 0x92 => cmdMemRead
  | 0x93 => cmdMemProgram
  | 0x94 => cmdMemErase
  | 0x95 => cmdMemState
  | 0x96 => cmdMemXip
  | 0xA0 => cmdClockSet
  | 0xA1 => cmdClockRead
  | 0xA2 => cmdLedgerConfig
  | 0xA3 => cmdLedgerState
  | 0xA4 => cmdLedgerRead
  | 0xB0 => cmdDiagSelftest
  | 0xB1 => cmdDiagPins
  | 0xB2 => cmdDiagLoopback
  | 0xE0 => cmdRegRead
  | 0xE1 => cmdRegWrite
  | 0xF0 => cmdReset
  | _ => unassigned

/-- A relayed command on a follower: checked from step 3 of R303 as if it had come to its port with a session open, and
carried out. Answers the error code and the reply; none after a RESET. -/
def relayed (p : Port) (code : Nat) (pl : List Byte) (s : State) : Option (List Byte) × State :=
  let c := cmdOf code
  let k := c.checks p pl s
  let v := verdict p true k s
  if v != 0 then (some (b8 v :: if v == 0x0D then k.data else []), s)
  else
    match c.run p pl s with
    | (.none, s) => (none, s)
    | (.fixed bs, s) => (some bs, s)
    | (.live code pl, s) =>
      let (bs, s) := liveReply p code pl s
      (some bs, s)

/-- CMD: a request at a follower, or a reply at the leader, to the oldest command relayed to its sender, whose first byte the
completion carries as it is. -/
def cmdPacket (p : Packet) (s : State) : State :=
  let b := p.payload
  if !(heard p s && p.typ == 0x0B && 3 ≤ b.length) then s
  else if byteAt b 0 == 0 then
    if s.span.role == 3 || s.span.role == 4 then
      let port := if byteAt b 1 == 0 then Port.tw else Port.hs
      match relayed port (byteAt b 2) (b.drop 3) s with
      | (none, s) => s
      | (some r, s) => sendPacket 0x0B s.span.leader s.frame.n ([1, b8 (byteAt b 1), 0] ++ r) s
    else s
  else
    match (if s.span.role == 2 then s.spanx.relays.find? (fun r => r.1 == p.src % 16) else none) with
    | some r => completeTag r.2 0 (b.drop 3) { s with spanx.relays := s.spanx.relays.erase r }
    | none => s

def execCmd (p : Packet) (s : State) : Host.Outcome State Fault Refusal := .next (cmdPacket p s)

/-- SPAN_RELAY_TIMEOUT: no completion of the oldest relayed command after 100 ms. -/
def execSpanRelayTimeout (s : State) : Host.Outcome State Fault Refusal :=
  .next (match s.spanx.relays with
    | r :: rs => completeTag r.2 0x0E [] { s with spanx.relays := rs }
    | [] => s)

end Sys2Proof.Machine
end

