-- ==== Sys2Proof/Machine/Stitch.lean ====
section
/-! DEFINITION. The stitch pass of a span: STITCH, the leader's decisions, DECIDE, and frames without it (R444-R446, R460).
Conventions that the spec leaves open: log 13 (DESIGN CHOICE). -/

namespace Sys2Proof.Machine
open Sys2Proof

/-! ### STITCH, R444 -/

/-- A seam fragment as STITCH carries it; `id` 0xFF for none, and for a palm `w` is its major axis in 0.1 mm. -/
structure SeamFrag where
  pos : Nat
  gx : Nat
  gy : Nat
  w : Nat
  delta : Nat
  cls : Nat
  count : Nat
  id : Nat
  onset : Nat
  peak : Nat
  deriving DecidableEq, Repr

/-- Its 16 bytes. -/
def SeamFrag.bytes (f : SeamFrag) : List Byte :=
  le 2 f.gx ++ le 2 f.gy ++ le 2 (min 65535 f.w) ++ le 2 (min 32767 f.delta) ++ [b8 (f.cls % 8 + 8 * min 31 f.count), b8 f.id] ++
    le 4 f.onset ++ le 2 f.peak

/-- The fragment that 16 bytes of a member spell. -/
def seamFragOf (pos : Nat) (b : List Byte) : SeamFrag :=
  { pos := pos, gx := leAt b 0 2, gy := leAt b 2 2, w := leAt b 4 2, delta := leAt b 6 2, cls := byteAt b 8 % 8,
    count := byteAt b 8 / 8, id := byteAt b 9, onset := leAt b 10 4, peak := leAt b 14 2 }

/-- The sides of a tile that are seams and that a disc reaches, as `seamSides` lists them. -/
def reaches (c : List Byte) (p : Nat) (x y radius : Int) : Bool :=
  ((seamSides c p).zip (sideDist c p x y)).any (fun (b, d) => b && d ≤ radius)

/-- The seam fragments of the part, strongest first: those whose peak lies at a seam (R433), and the palms whose shadow reaches
another tile, which DECIDE is to carry (R446). -/
def seamFrags (s : State) : List SeamFrag :=
  if !s.stitching then []
  else
    let d := s.planes.delta.toArray
    let ca := s.planes.cls.toArray
    let fs := s.pipe.frags.filter (fun f =>
      atSeam s.geom s.tilePos f.peak || (f.cls == 5 && reaches s.geom s.tilePos f.x f.y (3 * f.axis / 4)))
    (sortBy (fun (f : Frag) => -(f.amp * 4096) + f.peak) fs).map (fun f =>
      let (gx, gy) := globalPos s f.x f.y
      let ct := s.pipe.contacts.find? (fun c => c.matched && c.peak == f.peak)
      let cd := s.pipe.cands.find? (fun c => c.matched && c.peak == f.peak)
      { pos := s.pins.gpos, gx := gx, gy := gy
        w := if f.cls == 5 then absN f.axis / 65536 else (centroid s.pitch d ca f.peak).2.2.toNat
        delta := (max f.amp 0).toNat, cls := f.cls
        count := (cd.map (·.count)).getD 0
        id := (ct.map (·.id)).getD 0xFF
        onset := match ct, cd with
          | some c, _ => c.onset
          | none, some c => c.onset
          | none, none => s.frame.mutComp
        peak := f.peak })

/-- Contexts FAULTED on the part. -/
def State.faultedCtxs (s : State) : BitVec 32 := maskOf 32 (fun i => (s.ctx i).st == 5)

/-- The payload of STITCH: counts, fragments, candidates due for the places that remain, ended IDs, fault summary, faulted contexts. -/
def stitchBytes (s : State) : List Byte :=
  let fs := (seamFrags s).take 6
  let cs := (dueCands s).take (min 7 s.places)
  let ended := (s.spanx.endSaid ||| maskOf 64 (fun i => s.pipe.endedList.any (fun c => c.id == i))).toNat
  [b8 fs.length, b8 cs.length] ++ fs.flatMap (·.bytes) ++ cs.flatMap (fun c => le 2 (c.peak + 4096 * c.cls)) ++ le 8 ended ++
    le 4 s.chan.faults.toNat ++ le 4 s.faultedCtxs.toNat

/-- Fragments, candidates as (peak, class), ended IDs, fault summary and faulted contexts of a STITCH. -/
structure StitchIn where
  pos : Nat
  frags : List SeamFrag
  due : List (Nat × Nat)
  ended : Nat
  faults : Nat
  faulted : Nat

/-- A STITCH as its bytes spell it. -/
def stitchOf (pos : Nat) (b : List Byte) : StitchIn :=
  let n := byteAt b 0
  let m := byteAt b 1
  let o := 2 + 16 * n
  let e := o + 2 * m
  { pos := pos
    frags := (List.range n).map (fun k => seamFragOf pos (slice b (2 + 16 * k) 16))
    due := (List.range m).map (fun k => (leAt b (o + 2 * k) 2 % 4096, leAt b (o + 2 * k) 2 / 4096))
    ended := leAt b e 8, faults := leAt b (e + 8) 4, faulted := leAt b (e + 12) 4 }

/-- Seam fragments beyond the sixth are held. -/
def holdRest (s : State) : State := (((seamFrags s).drop 6).map (·.peak)).foldl (fun s p => holdPeak p s) s

/-- STITCH_PASS: once in the computation of a joined member. -/
def stitchPass (s : State) : State :=
  if !(s.inSpan && s.frame.phase == 1 && !s.spanx.stitchSent) then s
  else
    let s := holdRest s
    let b := stitchBytes s
    let s := { s with spanx.stitchSent := true, spanx.endSaid := 0 }
    if s.span.role == 2 then
      { s with spanx.stitches := s.spanx.stitches.filter (fun x => x.1 != s.pins.gpos) ++ [(s.pins.gpos, b)] }
    else sendPacket 0x04 s.span.leader s.frame.comp b s

def execStitchPass (s : State) : Host.Outcome State Fault Refusal := .next (stitchPass s)

/-- STITCH, at the leader: for the frame it computes. A bit of a fault summary that first latches is reported (R449), and
contexts that trapped are noted (R235). -/
def stitch (p : Packet) (s : State) : State :=
  let q := p.src % 16
  if !(heard p s && p.typ == 0x04 && s.span.role == 2 && getBit s.span.members q && q != s.pins.gpos &&
      p.frame == s.frame.comp % 256 && s.frame.phase == 1) then s
  else
    let x := stitchOf q p.payload
    let s := { s with spanx.stitches := s.spanx.stitches.filter (fun (y : Nat × List (BitVec 8)) => y.1 != q) ++ [(q, p.payload)]
                      spanx.faultNext := s.spanx.faultNext ||| BitVec.ofNat 32 x.faulted
                      spanx.lateRuns := s.spanx.lateRuns.set q 0, spanx.lateDone := s.spanx.lateDone.set q false }
    match s.member q with
    | none => s
    | some m =>
      let fresh := BitVec.ofNat 32 x.faults &&& ~~~(BitVec.ofNat 32 m.latch)
      let s := modMember q (fun m => { m with latch := x.faults }) s
      if fresh == 0 then s else spanRec 0x0C q (x.faults % 65536) s

def execStitch (p : Packet) (s : State) : Host.Outcome State Fault Refusal := .next (stitch p s)

/-! ### Decisions, R445 -/

/-- A decision on one fragment or candidate of a member. Kinds: 1 owner, 2 given up, 3 a new contact, 4 held, 5 owner of a
new contact. -/
structure Entry where
  pos : Nat
  peak : Nat
  kind : Nat
  id : Nat
  owner : Nat
  gx : Nat
  gy : Nat
  cls : Nat
  count : Nat
  onset : Nat
  deriving DecidableEq, Repr

/-- Its 16 bytes. -/
def Entry.bytes (e : Entry) : List Byte :=
  [b8 e.pos] ++ le 2 e.peak ++ [b8 e.kind, b8 e.id, b8 e.owner] ++ le 2 e.gx ++ le 2 e.gy ++ [b8 e.cls, b8 (min 255 e.count)] ++
    le 4 e.onset

/-- The decision that 16 bytes spell. -/
def entryOf (b : List Byte) : Entry :=
  { pos := byteAt b 0, peak := leAt b 1 2, kind := byteAt b 3, id := byteAt b 4, owner := byteAt b 5, gx := leAt b 6 2,
    gy := leAt b 8 2, cls := byteAt b 10, count := byteAt b 11, onset := leAt b 12 4 }

/-- The place of a node of a tile in the surface's frame. -/
def peakAt (c : List Byte) (pos peak : Nat) : Int × Int :=
  placeAt c pos (nodeX (cfgPitch c) peak) (nodeY (cfgPitch c) peak)

/-- Peaks of two tiles at most 1.5 pitches apart. -/
def meets (c : List Byte) (f g : SeamFrag) : Bool :=
  let (x, y) := peakAt c f.pos f.peak
  let (u, v) := peakAt c g.pos g.peak
  f.pos != g.pos && 4 * dist2 x y u v ≤ 9 * (cfgPitch c * 65536) ^ 2

/-- Fragments by their owners, an owner before what it takes; in the order highest peak, lowest position. -/
def groupFrags (c : List Byte) : Nat → List SeamFrag → List (SeamFrag × List SeamFrag)
  | 0, _ => []
  | _, [] => []
  | k + 1, f :: fs =>
    let same := fs.filter (meets c f)
    (f, same) :: groupFrags c k (fs.filter (fun g => !meets c f g))

/-- Whether a fragment faces a joined member whose STITCH is absent. -/
def facesAbsent (s : State) (present : BitVec 16) (f : SeamFrag) : Bool :=
  let c := s.span.config
  let w := cfgW c
  let ds := sideDist c f.pos (nodeX (cfgPitch c) f.peak) (nodeY (cfgPitch c) f.peak)
  let qs : List Nat := [f.pos - 1, f.pos + 1, f.pos - w, f.pos + w]
  ((seamSides c f.pos).zip (ds.zip qs)).any (fun (b, d, q) =>
    b && d ≤ 2 * cfgPitch c * 65536 && getBit s.span.members q && !getBit present q)

/-- The one contact of a group: class of the owner, weighted position, earlier onset, higher count, an ID that one of
them holds. -/
def mergeGroup (f : SeamFrag) (gs : List SeamFrag) : Entry :=
  let all := f :: gs
  let w := sumN (all.map (·.w))
  let avg (g : SeamFrag → Nat) : Nat := if w == 0 then g f else (2 * sumN (all.map (fun x => g x * x.w)) + w) / (2 * w)
  { pos := f.pos, peak := f.peak, kind := 1, id := (((all.find? (fun g => g.id != 0xFF)).map (·.id)).getD 0xFF),
    owner := f.pos, gx := avg (·.gx), gy := avg (·.gy), cls := f.cls, count := all.foldl (fun a g => max a g.count) 0,
    onset := all.foldl (fun a g => if (a + 2 ^ 32 - g.onset) % 2 ^ 32 < 2 ^ 31 then g.onset else a) f.onset }

/-- An entry for a fragment alone. -/
def loneEntry (kind owner : Nat) (f : SeamFrag) : Entry :=
  { pos := f.pos, peak := f.peak, kind := kind, id := f.id, owner := owner, gx := f.gx, gy := f.gy, cls := f.cls,
    count := f.count, onset := f.onset }

/-- The decisions of one group. `due` says whether a fragment's candidate is due. -/
def groupEntries (s : State) (present : BitVec 16) (due : SeamFrag → Bool) (g : SeamFrag × List SeamFrag) : List Entry :=
  let (f, gs) := g
  let all := f :: gs
  if all.any (facesAbsent s present) then all.map (loneEntry 4 f.pos)
  else if gs.isEmpty then []
  else
    let m := mergeGroup f gs
    let m := if m.id == 0xFF && all.any due then { m with kind := 5 } else m
    m :: gs.map (fun g => { loneEntry 2 f.pos g with id := m.id })

/-- The lowest ID that has been idle across the span for 4 counted frames. -/
def spanFreeId (held : BitVec 64) (idle : List Nat) : Option Nat :=
  (List.range 64).find? (fun i => !getBit held i && 4 ≤ idle.getD i 0)

/-- New contacts take their IDs one at a time; one without an ID waits. -/
def giveIds (idle : List Nat) : List Entry → BitVec 64 → List Entry × BitVec 64
  | [], held => ([], held)
  | e :: es, held =>
    match spanFreeId held idle with
    | none => giveIds idle es held
    | some i =>
      let (r, h) := giveIds idle es (setBit held i true)
      ({ e with id := i } :: r, h)

/-- Entries that a DECIDE of 512 bytes holds beside 4 palms (R454). -/
def maxEntries : Nat := 28

/-- The place in a tile's own frame of a point of the surface. -/
def placeBack (c : List Byte) (p : Nat) (gx gy : Int) : Int × Int :=
  let tw : Int := 64 * cfgPitch c * 65536
  let th : Int := 40 * cfgPitch c * 65536
  let x := gx - (p % cfgW c) * cfgCW c * 65536
  let y := gy - (p / cfgW c) * cfgCH c * 65536
  let (u, v) := match cfgRot c p with
    | 0 => (x, y)
    | 1 => (y, th - x)
    | 2 => (tw - x, th - y)
    | _ => (tw - y, x)
  (if cfgMirror c p then tw - u else u, v)

/-- What the leader decides: the entries, and the IDs held after them. Of two contacts that are
one, the ID that is not kept is idle from here. -/
def decisions (s : State) (xs : List StitchIn) : List Entry × BitVec 64 × List Nat :=
  let c := s.span.config
  let present := maskOf 16 (fun p => xs.any (fun x => x.pos == p))
  let ended := xs.foldl (fun m x => m ||| BitVec.ofNat 64 x.ended) 0
  let frags := xs.flatMap (·.frags)
  let held := (s.spanx.idHeld &&& ~~~ended) ||| maskOf 64 (fun i => frags.any (fun f => f.id == i))
  let idle := s.spanx.idIdle.mapIdx (fun i n =>
    if getBit ended i then 0 else if getBit held i then n else if s.pipe.counted then min 4 (n + 1) else n)
  let dueAt (pos peak : Nat) : Bool := xs.any (fun x => x.pos == pos && x.due.any (fun d => d.1 == peak))
  let order := sortBy (fun (f : SeamFrag) => -((f.delta : Int) * 16) + f.pos) frags
  let seams := ((groupFrags c order.length order).flatMap (groupEntries s present (fun f => dueAt f.pos f.peak))).take maxEntries
  let merged := maskOf 64 (fun i => frags.any (fun f =>
    f.id == i && seams.any (fun e => e.kind == 2 && e.pos == f.pos && e.peak == f.peak && e.id != i)))
  let taken (pos peak : Nat) : Bool := seams.any (fun e => e.pos == pos && e.peak == peak)
  let lone : List Entry := xs.flatMap (fun x => (x.due.filter (fun d => !taken x.pos d.1)).map (fun d =>
    let (u, v) := peakAt c x.pos d.1
    { pos := x.pos, peak := d.1, kind := 3, id := 0xFF, owner := x.pos, gx := (max u 0).toNat / 65536,
      gy := (max v 0).toNat / 65536, cls := d.2, count := 0, onset := 0 }))
  let old := seams.filter (fun e => e.kind != 5)
  let new := sortBy (fun (e : Entry) => Int.ofNat (e.pos * 4096 + e.peak)) (lone ++ seams.filter (fun e => e.kind == 5))
  let (new, held) := giveIds idle (new.take (maxEntries - old.length)) held
  (old ++ new, held &&& ~~~merged, idle.mapIdx (fun i n => if getBit merged i then 0 else n))

/-- Palms whose shadow reaches another tile, as DECIDE carries them: place, axis, amplitude, and whose they are. -/
def palmBytes (c : List Byte) (xs : List StitchIn) : List (List Byte) :=
  ((xs.flatMap (·.frags)).filter (fun f => f.cls == 5 &&
      (let (x, y) := placeBack c f.pos (f.gx * 65536 : Nat) (f.gy * 65536 : Nat)
       reaches c f.pos x y (3 * f.w * 65536 / 4 : Nat)))).map (fun f =>
    le 2 f.gx ++ le 2 f.gy ++ le 2 f.w ++ le 2 f.delta ++ [b8 f.pos] ++ le 4 f.onset)

/-! ### DECIDE at a member, R446 -/

/-- The time with given low 32 bits that lies nearest another. -/
def wideTime (near low : Nat) : Nat :=
  let d := (low + 2 ^ 32 - near % 2 ^ 32) % 2 ^ 32
  (if d < 2 ^ 31 then near + d else near + d + 2 ^ 48 - 2 ^ 32) % 2 ^ 48

/-- A contact leaves the part for the tile that owns it now: it is not listed as ended, unless its ID is not the one kept. -/
def giveUp (e : Entry) (s : State) : State :=
  let mine (c : Contact) : Bool := c.matched && c.peak == e.peak
  { s with pipe.contacts := s.pipe.contacts.filter (fun c => !mine c)
           pipe.endedList := s.pipe.endedList ++ (s.pipe.contacts.filter (fun c => mine c && c.id != e.id)).map (fun c =>
             { c with ended := true })
           pipe.cands := s.pipe.cands.filter (fun c => !(c.matched && c.peak == e.peak)) }

/-- A candidate of the part becomes a contact under an ID; one that another tile held shows phase 2 and keeps its contexts
and the place it had. A part that has no place left keeps the candidate, lists a contact that would have come as ended,
and gives the ID back with its next STITCH (DESIGN CHOICE, log 13). -/
def takeContact (e : Entry) (moved : Bool) (s : State) : State :=
  match s.pipe.cands.find? (fun c => c.peak == e.peak) with
  | none => { s with spanx.endSaid := setBit s.spanx.endSaid e.id true }
  | some c =>
    let k := c.toContact s e.id
    let k := if !moved then k else
      let (x, y) := match s.spanx.places.find? (fun p => p.1 == e.id && (p.2.1 + 1) % 2 ^ 32 == s.frame.comp % 2 ^ 32) with
        | some p => p.2.2
        | none => (e.gx, e.gy)
      { k with isNew := false, oldX := x, oldY := y, ctxs := s.spanx.assign.getD e.id 0 }
    if s.places == 0 then
      { s with spanx.endSaid := setBit s.spanx.endSaid e.id true
               pipe.endedList := if moved then s.pipe.endedList ++ [{ k with ended := true }] else s.pipe.endedList }
    else
      { s with
        pipe.cands := s.pipe.cands.filter (fun x => x.key != c.key)
        pipe.contacts := insertBy (fun k => Int.ofNat k.id) k s.pipe.contacts
        pipe.touches := s.pipe.touches + flag (!moved)
        spanx.assign := s.spanx.assign.set e.id k.ctxs }

/-- The merged place, class and onset of an owner; its displacement becomes that of the merged place. -/
def setMerged (e : Entry) (s : State) : State :=
  let (x, y) := placeBack s.geom s.tilePos (e.gx * 65536 : Nat) (e.gy * 65536 : Nat)
  let onset := wideTime s.frame.mutComp e.onset
  { s with
    pipe.contacts := s.pipe.contacts.map (fun c =>
      if c.id == e.id then { c with dx := c.dx + (x - c.x), dy := c.dy + (y - c.y), x := x, y := y, cls := e.cls, onset := onset }
      else c)
    pipe.cands := s.pipe.cands.map (fun c =>
      if c.peak == e.peak then { c with cls := e.cls, count := max c.count e.count, onset := onset } else c) }

/-- One decision for this part. -/
def applyEntry (e : Entry) (s : State) : State :=
  match e.kind with
  | 1 =>
    let s := if e.id == 0xFF || s.pipe.contacts.any (fun c => c.id == e.id) then s else takeContact e true s
    setMerged e s
  | 2 => giveUp e s
  | 3 => takeContact e false s
  | 4 => holdPeak e.peak s
  | 5 => setMerged e (takeContact e false s)
  | _ => s

/-- Every part keeps the contexts of a contact that another confirms (R221). -/
def noteEntry (e : Entry) (s : State) : State :=
  if (e.kind == 3 || e.kind == 5) && e.pos != s.pins.gpos then
    { s with spanx.assign := s.spanx.assign.set e.id (assignOf s e.gx e.gy) }
  else s

/-- Where the decisions of the frame place the contacts of the span, kept for the next frame (R257). -/
def notePlaces (es : List Entry) (s : State) : State :=
  { s with spanx.places := (es.filter (fun e => e.id != 0xFF && (e.kind == 1 || e.kind == 3 || e.kind == 5))).map (fun e =>
      (e.id, s.frame.comp, e.gx, e.gy)) }

/-- Shadows of palms on other tiles (R446). -/
def foreignPalms (ps : List (List Byte)) (s : State) : State :=
  let hs : List Shadow := (ps.filter (fun b => byteAt b 8 != s.pins.gpos)).map (fun b =>
    let (x, y) := placeBack s.geom s.tilePos (leAt b 0 2 * 65536 : Nat) (leAt b 2 2 * 65536 : Nat)
    { x := x, y := y, axis := (leAt b 4 2 * 65536 : Nat), left := 8, key := 0, foreign := some (leAt b 8 5),
      amp := (leAt b 6 2 : Int), live := false })
  { s with pipe.shadows := s.pipe.shadows.filter (fun h => h.foreign.isNone || !hs.any (fun g => g.foreign == h.foreign)) ++ hs }

/-- The computation goes on under decisions; without them for this part the frame is held (R446). -/
def decided (present : BitVec 16) (faulted : BitVec 32) (ps : List (List Byte)) (es : List Entry) (s : State) : State :=
  let own := es.filter (fun e => e.pos == s.pins.gpos)
  let s := { s with spanx.faultNext := s.spanx.faultNext ||| faulted }
  let s := es.foldl (fun s e => noteEntry e s) (foreignPalms ps s)
  let s := if getBit present s.pins.gpos then placeContacts (own.foldl (fun s e => applyEntry e s) s) else holdCands s
  finishPass (notePlaces es s)

/-- DECIDE_SEND, R445, R460. -/
def decideSend (s : State) : State :=
  if !(s.span.role == 2 && s.frame.phase == 1 && s.spanx.stitchSent) then s
  else
    let xs := s.spanx.stitches.map (fun (p, b) => stitchOf p b)
    let present := maskOf 16 (fun p => xs.any (fun x => x.pos == p))
    let (es, held, idle) := decisions s xs
    let ps := (palmBytes s.span.config xs).take 4
    let faulted := s.spanx.faultNext ||| s.faultedCtxs
    let b := le 2 present.toNat ++ le 4 faulted.toNat ++ [b8 es.length, b8 ps.length] ++ ps.flatten ++ es.flatMap (·.bytes)
    let runs := tabulate 16 (fun p =>
      if getBit s.span.members p && p != s.pins.gpos && !getBit present p then s.spanx.lateRuns.getD p 0 + 1 else 0)
    let s := { s with spanx.stitches := [], spanx.idHeld := held, spanx.idIdle := idle, spanx.lateRuns := runs }
    decided present faulted ps es (sendPacket 0x05 0xFF s.frame.comp b s)

def execDecideSend (s : State) : Host.Outcome State Fault Refusal := .next (decideSend s)

/-- DECIDE, for the frame the member computes. -/
def decideIn (p : Packet) (s : State) : State :=
  if !(heard p s && p.typ == 0x05 && s.span.role == 3 && s.span.joined && s.frame.phase == 1 && s.spanx.stitchSent &&
      p.frame == s.frame.comp % 256) then s
  else
    let b := p.payload
    let n := byteAt b 6
    let m := byteAt b 7
    let ps := (List.range m).map (fun k => slice b (8 + 13 * k) 13)
    let es := (List.range n).map (fun k => entryOf (slice b (8 + 13 * m + 16 * k) 16))
    decided (BitVec.ofNat 16 (leAt b 0 2)) (BitVec.ofNat 32 (leAt b 2 4)) ps es s

def execDecide (p : Packet) (s : State) : Host.Outcome State Fault Refusal := .next (decideIn p s)

/-- STITCH_TIMEOUT, R446: a held frame. A part whose span has broken since its pre-pass waits no longer. -/
def stitchTimeout (s : State) : State :=
  if s.frame.phase == 1 && (s.spanx.stitchSent || !s.inSpan) then finishPass (holdCands s) else s

def execStitchTimeout (s : State) : Host.Outcome State Fault Refusal := .next (stitchTimeout s)

/-- LATE, R460: 32 frames without a member's STITCH, once per episode. -/
def late (pos : Nat) (s : State) : State :=
  if s.span.role == 2 && pos < 16 && 32 ≤ s.spanx.lateRuns.getD pos 0 && !s.spanx.lateDone.getD pos false then
    spanRec 0x0B pos 0 { s with spanx.lateDone := s.spanx.lateDone.set pos true }
  else s

def execLate (pos : Nat) (s : State) : Host.Outcome State Fault Refusal := .next (late pos s)

end Sys2Proof.Machine
end

