-- ==== Sys2Proof/Machine/TwoWire.lean ====
section
/-! DEFINITION. The two-wire port beside its command writes: reply reads, the alert response, the in-band request, Host
Notify and the bus timeouts (R343-R372).
Conventions that the spec leaves open: log 14 (DESIGN CHOICE), log 21 (DEDUCED). -/

namespace Sys2Proof.Machine
open Sys2Proof

/-! ### Reply reads, R347, R348 -/

/-- The bytes of a reply read: error code, length, data, and the PEC over the address byte and all of them. -/
def twReplyBytes (r : List Byte) (s : State) : List Byte :=
  let data := r.drop 1
  let w := [r.headD 0, b8 data.length] ++ data
  w ++ [b8 (crc8 (b8 (s.twAddr + 1) :: w))]

/-- REPLY_READ: `count` bytes read, after a stretch of `us`, at most 10 ms (R352). The copy is made at the first byte; bytes
beyond the PEC read 0xFF (R365). -/
def replyRead (count us : Nat) (s : State) : State :=
  if !s.serves then s
  else
    let s := twBegin s
    let s := { s with tw.maxUs := max s.tw.maxUs (min 10000 us) }
    if count == 0 then s
    else
      let s := if s.chan.tw.reply == .none then { s with tw.noReply := satAdd 65535 s.tw.noReply 1 } else s
      let (r, s) := sendReply .tw s
      s.modPort .tw (fun q => { q with out := fit (min count 257) 0xFF (twReplyBytes r s) })

def execReplyRead (count us : Nat) (s : State) : Host.Outcome State Fault Refusal := .next (replyRead count us s)

/-- QUICK_COMMAND, R349: address only, or code 0x00 and a STOP. No effect, but that an in-band request finds another
address (R359). -/
def quickCommand (_code0 : Bool) (s : State) : State :=
  if s.tw.ibr then { s with tw.ibr := false, tw.ibrPend := false } else s

def execQuickCommand (code0 : Bool) (s : State) : Host.Outcome State Fault Refusal := .next (quickCommand code0 s)

/-! ### The alert response, R356, R357 -/

/-- The bytes of an answer to 0x0C: the address byte and the PEC over 0x19 and it. -/
def araBytes (s : State) : List Byte := [b8 s.twAddr, b8 (crc8 [0x19, b8 s.twAddr])]

/-- Whether the alert response address is answered: before a set is accepted, and after it with TW_ARA. -/
def State.araOn (s : State) : Bool := s.chan.accepted.isNone || s.feat 17

/-- ALERT_RESPONSE_READ: a winner releases ALERT_N, a loser keeps it. -/
def alertResponseRead (won : Bool) (s : State) : State :=
  if s.chan.rdy && s.chan.tw.signal && s.araOn && won then
    s.modPort .tw (fun q => { q with signal := false, out := araBytes s })
  else s

def execAlertResponseRead (won : Bool) (s : State) : Host.Outcome State Fault Refusal := .next (alertResponseRead won s)

/-! ### The in-band request, R358-R360 -/

/-- IN_BAND_REQUEST: a call is due and both lines have been high for 100 us. -/
def execInBandRequest (s : State) : Host.Outcome State Fault Refusal :=
  .next (if s.chan.rdy && s.ibr && s.tw.ibrPend && !s.tw.ibr then { s with tw.ibr := true } else s)

/-- IBR_UNANSWERED: SDA is released; the request is made again at the next due time. -/
def execIbrUnanswered (s : State) : Host.Outcome State Fault Refusal :=
  .next (if s.tw.ibr then { s with tw.ibr := false, tw.ibrPend := false } else s)

/-- REQUEST_READ: the winner has been served, a loser requests again after the next idle time. -/
def requestRead (won : Bool) (s : State) : State :=
  if !s.tw.ibr then s
  else if won then
    { s.modPort .tw (fun q => { q with out := araBytes s }) with tw.ibr := false, tw.ibrPend := false }
  else { s with tw.ibr := false }

def execRequestRead (won : Bool) (s : State) : Host.Outcome State Fault Refusal := .next (requestRead won s)

/-! ### Host Notify, R361-R363 -/

/-- The bytes of a notice. -/
def notifyBytes (s : State) : List Byte :=
  let w := [0x10, b8 s.twAddr, b8 (statusByte .tw s), b8 (min 255 (s.readable .tw).length)]
  if s.tw.pecReq then w ++ [b8 (crc8 w)] else w

/-- A notice is due, and CORE runs to send it. -/
def State.notifies (s : State) : Bool := s.serves && s.feat 19 && s.tw.hnPend && !s.tw.hnOff && s.tw.hnRun < 8

/-- HOST_NOTIFY. A loser of the arbitration tries again, at most 3 times for one notice. -/
def hostNotify (e : NotifyEnd) (s : State) : State :=
  if !s.notifies then s
  else match e with
    | .acked => { s.modPort .tw (fun q => { q with out := notifyBytes s }) with tw.hnPend := false, tw.hnRun := 0 }
    | .nacked =>
      { s.modPort .tw (fun q => { q with out := [0x10] }) with
        tw.hnPend := false, tw.hnFail := satAdd 65535 s.tw.hnFail 1, tw.hnRun := s.tw.hnRun + 1 }
    | .arbLost => { s with tw.arbLost := true, tw.retries := s.tw.retries + 1, tw.hnPend := s.tw.retries < 3 }

def execHostNotify (outcome : NotifyEnd) (s : State) : Host.Outcome State Fault Refusal := .next (hostNotify outcome s)

/-- HOST_NOTIFY_SUSPEND: 8 notices in a row were not acknowledged. -/
def execHostNotifySuspend (s : State) : Host.Outcome State Fault Refusal :=
  .next (if 8 ≤ s.tw.hnRun then { s with tw.hnOff := true, tw.hnPend := false } else s)

/-! ### Timeouts, R367, R368 -/

/-- Both lines are released, and the event is counted. -/
def busTimeout (s : State) : State :=
  { s with tw.stretch := false, tw.ibr := false, tw.ibrPend := s.tw.ibrPend && !s.tw.ibr
           tw.timeouts := satAdd 65535 s.tw.timeouts 1 }

/-- SCL_TIMEOUT. -/
def execSclTimeout (s : State) : Host.Outcome State Fault Refusal :=
  .next (if s.chan.rdy then { busTimeout s with tw.sclTo := true } else s)

/-- SDA_TIMEOUT. -/
def execSdaTimeout (s : State) : Host.Outcome State Fault Refusal :=
  .next (if s.chan.rdy then { busTimeout s with tw.sdaTo := true } else s)

end Sys2Proof.Machine
end

