-- ==== Sys2Proof/Machine/Dispatch.lean ====
section
/-! DEFINITION. One arm for each command: its meaning. -/

namespace Sys2Proof.Machine
open Sys2Proof

/-- The effect of a command on everything but the queue. -/
def exec (i : Instr) (s : State) : Host.Outcome State Fault Refusal :=
  match i with
  | .status u => Sys2Proof.Machine.execStatus u s
  | .ident u => Sys2Proof.Machine.execIdent u s
  | .featRead u => Sys2Proof.Machine.execFeatRead u s
  | .featAccept u => Sys2Proof.Machine.execFeatAccept u s
  | .sessionOpen u => Sys2Proof.Machine.execSessionOpen u s
  | .faultRead u => Sys2Proof.Machine.execFaultRead u s
  | .faultClear u => Sys2Proof.Machine.execFaultClear u s
  | .tagRead u => Sys2Proof.Machine.execTagRead u s
  | .aliveResync u => Sys2Proof.Machine.execAliveResync u s
  | .unassignedCode u code => Sys2Proof.Machine.execUnassignedCode u code s
  | .unitRejected u code cut => Sys2Proof.Machine.execUnitRejected u code cut s
  | .ctxOpen u => Sys2Proof.Machine.execCtxOpen u s
  | .ctxClose u => Sys2Proof.Machine.execCtxClose u s
  | .ctxContract u => Sys2Proof.Machine.execCtxContract u s
  | .ctxRegion u => Sys2Proof.Machine.execCtxRegion u s
  | .ctxStock u => Sys2Proof.Machine.execCtxStock u s
  | .ctxStart u => Sys2Proof.Machine.execCtxStart u s
  | .ctxStop u => Sys2Proof.Machine.execCtxStop u s
  | .ctxState u => Sys2Proof.Machine.execCtxState u s
  | .ctxMailWrite u => Sys2Proof.Machine.execCtxMailWrite u s
  | .ctxMailRead u => Sys2Proof.Machine.execCtxMailRead u s
  | .imgBegin u => Sys2Proof.Machine.execImgBegin u s
  | .imgData u => Sys2Proof.Machine.execImgData u s
  | .imgEnd u => Sys2Proof.Machine.execImgEnd u s
  | .imgVerifyDone ctx => Sys2Proof.Machine.execImgVerifyDone ctx s
  | .imgFromFlash u => Sys2Proof.Machine.execImgFromFlash u s
  | .imgList u => Sys2Proof.Machine.execImgList u s
  | .imgAbort u => Sys2Proof.Machine.execImgAbort u s
  | .imgKeyRead u => Sys2Proof.Machine.execImgKeyRead u s
  | .imgKeyProg u => Sys2Proof.Machine.execImgKeyProg u s
  | .keyProgDone readBack => Sys2Proof.Machine.execKeyProgDone readBack s
  | .imgSessionAbort ctx => Sys2Proof.Machine.execImgSessionAbort ctx s
  | .evtRead u => Sys2Proof.Machine.execEvtRead u s
  | .evtAck u => Sys2Proof.Machine.execEvtAck u s
  | .evtMask u => Sys2Proof.Machine.execEvtMask u s
  | .journalRead u => Sys2Proof.Machine.execJournalRead u s
  | .feProfile u => Sys2Proof.Machine.execFeProfile u s
  | .feGet u => Sys2Proof.Machine.execFeGet u s
  | .feSet u => Sys2Proof.Machine.execFeSet u s
  | .imageRead u => Sys2Proof.Machine.execImageRead u s
  | .censusRead u => Sys2Proof.Machine.execCensusRead u s
  | .forceCfg u => Sys2Proof.Machine.execForceCfg u s
  | .clampRead u => Sys2Proof.Machine.execClampRead u s
  | .calState u => Sys2Proof.Machine.execCalState u s
  | .calFreeze u => Sys2Proof.Machine.execCalFreeze u s
  | .calSeed u => Sys2Proof.Machine.execCalSeed u s
  | .calSnapshot u => Sys2Proof.Machine.execCalSnapshot u s
  | .calRestore u => Sys2Proof.Machine.execCalRestore u s
  | .thermRead u => Sys2Proof.Machine.execThermRead u s
  | .thermPolicy u => Sys2Proof.Machine.execThermPolicy u s
  | .fanSet u => Sys2Proof.Machine.execFanSet u s
  | .fanSkip u => Sys2Proof.Machine.execFanSkip u s
  | .fanState u => Sys2Proof.Machine.execFanState u s
  | .blSet u => Sys2Proof.Machine.execBlSet u s
  | .blCurve u => Sys2Proof.Machine.execBlCurve u s
  | .powerCap u => Sys2Proof.Machine.execPowerCap u s
  | .powerState u => Sys2Proof.Machine.execPowerState u s
  | .powerForce u => Sys2Proof.Machine.execPowerForce u s
  | .powerGrants u => Sys2Proof.Machine.execPowerGrants u s
  | .spanConfig u => Sys2Proof.Machine.execSpanConfig u s
  | .spanState u => Sys2Proof.Machine.execSpanState u s
  | .spanMembers u => Sys2Proof.Machine.execSpanMembers u s
  | .spanPull u => Sys2Proof.Machine.execSpanPull u s
  | .spanRelay u => Sys2Proof.Machine.execSpanRelay u s
  | .memProfile u => Sys2Proof.Machine.execMemProfile u s
  | .memDiscover u => Sys2Proof.Machine.execMemDiscover u s
  | .memRead u => Sys2Proof.Machine.execMemRead u s
  | .memProgram u => Sys2Proof.Machine.execMemProgram u s
  | .memErase u => Sys2Proof.Machine.execMemErase u s
  | .readError addr again => Sys2Proof.Machine.execReadError addr again s
  | .lineFill addr => Sys2Proof.Machine.execLineFill addr s
  | .memState u => Sys2Proof.Machine.execMemState u s
  | .memXip u => Sys2Proof.Machine.execMemXip u s
  | .clockSet u => Sys2Proof.Machine.execClockSet u s
  | .clockRead u => Sys2Proof.Machine.execClockRead u s
  | .ledgerConfig u => Sys2Proof.Machine.execLedgerConfig u s
  | .ledgerState u => Sys2Proof.Machine.execLedgerState u s
  | .ledgerRead u => Sys2Proof.Machine.execLedgerRead u s
  | .diagSelftest u => Sys2Proof.Machine.execDiagSelftest u s
  | .diagPins u => Sys2Proof.Machine.execDiagPins u s
  | .diagLoopback u => Sys2Proof.Machine.execDiagLoopback u s
  | .diagComplete timeout result => Sys2Proof.Machine.execDiagComplete timeout result s
  | .regRead u => Sys2Proof.Machine.execRegRead u s
  | .regWrite u => Sys2Proof.Machine.execRegWrite u s
  | .reset u => Sys2Proof.Machine.execReset u s
  | .clkTimeloRead u => Sys2Proof.Machine.execClkTimeloRead u s
  | .powerPinRead u => Sys2Proof.Machine.execPowerPinRead u s
  | .twStretchRead u => Sys2Proof.Machine.execTwStretchRead u s
  | .wcSecloRead u => Sys2Proof.Machine.execWcSecloRead u s
  | .frcCfgWrite u => Sys2Proof.Machine.execFrcCfgWrite u s
  | .calTlimWrite u => Sys2Proof.Machine.execCalTlimWrite u s
  | .calFgeomWrite u => Sys2Proof.Machine.execCalFgeomWrite u s
  | .hnoffClear u => Sys2Proof.Machine.execHnoffClear u s
  | .hsCfgWrite u => Sys2Proof.Machine.execHsCfgWrite u s
  | .spillForceWrite u => Sys2Proof.Machine.execSpillForceWrite u s
  | .thermEnWrite u => Sys2Proof.Machine.execThermEnWrite u s
  | .lapseClear u => Sys2Proof.Machine.execLapseClear u s
  | .add o => Sys2Proof.Machine.execAdd o s
  | .sub o => Sys2Proof.Machine.execSub o s
  | .and o => Sys2Proof.Machine.execAnd o s
  | .or o => Sys2Proof.Machine.execOr o s
  | .xor o => Sys2Proof.Machine.execXor o s
  | .shl o => Sys2Proof.Machine.execShl o s
  | .shr o => Sys2Proof.Machine.execShr o s
  | .sar o => Sys2Proof.Machine.execSar o s
  | .mul o => Sys2Proof.Machine.execMul o s
  | .mulh o => Sys2Proof.Machine.execMulh o s
  | .mulhu o => Sys2Proof.Machine.execMulhu o s
  | .min o => Sys2Proof.Machine.execMin o s
  | .max o => Sys2Proof.Machine.execMax o s
  | .minu o => Sys2Proof.Machine.execMinu o s
  | .maxu o => Sys2Proof.Machine.execMaxu o s
  | .adc o => Sys2Proof.Machine.execAdc o s
  | .sbc o => Sys2Proof.Machine.execSbc o s
  | .abs o => Sys2Proof.Machine.execAbs o s
  | .clz o => Sys2Proof.Machine.execClz o s
  | .popc o => Sys2Proof.Machine.execPopc o s
  | .sat16 o => Sys2Proof.Machine.execSat16 o s
  | .andn o => Sys2Proof.Machine.execAndn o s
  | .addi o => Sys2Proof.Machine.execAddi o s
  | .andi o => Sys2Proof.Machine.execAndi o s
  | .ori o => Sys2Proof.Machine.execOri o s
  | .xori o => Sys2Proof.Machine.execXori o s
  | .shli o => Sys2Proof.Machine.execShli o s
  | .shri o => Sys2Proof.Machine.execShri o s
  | .sari o => Sys2Proof.Machine.execSari o s
  | .muli o => Sys2Proof.Machine.execMuli o s
  | .cmpi o => Sys2Proof.Machine.execCmpi o s
  | .lui o => Sys2Proof.Machine.execLui o s
  | .mini o => Sys2Proof.Machine.execMini o s
  | .maxi o => Sys2Proof.Machine.execMaxi o s
  | .tsti o => Sys2Proof.Machine.execTsti o s
  | .csel o => Sys2Proof.Machine.execCsel o s
  | .ldw o => Sys2Proof.Machine.execLdw o s
  | .ldh o => Sys2Proof.Machine.execLdh o s
  | .ldhu o => Sys2Proof.Machine.execLdhu o s
  | .ldb o => Sys2Proof.Machine.execLdb o s
  | .ldbu o => Sys2Proof.Machine.execLdbu o s
  | .stw o => Sys2Proof.Machine.execStw o s
  | .sth o => Sys2Proof.Machine.execSth o s
  | .stb o => Sys2Proof.Machine.execStb o s
  | .bCond o => Sys2Proof.Machine.execBCond o s
  | .callCond o => Sys2Proof.Machine.execCallCond o s
  | .jmp o => Sys2Proof.Machine.execJmp o s
  | .loop o => Sys2Proof.Machine.execLoop o s
  | .bz o => Sys2Proof.Machine.execBz o s
  | .bnz o => Sys2Proof.Machine.execBnz o s
  | .pld o => Sys2Proof.Machine.execPld o s
  | .pred o => Sys2Proof.Machine.execPred o s
  | .pcnt o => Sys2Proof.Machine.execPcnt o s
  | .pcent o => Sys2Proof.Machine.execPcent o s
  | .pcopy o => Sys2Proof.Machine.execPcopy o s
  | .cnext o => Sys2Proof.Machine.execCnext o s
  | .cget o => Sys2Proof.Machine.execCget o s
  | .cdist o => Sys2Proof.Machine.execCdist o s
  | .cin o => Sys2Proof.Machine.execCin o s
  | .ccount o => Sys2Proof.Machine.execCcount o s
  | .emit o => Sys2Proof.Machine.execEmit o s
  | .mailp o => Sys2Proof.Machine.execMailp o s
  | .mailack o => Sys2Proof.Machine.execMailack o s
  | .leave o => Sys2Proof.Machine.execLeave o s
  | .leaveRelease o => Sys2Proof.Machine.execLeaveRelease o s
  | .yield o => Sys2Proof.Machine.execYield o s
  | .time o => Sys2Proof.Machine.execTime o s
  | .spanSend o => Sys2Proof.Machine.execSpanSend o s
  | .spanReceive o => Sys2Proof.Machine.execSpanReceive o s
  | .sysLedger o => Sys2Proof.Machine.execSysLedger o s
  | .sysFan o => Sys2Proof.Machine.execSysFan o s
  | .sysBacklight o => Sys2Proof.Machine.execSysBacklight o s
  | .sysProfile o => Sys2Proof.Machine.execSysProfile o s
  | .sysFreeze o => Sys2Proof.Machine.execSysFreeze o s
  | .sysCalrd o => Sys2Proof.Machine.execSysCalrd o s
  | .memStart o => Sys2Proof.Machine.execMemStart o s
  | .memPoll o => Sys2Proof.Machine.execMemPoll o s
  | .brk rest => Sys2Proof.Machine.execBrk rest s
  | .reservedOpcode word => Sys2Proof.Machine.execReservedOpcode word s
  | .frameBoundary x => Sys2Proof.Machine.execFrameBoundary x s
  | .txLineOff line => Sys2Proof.Machine.execTxLineOff line s
  | .channelClip ch => Sys2Proof.Machine.execChannelClip ch s
  | .keeperGate count => Sys2Proof.Machine.execKeeperGate count s
  | .leaveRerequest cls who => Sys2Proof.Machine.execLeaveRerequest cls who s
  | .fanStartToRun fan milliwatt after8s => Sys2Proof.Machine.execFanStartToRun fan milliwatt after8s s
  | .fanRunRemeasure fan milliwatt => Sys2Proof.Machine.execFanRunRemeasure fan milliwatt s
  | .meterSample m => Sys2Proof.Machine.execMeterSample m s
  | .dip vin => Sys2Proof.Machine.execDip vin s
  | .dipEnd vin => Sys2Proof.Machine.execDipEnd vin s
  | .safeVin vin => Sys2Proof.Machine.execSafeVin vin s
  | .brownOut b => Sys2Proof.Machine.execBrownOut b s
  | .vhvFault kind => Sys2Proof.Machine.execVhvFault kind s
  | .safeWatchdogReset b => Sys2Proof.Machine.execSafeWatchdogReset b s
  | .addressMatch addr => Sys2Proof.Machine.execAddressMatch addr s
  | .wakeStretchEnd us => Sys2Proof.Machine.execWakeStretchEnd us s
  | .gpioWake levels => Sys2Proof.Machine.execGpioWake levels s
  | .dozeSweep charge ratios => Sys2Proof.Machine.execDozeSweep charge ratios s
  | .alertReassert port => Sys2Proof.Machine.execAlertReassert port s
  | .portLapse port => Sys2Proof.Machine.execPortLapse port s
  | .clockMonitorWindow count => Sys2Proof.Machine.execClockMonitorWindow count s
  | .xtalFail pll => Sys2Proof.Machine.execXtalFail pll s
  | .forceConversion bridge x => Sys2Proof.Machine.execForceConversion bridge x s
  | .excFault bridge => Sys2Proof.Machine.execExcFault bridge s
  | .excRestored bridge => Sys2Proof.Machine.execExcRestored bridge s
  | .bridgeSaturated bridge => Sys2Proof.Machine.execBridgeSaturated bridge s
  | .thermistorRound xs die => Sys2Proof.Machine.execThermistorRound xs die s
  | .sensorOk input => Sys2Proof.Machine.execSensorOk input s
  | .shdnComparison die x tcrit => Sys2Proof.Machine.execShdnComparison die x tcrit s
  | .clamp pin => Sys2Proof.Machine.execClamp pin s
  | .pinOpen pin => Sys2Proof.Machine.execPinOpen pin s
  | .pinRestored pin => Sys2Proof.Machine.execPinRestored pin s
  | .fanLoopTick fan x => Sys2Proof.Machine.execFanLoopTick fan x s
  | .fanAlignEnd fan => Sys2Proof.Machine.execFanAlignEnd fan s
  | .fanTachAbsent fan => Sys2Proof.Machine.execFanTachAbsent fan s
  | .fanStall fan => Sys2Proof.Machine.execFanStall fan s
  | .fanRetry fan => Sys2Proof.Machine.execFanRetry fan s
  | .fanRecovered fan => Sys2Proof.Machine.execFanRecovered fan s
  | .bridgeHot fan temp => Sys2Proof.Machine.execBridgeHot fan temp s
  | .bridgeShort fan => Sys2Proof.Machine.execBridgeShort fan s
  | .replyRead count us => Sys2Proof.Machine.execReplyRead count us s
  | .quickCommand code0 => Sys2Proof.Machine.execQuickCommand code0 s
  | .alertResponseRead won => Sys2Proof.Machine.execAlertResponseRead won s
  | .requestRead won => Sys2Proof.Machine.execRequestRead won s
  | .hostNotify outcome => Sys2Proof.Machine.execHostNotify outcome s
  | .idleTransaction x => Sys2Proof.Machine.execIdleTransaction x s
  | .repeatFrame u code => Sys2Proof.Machine.execRepeatFrame u code s
  | .busyTransaction x => Sys2Proof.Machine.execBusyTransaction x s
  | .packetForward p crcOk rtt => Sys2Proof.Machine.execPacketForward p crcOk rtt s
  | .claim p => Sys2Proof.Machine.execClaim p s
  | .beacon p => Sys2Proof.Machine.execBeacon p s
  | .census p => Sys2Proof.Machine.execCensus p s
  | .stitch p => Sys2Proof.Machine.execStitch p s
  | .decide p => Sys2Proof.Machine.execDecide p s
  | .ready p => Sys2Proof.Machine.execReady p s
  | .pull p => Sys2Proof.Machine.execPull p s
  | .config p => Sys2Proof.Machine.execConfig p s
  | .relay p => Sys2Proof.Machine.execRelay p s
  | .msg p => Sys2Proof.Machine.execMsg p s
  | .cmd p => Sys2Proof.Machine.execCmd p s
  | .late pos => Sys2Proof.Machine.execLate pos s
  | .queueGap queue => Sys2Proof.Machine.execQueueGap queue s
  | .powerOnReset b => Sys2Proof.Machine.execPowerOnReset b s
  | .pinReset low b => Sys2Proof.Machine.execPinReset low b s
  | .watchdogReset b => Sys2Proof.Machine.execWatchdogReset b s
  | .fgPulse fan widthUs periodUs => Sys2Proof.Machine.execFgPulse fan widthUs periodUs s
  | .vaonOutOfRange b => Sys2Proof.Machine.execVaonOutOfRange b s
  | .readTransferComplete bad => Sys2Proof.Machine.execReadTransferComplete bad s
  | .spanRelayTimeout => Sys2Proof.Machine.execSpanRelayTimeout s
  | .flashResume => Sys2Proof.Machine.execFlashResume s
  | .programComplete => Sys2Proof.Machine.execProgramComplete s
  | .eraseComplete => Sys2Proof.Machine.execEraseComplete s
  | .flashTimeout => Sys2Proof.Machine.execFlashTimeout s
  | .bootScan => Sys2Proof.Machine.execBootScan s
  | .urgentMove => Sys2Proof.Machine.execUrgentMove s
  | .computationStart => Sys2Proof.Machine.execComputationStart s
  | .slipWatchdog => Sys2Proof.Machine.execSlipWatchdog s
  | .wetEnter => Sys2Proof.Machine.execWetEnter s
  | .wetLeave => Sys2Proof.Machine.execWetLeave s
  | .swamped => Sys2Proof.Machine.execSwamped s
  | .swampEnd => Sys2Proof.Machine.execSwampEnd s
  | .shadowExpire => Sys2Proof.Machine.execShadowExpire s
  | .confirmByCount => Sys2Proof.Machine.execConfirmByCount s
  | .contactEnd => Sys2Proof.Machine.execContactEnd s
  | .approach => Sys2Proof.Machine.execApproach s
  | .noiseUnitUpdate => Sys2Proof.Machine.execNoiseUnitUpdate s
  | .baselineStep => Sys2Proof.Machine.execBaselineStep s
  | .stitchPass => Sys2Proof.Machine.execStitchPass s
  | .stitchTimeout => Sys2Proof.Machine.execStitchTimeout s
  | .publication => Sys2Proof.Machine.execPublication s
  | .modeChoice => Sys2Proof.Machine.execModeChoice s
  | .compactionStep => Sys2Proof.Machine.execCompactionStep s
  | .epochEnd => Sys2Proof.Machine.execEpochEnd s
  | .calRailReport => Sys2Proof.Machine.execCalRailReport s
  | .keeperTrim => Sys2Proof.Machine.execKeeperTrim s
  | .hearthDecision => Sys2Proof.Machine.execHearthDecision s
  | .requestRefusal => Sys2Proof.Machine.execRequestRefusal s
  | .boostStartDone => Sys2Proof.Machine.execBoostStartDone s
  | .overcap => Sys2Proof.Machine.execOvercap s
  | .overcapRevoke => Sys2Proof.Machine.execOvercapRevoke s
  | .vmotUv => Sys2Proof.Machine.execVmotUv s
  | .vmotUvEnd => Sys2Proof.Machine.execVmotUvEnd s
  | .safeExit => Sys2Proof.Machine.execSafeExit s
  | .hcsWake => Sys2Proof.Machine.execHcsWake s
  | .houseRun => Sys2Proof.Machine.execHouseRun s
  | .wakeFloorEnd => Sys2Proof.Machine.execWakeFloorEnd s
  | .hostServiceEnd => Sys2Proof.Machine.execHostServiceEnd s
  | .hibernateEntry => Sys2Proof.Machine.execHibernateEntry s
  | .xtalRestart => Sys2Proof.Machine.execXtalRestart s
  | .xtalfailClear => Sys2Proof.Machine.execXtalfailClear s
  | .xtalStartFail => Sys2Proof.Machine.execXtalStartFail s
  | .crystalLock => Sys2Proof.Machine.execCrystalLock s
  | .shdnAssert => Sys2Proof.Machine.execShdnAssert s
  | .shdnRelease => Sys2Proof.Machine.execShdnRelease s
  | .inBandRequest => Sys2Proof.Machine.execInBandRequest s
  | .ibrUnanswered => Sys2Proof.Machine.execIbrUnanswered s
  | .hostNotifySuspend => Sys2Proof.Machine.execHostNotifySuspend s
  | .sclTimeout => Sys2Proof.Machine.execSclTimeout s
  | .sdaTimeout => Sys2Proof.Machine.execSdaTimeout s
  | .linkLock => Sys2Proof.Machine.execLinkLock s
  | .ringBreak => Sys2Proof.Machine.execRingBreak s
  | .healed => Sys2Proof.Machine.execHealed s
  | .spanAlone => Sys2Proof.Machine.execSpanAlone s
  | .claimSend => Sys2Proof.Machine.execClaimSend s
  | .elected => Sys2Proof.Machine.execElected s
  | .beaconSend => Sys2Proof.Machine.execBeaconSend s
  | .decideSend => Sys2Proof.Machine.execDecideSend s
  | .admissionRetry => Sys2Proof.Machine.execAdmissionRetry s
  | .spanCrc => Sys2Proof.Machine.execSpanCrc s
  | .spillChunk => Sys2Proof.Machine.execSpillChunk s
  | .ledgerSecond => Sys2Proof.Machine.execLedgerSecond s
  | .periodClose => Sys2Proof.Machine.execPeriodClose s
  | .checkpoint => Sys2Proof.Machine.execCheckpoint s
  | .vhvcntAgeOut => Sys2Proof.Machine.execVhvcntAgeOut s

end Sys2Proof.Machine
end

