-- ==== Sys2Proof/Machine/Step.lean ====
section
/-! DEFINITION. One step of the block: the command at the front of its queue, or, while none waits, what the block does by
itself; and the placing of a command that a word spells.
Conventions that the spec leaves open: log 31 (DESIGN CHOICE). -/

namespace Sys2Proof.Machine
open Sys2Proof

/-- One step. The front command acts on the state with the queue's rest; with no command waiting the engine goes on with an
open turn, or one tick passes (DESIGN CHOICE, log 1). -/
def step (s : State) : Host.Outcome State Fault Refusal :=
  match s.pending with
  | c :: cs => exec c { s with pending := cs }
  | [] => .next (idle s)

/-- The state with the command that a word spells put at the front of its queue; no row of the operation table gives bits,
so no word spells one. -/
def State.withFetchWord (s : State) (nbits w : Nat) : State :=
  match decodeTableWord nbits w with
  | some c => { s with pending := c :: s.pending }
  | none => s

end Sys2Proof.Machine
end

