-- ==== Sys2Proof/WellFormed.lean ====
section
/-! DEFINITION. Well-formed commands: the operands that the lines of the part can carry. What the part itself checks is no
matter of form; a command that is not well formed stands for nothing that can reach the part. -/

namespace Sys2Proof

/-- A unit of a port: the bytes about it are bytes, and its length is one that its port's layout can carry (R346, R376,
R383). -/
def HostUnit.wf (u : HostUnit) : Bool :=
  match u.port with
  | .tw => u.payload.length ≤ 255 && (match u.check with
    | some c => c < 256
    | none => true)
  | .hs => u.alive < 256 && u.pos < 256 && u.payload.length < 65536 && (match u.check with
    | some c => c < 2 ^ 32
    | none => false)

/-- A packet of the ring: its header's fields and its length (R429). -/
def Packet.wf (p : Packet) : Bool :=
  p.typ < 256 && p.src < 16 && p.hops < 16 && (p.dst < 16 || p.dst == 0xFF) && p.frame < 256 && p.payload.length ≤ 1024

/-- A converter code of 14 bits. -/
def codeWf (v : Int) : Bool := -8192 ≤ v && v ≤ 8191

/-- What a frame senses: 40 receive channels, 104 lines, four guards, and converter codes of 14 bits (R106, R147). -/
def Sense.wf (x : Sense) : Bool :=
  x.listen.length == 40 && x.mutualS.length == 40 && x.charge.length == 104 && x.gamma.length == 4 &&
    (x.listen ++ x.mutualS ++ x.charge).all (·.all codeWf)

/-- A word that the reserved-encoding row stands for. -/
def reservedWord (w : Word) : Bool := decodeWord w == .reservedOpcode w

/-- The form of a command. -/
def Instr.wf (i : Instr) : Bool :=
  match i with
  | .status u | .ident u | .featRead u | .featAccept u | .sessionOpen u | .faultRead u | .faultClear u | .tagRead u
  | .aliveResync u | .ctxOpen u | .ctxClose u | .ctxContract u | .ctxRegion u | .ctxStock u | .ctxStart u | .ctxStop u
  | .ctxState u | .ctxMailWrite u | .ctxMailRead u | .imgBegin u | .imgData u | .imgEnd u | .imgFromFlash u | .imgList u
  | .imgAbort u | .imgKeyRead u | .imgKeyProg u | .evtRead u | .evtAck u | .evtMask u | .journalRead u | .feProfile u
  | .feGet u | .feSet u | .imageRead u | .censusRead u | .forceCfg u | .clampRead u | .calState u | .calFreeze u
  | .calSeed u | .calSnapshot u | .calRestore u | .thermRead u | .thermPolicy u | .fanSet u | .fanSkip u | .fanState u
  | .blSet u | .blCurve u | .powerCap u | .powerState u | .powerForce u | .powerGrants u | .spanConfig u | .spanState u
  | .spanMembers u | .spanPull u | .spanRelay u | .memProfile u | .memDiscover u | .memRead u | .memProgram u
  | .memErase u | .memState u | .memXip u | .clockSet u | .clockRead u | .ledgerConfig u | .ledgerState u | .ledgerRead u
  | .diagSelftest u | .diagPins u | .diagLoopback u | .regRead u | .regWrite u | .reset u | .clkTimeloRead u
  | .powerPinRead u | .twStretchRead u | .wcSecloRead u | .frcCfgWrite u | .calTlimWrite u | .calFgeomWrite u
  | .hnoffClear u | .hsCfgWrite u | .spillForceWrite u | .thermEnWrite u | .lapseClear u => u.wf
  | .unassignedCode u c | .repeatFrame u c | .unitRejected u c _ => u.wf && c < 256
  | .imgVerifyDone c | .imgSessionAbort c => c < 32
  | .readError a _ | .lineFill a => a < 2 ^ 32
  | .addressMatch a => a < 128
  | .frameBoundary x => x.wf
  | .dozeSweep c g => g.guards.length == 4 && c.length == 104 && c.all (·.all codeWf)
  | .txLineOff l => l < 64
  | .channelClip c => c < 40
  | .leaveRerequest c _ => c < 9
  | .fanStartToRun f _ _ | .fanRunRemeasure f _ | .fanLoopTick f _ | .fanAlignEnd f | .fanTachAbsent f | .fanStall f
  | .fanRetry f | .fanRecovered f | .bridgeShort f | .bridgeHot f _ | .fgPulse f _ _ => f < 3
  | .forceConversion n _ | .excFault n | .excRestored n | .bridgeSaturated n | .sensorOk n => n < 4
  | .thermistorRound xs _ => xs.inputs.length == 4
  | .shdnComparison _ x t => x ≤ 65536 && t < 8
  | .clamp p | .pinOpen p | .pinRestored p => p < 177
  | .claim p | .beacon p | .census p | .stitch p | .decide p | .ready p | .pull p | .config p | .relay p | .msg p | .cmd p
  | .packetForward p _ _ => p.wf
  | .late p => p < 16
  | .queueGap q => q < 32 || q == 0x40 || q == 0x41
  | .reservedOpcode w => reservedWord w
  | _ => true

end Sys2Proof
end

