-- ==== Sys2Proof/Safety.lean ====
section
/-! DEFINITION. The terms in which claims are stated: a unit that reaches its command, an instruction in its turn, and the
canonical form of every memory. -/

namespace Sys2Proof.Safety
open Sys2Proof Sys2Proof.Machine

/-! ### Units -/

/-- The state in which a unit's command is judged from step 3 of R303 on: its transaction has begun, the outward reply has
been sent on the serial port, and steps 1 and 2 are passed. -/
def delivered (code : Nat) (resync : Bool) (u : HostUnit) (s : State) : State :=
  match u.port with
  | .tw => twBegin s
  | .hs => hsPass code resync u (hsReply (hsEdge u.clocks u.mode3 s))

/-- A unit passes steps 1 and 2 of R303 on a port that serves commands and is present. -/
def passes (code : Nat) (resync : Bool) (u : HostUnit) (s : State) : Prop :=
  s.serves = true ∧
  match u.port with
  | .tw => twFate code u (twBegin s) = .passed
  | .hs => (hsEdge u.clocks u.mode3 s).hs.present = true ∧
      hsFate code resync u (hsReply (hsEdge u.clocks u.mode3 s)) = .passed

/-- The state in which a unit's command is judged by the other steps: BADF is clear. -/
def reached (code : Nat) (resync : Bool) (u : HostUnit) (s : State) : State :=
  (delivered code resync u s).modPort u.port (fun q => { q with badf := false })

/-- The verdict of the other steps on a unit, 0 when its command is accepted. -/
def judged (code : Nat) (resync : Bool) (c : Cmd) (u : HostUnit) (s : State) : Nat :=
  let d := reached code resync u s
  verdict u.port (d.port u.port).session (c.checks u.port u.payload d) d

/-- A unit whose command is accepted (R303). -/
def accepted (code : Nat) (resync : Bool) (c : Cmd) (u : HostUnit) (s : State) : Prop :=
  passes code resync u s ∧ judged code resync c u s = 0

/-- The state in which an accepted command is carried out: QFUL is clear too. -/
def entry (code : Nat) (resync : Bool) (u : HostUnit) (s : State) : State :=
  (reached code resync u s).modPort u.port (fun q => { q with qful := false })

/-- Where a unit passes and a condition holds of it and of the state that it reaches, its row answers a next state: `f` carries
the command out on the unit and that state, and gives the reply that the port then holds and the state. The condition is that
of acceptance: elsewhere a step of R303 refuses the command. -/
def carriesAs (resync : Bool) (mk : HostUnit → Instr) (code : Nat) (c : Cmd) (at_ : HostUnit → HostUnit)
    (cond : HostUnit → State → Prop) (f : HostUnit → State → Reply × State) : Prop :=
  ∀ (u : HostUnit) (s : State), passes code resync (at_ u) s →
    (judged code resync c (at_ u) s = 0 ↔ cond (at_ u) (reached code resync (at_ u) s)) ∧
    (cond (at_ u) (reached code resync (at_ u) s) →
      let r := f (at_ u) (entry code resync (at_ u) s)
      exec (mk u) s = .next (setReply u.port r.1 r.2))

/-- The same of a row whose unit is the command's as it stands. -/
def carries (mk : HostUnit → Instr) (code : Nat) (c : Cmd) (cond : HostUnit → State → Prop)
    (f : HostUnit → State → Reply × State) : Prop := carriesAs false mk code c id cond f

/-! ### Conditions of acceptance -/

/-- A reply of `n` bytes fits the window of a port in chain mode (R384). -/
def fits (n : Nat) (u : HostUnit) (d : State) : Prop := u.port = .hs → d.pins.hsm = true → n ≤ d.hs.wlen / 8 - 8

/-- The port has a session (R312). -/
def inSession (u : HostUnit) (d : State) : Prop := (d.port u.port).session = true

/-- A session, an accepted set that holds the features, a mode other than SAFE, and a window for the longest reply: what most
commands need (R52, R303, R308, R312, R384). -/
def served (feats : List Nat) (longest : Nat) (u : HostUnit) (d : State) : Prop :=
  inSession u d ∧ d.chan.accepted ≠ none ∧ feats.all d.feat = true ∧ d.aon.mode ≠ .safe ∧ fits longest u d

/-- The part is no follower of a span (R450). -/
def notFollower (d : State) : Prop := d.span.role ≠ 3 ∧ d.span.role ≠ 4

/-- The unit names a context that its port owns or nobody will, and that will be in one of the states (R217, R303). -/
def ofCtx (states : List Nat) (u : HostUnit) (d : State) : Prop :=
  byteAt u.payload 0 < 32 ∧ ((d.fut (byteAt u.payload 0)).st = 0 ∨ (d.fut (byteAt u.payload 0)).owner = u.port) ∧
    (d.fut (byteAt u.payload 0)).st ∈ states

/-- The bounds of R304 have room for one more command, of a context where one is named. -/
def spare (ctx : Option Nat) (d : State) : Prop := d.inFlight < 64 ∧ ∀ i, ctx = some i → d.flightOf i < 8

/-! ### Replies and effects -/

/-- The reply of a command that is carried out whole, and the reply of a tagged one. -/
def ok (bs : List Byte) (s : State) : Reply × State := (.fixed (0 :: bs), s)

/-- A tagged command: the lowest free tag is the reply, and what follows is given the tag. -/
def withTag (code : Nat) (ctx : Option Nat) (u : HostUnit) (s : State) (f : Nat → State → State) : Reply × State :=
  let t := (freeTag s).getD 0
  ok [BitVec.ofNat 8 t] (f t { s with chan.tags := s.chan.tags.set t (some
    { port := u.port, code := code, ctx := ctx, done := false, err := 0, comp := [], discard := false }) })

/-- A deferred command waits after those accepted before it. -/
def deferred (code : Nat) (u : HostUnit) (s : State) : State :=
  { s with chan.deferred := s.chan.deferred ++ [{ port := u.port, code := code, payload := u.payload }] }

/-! ### Rows of events -/

/-- A row acts where a condition holds, and changes nothing elsewhere. -/
def actsWhen (x : Instr) (cond : State → Prop) (f : State → State) : Prop :=
  ∀ s : State, (cond s → exec x s = .next (f s)) ∧ (¬ cond s → exec x s = .next s)

/-! ### Turns -/

/-- Context `i` is in its turn, with an entry running. -/
def inTurn (i : Nat) (t : Turn) (s : State) : Prop :=
  s.eng.turn = some t ∧ t.inEntry = true ∧ t.cur = i ∧ i < s.ctxs.length

/-- An instruction of the given cost in the turn of a context fits the budget (R236). -/
def runs (i cost : Nat) (t : Turn) (s : State) : Prop := inTurn i t s ∧ t.used + cost ≤ (s.ctx i).budget

/-- The state in which an instruction takes effect: the pc is advanced, and its cycles are charged (R227, R245). -/
def issued (i cost : Nat) (s : State) : State := charge cost (s.modCtx i (fun c => { c with pc := c.pc + 4 }))

/-- What follows the effect: the entry ends where the pc has come to 0xFFFFFFFC (R225). -/
def after (i : Nat) (s : State) : State := if (s.ctx i).pc = 0xFFFFFFFC then endEntry s else s

/-- A context with a register written; d0 takes no value (R225). -/
def put (i : Nat) (r : Reg) (v : Word) (s : State) : State :=
  s.modCtx i (fun c => { c with regs := if r = 0 then c.regs else c.regs.set r.toNat v })

/-- A context with its four flags set. -/
def flags (i : Nat) (z n c v : Bool) (s : State) : State := s.modCtx i (fun k => { k with z := z, n := n, c := c, v := v })

/-- A context with a register written and the flags of "ZN": C and V are clear (R244). -/
def putZN (i : Nat) (r : Reg) (v : Word) (s : State) : State := flags i (decide (v = 0)) v.msb false false (put i r v s)

/-- A context with its pc set. -/
def jump (i pc : Nat) (s : State) : State := s.modCtx i (fun c => { c with pc := pc })

/-- A register ALU instruction means `f`: with the carry and the two operands, the result, C and V. The flags change only
where the instruction asks for them (R247). `unary` operations need a b field of 0. -/
def aluMeans (unary : Bool) (mk : OpR → Instr) (f : Bool → Word → Word → Word × Bool × Bool) : Prop :=
  ∀ (o : OpR) (i : Nat) (t : Turn) (s : State), runs i 1 t s → o.rsv = 0 → (unary = true → o.b = 0) →
    let r := f (s.ctx i).c (s.reg i o.a) (s.reg i o.b)
    exec (mk o) s = .next (after i
      (if o.s then flags i (decide (r.1 = 0)) r.1.msb r.2.1 r.2.2 (put i o.d r.1 (issued i 1 s)) else put i o.d r.1 (issued i 1 s)))

/-- An immediate instruction means `f`: it writes a register and no flag (R248), where `legal` holds of its operands. -/
def immMeans (mk : OpI → Instr) (legal : OpI → Prop) (f : Word → BitVec 18 → Word) : Prop :=
  ∀ (o : OpI) (i : Nat) (t : Turn) (s : State), runs i 1 t s → legal o →
    exec (mk o) s = .next (after i (put i o.d (f (s.reg i o.a) o.imm) (issued i 1 s)))

/-! ### Words that statements use -/


/-- Whether a number fits 32 signed bits. -/
def signed32 (x : Int) : Bool := -2147483648 ≤ x && x ≤ 2147483647

/-- One more for a carry that is set. -/
def one (c : Bool) : Nat := if c then 1 else 0

/-- Bit k of a word of which bits 31 down to k + 1 are clear; 32 for 0. -/
def leadingZeros (a : Word) : Nat := ((List.range 32).takeWhile (fun k => !a.getLsbD (31 - k))).length

/-- The smaller and the larger of two words in an order. -/
def pick (first : Bool) (a b : Word) : Word := if first then a else b

/-- A signed value held to 16 bits. -/
def hold16 (x : Int) : Int := if x < -32768 then -32768 else if 32767 < x then 32767 else x

/-- The value of a condition on the flags of a context (R243). -/
def condition (c : Ctx) : Nat → Bool
  | 0 => c.z
  | 1 => !c.z
  | 2 => c.n != c.v
  | 3 => c.n == c.v
  | 4 => !c.c
  | 5 => c.c
  | 6 => c.n
  | 7 => !c.n
  | 8 => c.v
  | 9 => !c.v
  | 10 => !c.z && c.n == c.v
  | 11 => c.z || c.n != c.v
  | _ => true

/-- The address `4 * off` bytes from the instruction of a context, in 32 bits. -/
def away (c : Ctx) (off : Int) : Nat := (((c.pc : Int) + 4 * off) % 4294967296).toNat

/-- The trap of a context in its turn: its turn ends before the instruction, and the next turn follows (R236). -/
def trapped (i cause detail : Nat) (t : Turn) (s : State) : State :=
  settleTurn turnFuel (endTurn t.used (faultCtx i cause detail (s.ctx i).pc s))

/-! ### Memories -/

/-- Flash, code store and the rooms are in canonical form. -/
def memoriesOk (s : State) : Prop :=
  Memory.wf erased s.mem.flash = true ∧ Memory.wf 0 s.eng.code = true ∧
    ∀ c ∈ s.ctxs, Memory.wf 0 c.room = true

end Sys2Proof.Safety
end

