-- ==== Sys2Proof/Certificates/Slice0/Obligations.lean ====
section
/-! DEFINITION. The statements about the GL8640. -/

open Sys2Proof Sys2Proof.Machine Sys2Proof.Safety

/-! ## The block -/

/-- The front command of the queue is carried out on the state with the queue's rest; with an empty queue the block does
what it does by itself: an instruction of an open turn, or one tick (the model's own, log 1). -/
def Obligations.StepTakesTheFrontCommand : Prop :=
  (∀ (c : Instr) (s : State), step { s with pending := c :: s.pending } = exec c s) ∧
  (∀ (s : State), s.pending = [] → s.eng.turn = none → step s = .next (advance 1 s)) ∧
  (∀ (s : State) (t : Turn), s.pending = [] → s.eng.turn = some t → step s = .next (engineStep s))

/-- Every command has an effect or an error reply: none of them stops the block. -/
def Obligations.EveryCommandAnswersANextState : Prop := ∀ (c : Instr) (s : State), ∃ t : State, exec c s = .next t

/-! ## Dyrel: words -/

/-- R239-R242: the decoder gives back every well-formed instruction from the word that the encoder makes of it. -/
def Obligations.DecodeOfEncode : Prop :=
  ∀ (x : Instr) (w : Word), x.wf = true → encodeWord x = some w → decodeWord w = x

/-- R242: every word is an instruction, and encoding that instruction gives the word back: no bit is dropped, and no two
words are one instruction. -/
def Obligations.EncodeOfDecode : Prop := ∀ w : Word, encodeWord (decodeWord w) = some w

/-- R240, R242, R247, R250, R261, R264-R267: words written out from the formats, and the instructions that they are. -/
def Obligations.DecodedWords : Prop :=
  decodeWord 0b000000_0011_0001_0010_1_00000000_00001#32 = .sub { d := 3, a := 1, b := 2, s := true, rsv := 0 } ∧
  decodeWord 0b000001_0011_0001_111111111111111111#32 = .addi { d := 3, a := 1, imm := -1 } ∧
  decodeWord 0b001110_0100_0101_0110_00000000001010#32 = .csel { d := 4, a := 5, b := 6, fn := 10 } ∧
  decodeWord 0b010000_0010_0011_000000000000010000#32 = .ldw { d := 2, a := 3, imm := 16 } ∧
  decodeWord 0b010101_0010_1110_0000_01_111111111110#32 = .sth { d := 2, a := 14, b := 0, off := -2 } ∧
  decodeWord 0b010110_1100_1111111111111111111110#32 = .bCond { cond := 12, off := -2 } ∧
  decodeWord 0b100001_0001_0010_001000_000000000011#32 = .pred { d := 1, a := 2, plane := 8, fn := 3 } ∧
  decodeWord 0b111000_0001_0010_0000_00000000_1_00100#32 = .leaveRelease { d := 1, a := 2, b := 0, hi := 0, lo := 4 } ∧
  decodeWord 0b111011_0001_0000_0000_00000001_1_00000#32 = .spanReceive { d := 1, a := 0, b := 0, hi := 1, lo := 0 } ∧
  decodeWord 0b111100_0001_0010_0011_0000000000_0101#32 = .sysCalrd { d := 1, a := 2, b := 3, rsv := 0 } ∧
  decodeWord 0b111101_0001_0000_0000_0000000000000_1#32 = .memPoll { d := 1, a := 0, b := 0, rsv := 0 } ∧
  decodeWord 0#32 = .add { d := 0, a := 0, b := 0, s := false, rsv := 0 } ∧
  decodeWord 0xFFFFFFFF#32 = .reservedOpcode 0xFFFFFFFF#32

/-! ## Dyrel: what an instruction does -/

/-- R227, R239: an instruction advances the pc of its own context by 4 and charges its cycles to the turn; no other context
and no other part of the machine changes but the clock and what follows it (the wall clock, the flags of the open ledger
period). -/
def Obligations.AnInstructionIsIssued : Prop :=
  ∀ (i cost : Nat) (t : Turn) (s : State), inTurn i t s →
    let u := issued i cost s
    u.ctx i = { s.ctx i with pc := (s.ctx i).pc + 4 } ∧ (∀ j, j ≠ i → u.ctx j = s.ctx j) ∧
    u.eng = { s.eng with turn := some { t with used := t.used + cost } } ∧
    u = { s with ctxs := u.ctxs, eng := u.eng, clk := u.clk, wc := u.wc
                 led := { s.led with period := { s.led.period with flags := u.led.period.flags } } }

/-- R247, R244, with the flags of R244: each operation of the register ALU with its result and its flags, and ILLEGAL for a
reserved field, a reserved operation, or a b field where it must be 0. That SBC clears C on a borrow is the model's reading
(log 12). -/
def Obligations.RegisterAlu : Prop :=
  aluMeans false .add (fun _ a b => (a + b, 2 ^ 32 ≤ a.toNat + b.toNat, !signed32 (a.toInt + b.toInt))) ∧
  aluMeans false .sub (fun _ a b => (a - b, b.toNat ≤ a.toNat, !signed32 (a.toInt - b.toInt))) ∧
  aluMeans false .and (fun _ a b => (a &&& b, false, false)) ∧
  aluMeans false .or (fun _ a b => (a ||| b, false, false)) ∧
  aluMeans false .xor (fun _ a b => (a ^^^ b, false, false)) ∧
  aluMeans false .shl (fun _ a b => let n := b.toNat % 32; (a <<< n, n != 0 && a.getLsbD (32 - n), false)) ∧
  aluMeans false .shr (fun _ a b => let n := b.toNat % 32; (a >>> n, n != 0 && a.getLsbD (n - 1), false)) ∧
  aluMeans false .sar (fun _ a b => let n := b.toNat % 32; (a.sshiftRight n, n != 0 && a.getLsbD (n - 1), false)) ∧
  aluMeans false .mul (fun _ a b => (BitVec.ofNat 32 (a.toNat * b.toNat), false, !signed32 (a.toInt * b.toInt))) ∧
  aluMeans false .mulh (fun _ a b => (BitVec.ofInt 32 (a.toInt * b.toInt / 2 ^ 32), false, false)) ∧
  aluMeans false .mulhu (fun _ a b => (BitVec.ofNat 32 (a.toNat * b.toNat / 2 ^ 32), false, false)) ∧
  aluMeans false .min (fun _ a b => (pick (a.toInt < b.toInt) a b, false, false)) ∧
  aluMeans false .max (fun _ a b => (pick (b.toInt < a.toInt) a b, false, false)) ∧
  aluMeans false .minu (fun _ a b => (pick (a.toNat < b.toNat) a b, false, false)) ∧
  aluMeans false .maxu (fun _ a b => (pick (b.toNat < a.toNat) a b, false, false)) ∧
  aluMeans false .adc (fun c a b =>
    (BitVec.ofNat 32 (a.toNat + b.toNat + one c), 2 ^ 32 ≤ a.toNat + b.toNat + one c, !signed32 (a.toInt + b.toInt + one c))) ∧
  aluMeans false .sbc (fun c a b =>
    (BitVec.ofInt 32 ((a.toNat : Int) - b.toNat - one (!c)), b.toNat + one (!c) ≤ a.toNat,
     !signed32 (a.toInt - b.toInt - one (!c)))) ∧
  aluMeans true .abs (fun _ a _ => (BitVec.ofNat 32 a.toInt.natAbs, false, a == 0x80000000#32)) ∧
  aluMeans true .clz (fun _ a _ => (BitVec.ofNat 32 (leadingZeros a), false, false)) ∧
  aluMeans true .popc (fun _ a _ => (BitVec.ofNat 32 ((List.range 32).countP a.getLsbD), false, false)) ∧
  aluMeans true .sat16 (fun _ a _ => (BitVec.ofInt 32 (hold16 a.toInt), false, hold16 a.toInt != a.toInt)) ∧
  aluMeans false .andn (fun _ a b => (a &&& ~~~b, false, false)) ∧
  (∀ mk ∈ [Instr.add, .sub, .and, .or, .xor, .shl, .shr, .sar, .mul, .mulh, .mulhu, .min, .max, .minu, .maxu, .adc, .sbc, .abs,
      .clz, .popc, .sat16, .andn], ∀ (o : OpR) (i : Nat) (t : Turn) (s : State), inTurn i t s → o.rsv ≠ 0 →
    exec (mk o) s = .next (trapped i 2 0 t s)) ∧
  (∀ mk ∈ [Instr.abs, .clz, .popc, .sat16], ∀ (o : OpR) (i : Nat) (t : Turn) (s : State), inTurn i t s → o.b ≠ 0 →
    exec (mk o) s = .next (trapped i 2 0 t s)) ∧
  (∀ (w : Word) (i : Nat) (t : Turn) (s : State), inTurn i t s → w.toNat / 2 ^ 26 = 0 → 22 ≤ w.toNat % 32 →
    decodeWord w = .reservedOpcode w ∧ exec (.reservedOpcode w) s = .next (trapped i 2 0 t s))

/-- R248: the immediate forms, which change no flag; CMPI and TSTI, which change flags alone; CSEL; and ILLEGAL where a field
that must be 0 is not. -/
def Obligations.ImmediateAlu : Prop :=
  immMeans .addi (fun _ => True) (fun a k => a + k.signExtend 32) ∧
  immMeans .andi (fun _ => True) (fun a k => a &&& k.zeroExtend 32) ∧
  immMeans .ori (fun _ => True) (fun a k => a ||| k.zeroExtend 32) ∧
  immMeans .xori (fun _ => True) (fun a k => a ^^^ k.zeroExtend 32) ∧
  immMeans .shli (fun o => o.imm.toNat < 32) (fun a k => a <<< k.toNat) ∧
  immMeans .shri (fun o => o.imm.toNat < 32) (fun a k => a >>> k.toNat) ∧
  immMeans .sari (fun o => o.imm.toNat < 32) (fun a k => a.sshiftRight k.toNat) ∧
  immMeans .muli (fun _ => True) (fun a k => a * k.signExtend 32) ∧
  immMeans .lui (fun o => o.a = 0) (fun _ k => k.zeroExtend 32 <<< 14) ∧
  immMeans .mini (fun _ => True) (fun a k => pick (a.toInt < (k.signExtend 32).toInt) a (k.signExtend 32)) ∧
  immMeans .maxi (fun _ => True) (fun a k => pick ((k.signExtend 32).toInt < a.toInt) a (k.signExtend 32)) ∧
  (∀ (o : OpI) (i : Nat) (t : Turn) (s : State), runs i 1 t s → o.d = 0 →
    let a := s.reg i o.a
    let b := o.imm.signExtend 32
    let m := a &&& o.imm.zeroExtend 32
    exec (.cmpi o) s = .next (after i (flags i (a - b == 0) (a - b).msb (b.toNat ≤ a.toNat) (!signed32 (a.toInt - b.toInt))
      (issued i 1 s))) ∧
    exec (.tsti o) s = .next (after i (flags i (m == 0) m.msb false false (issued i 1 s)))) ∧
  (∀ (o : OpA) (i : Nat) (t : Turn) (s : State), runs i 1 t s → o.fn.toNat < 13 →
    exec (.csel o) s = .next (after i
      (put i o.d (if condition (s.ctx i) o.fn.toNat then s.reg i o.a else s.reg i o.b) (issued i 1 s)))) ∧
  (∀ (o : OpI) (i : Nat) (t : Turn) (s : State), inTurn i t s →
    (32 ≤ o.imm.toNat → exec (.shli o) s = .next (trapped i 2 0x05 t s) ∧ exec (.shri o) s = .next (trapped i 2 0x06 t s) ∧
      exec (.sari o) s = .next (trapped i 2 0x07 t s)) ∧
    (o.d ≠ 0 → exec (.cmpi o) s = .next (trapped i 2 0x09 t s) ∧ exec (.tsti o) s = .next (trapped i 2 0x0D t s)) ∧
    (o.a ≠ 0 → exec (.lui o) s = .next (trapped i 2 0x0A t s))) ∧
  (∀ (o : OpA) (i : Nat) (t : Turn) (s : State), inTurn i t s → 13 ≤ o.fn.toNat → exec (.csel o) s = .next (trapped i 2 0x0E t s))

/-! ## Dyrel: loads, stores and control flow -/

/-- R249: a load writes its register from the bytes at a + sext(imm18), modulo 2^32; it changes no flag. A load from the flash
shelf passes through the prefetch lines, which charge its stall. -/
def Obligations.Loads : Prop :=
  let means (mk : OpI → Instr) (n : Nat) (f : List Byte → Word) : Prop :=
    ∀ (o : OpI) (i : Nat) (t : Turn) (s : State),
      let ea := (s.reg i o.a + o.imm.signExtend 32).toNat
      let bytes := if 0x10000000 ≤ ea ∧ ea < 0x10002000 then Memory.readN 0 (s.ctx i).room (ea - 0x10000000) n
        else if 0x40000000 ≤ ea ∧ ea < 0x44000000 then Memory.readN 0xFF s.mem.flash (ea - 0x40000000) n
        else (List.range n).map (fun k => (shelfByte s i (ea + k)).getD 0)
      runs i (1 + (loadLine ea s).1) t s → loadCap s i ea = none → loadBounds s i ea n = none →
      exec (mk o) s = .next (after i (put i o.d (f bytes) (loadLine ea (issued i (1 + (loadLine ea s).1) s)).2))
  means .ldw 4 (fun b => BitVec.ofNat 32 (ofLe b)) ∧
  means .ldh 2 (fun b => (BitVec.ofNat 16 (ofLe b)).signExtend 32) ∧
  means .ldhu 2 (fun b => BitVec.ofNat 32 (ofLe b)) ∧
  means .ldb 1 (fun b => (BitVec.ofNat 8 (ofLe b)).signExtend 32) ∧
  means .ldbu 1 (fun b => BitVec.ofNat 32 (ofLe b)) ∧
  (∀ (s : State) (ea : Nat), ¬ (0x40000000 ≤ ea ∧ ea < 0x44000000) → loadLine ea s = (0, s))

/-- R250: a store writes the low bytes of d, least significant first, at a + sext(fn[11:0]) in the room of its own context:
every other byte of the room, every other room, and flash read as before, and no register and no flag changes. -/
def Obligations.Stores : Prop :=
  let means (mk : OpT → Instr) (n : Nat) : Prop :=
    ∀ (o : OpT) (i : Nat) (t : Turn) (s : State),
      let ea := (s.reg i o.a + o.off.signExtend 32).toNat
      runs i 1 t s → o.b = 0 → ea % n = 0 → 0x10000000 ≤ ea → ea + n ≤ 0x10002000 →
      let u := writeRoom i ea (le n (s.reg i o.d).toNat) (issued i 1 s)
      exec (mk o) s = .next (after i u) ∧
      (u.ctx i).regs = (s.ctx i).regs ∧
      (u.ctx i).z = (s.ctx i).z ∧ (u.ctx i).n = (s.ctx i).n ∧ (u.ctx i).c = (s.ctx i).c ∧ (u.ctx i).v = (s.ctx i).v ∧
      (∀ j, j ≠ i → u.ctx j = s.ctx j) ∧ u.mem = s.mem ∧
      (Memory.wf 0 (s.ctx i).room = true → ∀ x : Nat,
        Memory.read 0 (u.ctx i).room x =
          if ea - 0x10000000 ≤ x ∧ x < ea - 0x10000000 + n then
            BitVec.ofNat 8 ((s.reg i o.d).toNat / 256 ^ (x - (ea - 0x10000000)))
          else Memory.read 0 (s.ctx i).room x)
  means .stw 4 ∧ means .sth 2 ∧ means .stb 1

/-- R251, R250: the traps of loads and stores: BOUNDS 3 where the address is not a multiple of the width, BOUNDS 1 for a
store outside the room, BOUNDS 0 for a load outside every area, NOPERM 7 for a load from the flash shelf without MEMORY,
BOUNDS 0 there without DYREL_XIP and BOUNDS 4 in a fenced sector; ILLEGAL for a store with a b field that is not 0. -/
def Obligations.AccessTraps : Prop :=
  let loads (mk : OpI → Instr) (n : Nat) : Prop :=
    ∀ (o : OpI) (i : Nat) (t : Turn) (s : State), inTurn i t s →
      let ea := (s.reg i o.a + o.imm.signExtend 32).toNat
      let flash : Prop := 0x40000000 ≤ ea ∧ ea < 0x44000000
      (flash → s.holds i 7 = false → exec (mk o) s = .next (trapped i 4 7 t s)) ∧
      ((flash → s.holds i 7 = true) →
        (ea % n ≠ 0 → exec (mk o) s = .next (trapped i 3 3 t s)) ∧
        (ea % n = 0 → ¬ flash → ¬ (0x10000000 ≤ ea ∧ ea + n ≤ 0x10002000) → shelfByte s i ea = none →
          exec (mk o) s = .next (trapped i 3 0 t s)) ∧
        (ea % n = 0 → flash → s.feat 35 = false → exec (mk o) s = .next (trapped i 3 0 t s)) ∧
        (ea % n = 0 → flash → s.feat 35 = true → ea - 0x40000000 + n ≤ s.window → s.fenced (ea - 0x40000000) n = true →
          exec (mk o) s = .next (trapped i 3 4 t s)))
  let stores (mk : OpT → Instr) (n : Nat) : Prop :=
    ∀ (o : OpT) (i : Nat) (t : Turn) (s : State), inTurn i t s →
      let ea := (s.reg i o.a + o.off.signExtend 32).toNat
      (o.b ≠ 0 → exec (mk o) s = .next (trapped i 2 0x15 t s)) ∧
      (o.b = 0 → ea % n ≠ 0 → exec (mk o) s = .next (trapped i 3 3 t s)) ∧
      (o.b = 0 → ea % n = 0 → ¬ (0x10000000 ≤ ea ∧ ea + n ≤ 0x10002000) → exec (mk o) s = .next (trapped i 3 1 t s))
  loads .ldw 4 ∧ loads .ldh 2 ∧ loads .ldhu 2 ∧ loads .ldb 1 ∧ loads .ldbu 1 ∧ stores .stw 4 ∧ stores .sth 2 ∧ stores .stb 1

/-- R252: branches, calls, jumps and loops, by the condition, the link register and the pc; a transfer counts from the
instruction's own address. A reserved condition, an a field of LOOP that is not 0, its d field of 0 and a d field of BZ or
BNZ that is not 0 raise ILLEGAL. No flag changes. -/
def Obligations.ControlFlow : Prop :=
  (∀ (o : OpB) (i : Nat) (t : Turn) (s : State), runs i 1 t s → o.cond.toNat < 13 →
    let u := issued i 1 s
    let to_ := away (s.ctx i) o.off.toInt
    exec (.bCond o) s = .next (after i (if condition (s.ctx i) o.cond.toNat then jump i to_ u else u)) ∧
    exec (.callCond o) s = .next (after i (if condition (s.ctx i) o.cond.toNat then
      jump i to_ (put i 15 (BitVec.ofNat 32 ((s.ctx i).pc + 4)) u) else u))) ∧
  (∀ (o : OpI) (i : Nat) (t : Turn) (s : State), runs i 1 t s →
    let u := issued i 1 s
    let to_ := away (s.ctx i) o.imm.toInt
    let goal := (s.reg i o.a + o.imm.signExtend 32).toNat
    (goal % 4 = 0 → exec (.jmp o) s = .next (after i (jump i goal (put i o.d (BitVec.ofNat 32 ((s.ctx i).pc + 4)) u)))) ∧
    (o.a = 0 → o.d ≠ 0 → exec (.loop o) s = .next (after i
      (let v := put i o.d (s.reg i o.d - 1) u
       if s.reg i o.d = 1 then v else jump i to_ v))) ∧
    (o.d = 0 → exec (.bz o) s = .next (after i (if s.reg i o.a = 0 then jump i to_ u else u)) ∧
      exec (.bnz o) s = .next (after i (if s.reg i o.a = 0 then u else jump i to_ u)))) ∧
  (∀ (o : OpB) (i : Nat) (t : Turn) (s : State), inTurn i t s → 13 ≤ o.cond.toNat →
    exec (.bCond o) s = .next (trapped i 2 0x16 t s) ∧ exec (.callCond o) s = .next (trapped i 2 0x17 t s)) ∧
  (∀ (o : OpI) (i : Nat) (t : Turn) (s : State), inTurn i t s →
    ((s.reg i o.a + o.imm.signExtend 32).toNat % 4 ≠ 0 → exec (.jmp o) s = .next (trapped i 3 3 t s)) ∧
    (o.a ≠ 0 ∨ o.d = 0 → exec (.loop o) s = .next (trapped i 2 0x19 t s)) ∧
    (o.d ≠ 0 → exec (.bz o) s = .next (trapped i 2 0x1A t s) ∧ exec (.bnz o) s = .next (trapped i 2 0x1B t s)))

/-- R262, R253: YIELD, and a transfer to 0xFFFF_FFFC, end the present entry: the turn goes on with its next entry, or the
next turn begins; no flag changes. After a frame entry the lost flags are clear (R223). -/
def Obligations.YieldEndsTheEntry : Prop :=
  (∀ (o : OpA) (i : Nat) (t : Turn) (s : State), runs i 1 t s → o.d = 0 → o.a = 0 → o.b = 0 → o.fn = 0 →
    exec (.yield o) s = .next (endEntry (jump i 0xFFFFFFFC (issued i 1 s)))) ∧
  (∀ (o : OpA) (i : Nat) (t : Turn) (s : State), inTurn i t s → o.d ≠ 0 ∨ o.a ≠ 0 ∨ o.b ≠ 0 ∨ o.fn ≠ 0 →
    exec (.yield o) s = .next (trapped i 2 0x39 t s)) ∧
  (∀ (i : Nat) (t : Turn) (s : State), inTurn i t s →
    let left : State := { s with eng.turn := some { t with inEntry := false, msg := none } }
    endEntry s = settleTurn turnFuel (if t.entryKind = 3 then
      left.modCtx i (fun c => { c with lostNotice := false, lostQueue := false }) else left)) ∧
  (∀ (i : Nat) (s : State), i < s.ctxs.length → (s.ctx i).pc = 0xFFFFFFFC → after i s = endEntry s)

/-- R225: an entry begins with the pc at its offset, d1 its argument, d14 the room, d15 the return address and clear flags,
and 4 cycles are charged; the other registers keep their values. -/
def Obligations.EntriesBegin : Prop :=
  ∀ (i k arg : Nat) (msg : Option Notice) (t : Turn) (s : State), s.eng.turn = some t → i < s.ctxs.length →
    (s.ctx i).regs.length = 16 →
    let u := beginEntry i k arg msg s
    (u.ctx i).pc = (s.ctx i).img.entry k ∧ u.reg i 1 = BitVec.ofNat 32 arg ∧ u.reg i 14 = 0x10000000#32 ∧
    u.reg i 15 = 0xFFFFFFFC#32 ∧ (∀ r : Reg, r ≠ 1 → r ≠ 14 → r ≠ 15 → u.reg i r = s.reg i r) ∧
    (u.ctx i).z = false ∧ (u.ctx i).n = false ∧ (u.ctx i).c = false ∧ (u.ctx i).v = false ∧
    u.eng.turn = some { t with inEntry := true, entryKind := k, msg := msg, used := t.used + 4 }

/-! ## Dyrel: traps and the engine -/

/-- R267, R242: BRK and every reserved word raise ILLEGAL with the major opcode. -/
def Obligations.BreakAndReservedWordsTrap : Prop :=
  (∀ (r : BitVec 26) (i : Nat) (t : Turn) (s : State), inTurn i t s → exec (.brk r) s = .next (trapped i 2 0x3E t s)) ∧
  (∀ (w : Word) (i : Nat) (t : Turn) (s : State), inTurn i t s →
    exec (.reservedOpcode w) s = .next (trapped i 2 (w.toNat / 2 ^ 26) t s)) ∧
  (∀ w : Word, w.toNat / 2 ^ 26 = 0x3F → decodeWord w = .reservedOpcode w) ∧
  (∀ w : Word, w.toNat / 2 ^ 26 ∈ [0x0F, 0x1C, 0x1D, 0x1E, 0x1F, 0x25, 0x26, 0x27, 0x28, 0x29, 0x2A, 0x2B, 0x31, 0x32, 0x33,
    0x37] → decodeWord w = .reservedOpcode w)

/-- R236: a trap puts its context into FAULTED with its room, registers, flags and pc as they were, notes the cause, the
detail and the pc, drops its requests and grants, and leaves no contact assigned to it; what other contexts are does not
change. -/
def Obligations.ATrapFaultsItsContext : Prop :=
  ∀ (i cause detail pc : Nat) (s : State), i < s.ctxs.length → i < s.runs.length → i < 32 →
    let u := faultCtx i cause detail pc s
    (u.ctx i).st = 5 ∧ (u.ctx i).room = (s.ctx i).room ∧ (u.ctx i).regs = (s.ctx i).regs ∧ (u.ctx i).pc = (s.ctx i).pc ∧
    (u.run i).cause = cause ∧ (u.run i).detail = detail ∧ (u.run i).faultPc = pc ∧
    (∀ j, j ≠ i → (u.ctx j).st = (s.ctx j).st ∧ (u.ctx j).room = (s.ctx j).room ∧ (u.ctx j).regs = (s.ctx j).regs) ∧
    (∀ q ∈ u.power.reqs, q.who ≠ i) ∧ (∀ g ∈ u.grants, g.who ≠ i) ∧
    (∀ c ∈ u.pipe.contacts, getBit c.ctxs i = false)

/-- R245: the checks of an instruction in their order: the decoding, the capability, the operands, the budget. The first that
fails raises its trap; while no entry runs, an instruction has no effect. -/
def Obligations.ChecksInOrder : Prop :=
  ∀ (op i : Nat) (plan : Nat → State → Plan) (t : Turn) (s : State),
    ((∀ u, s.eng.turn = some u → u.inEntry = false) → dyrelRow op plan s = .next s) ∧
    (inTurn i t s →
      let p := plan i s
      (p.legal = false → dyrelRow op plan s = .next (trapped i 2 op t s)) ∧
      (p.legal = true → (∀ k, p.cap = some k → dyrelRow op plan s = .next (trapped i 4 k t s)) ∧
        (p.cap = none → (∀ d, p.bounds = some d → dyrelRow op plan s = .next (trapped i 3 d t s)) ∧
          (p.bounds = none →
            ((s.ctx i).budget < t.used + p.cost → dyrelRow op plan s = .next (trapped i 1 0 t s)) ∧
            (t.used + p.cost ≤ (s.ctx i).budget →
              dyrelRow op plan s = .next (after i (p.run (issued i p.cost s))))))))

/-- R222, R239, R245: the engine fetches the word at the pc of the context in its turn, least significant byte first, and
carries out the instruction that it decodes to; a pc that is no multiple of 4 or beyond the code segment raises BOUNDS 2. -/
def Obligations.TheEngineRunsTheFetchedInstruction : Prop :=
  ∀ (i : Nat) (t : Turn) (s : State), inTurn i t s →
    let c := s.ctx i
    ((c.pc % 4 ≠ 0 ∨ c.img.size < c.pc + 4) → engineStep s = trapped i 3 2 t s) ∧
    (c.pc % 4 = 0 → c.pc + 4 ≤ c.img.size → c.img.xip = false →
      engineStep s = runInstr (decodeWord (BitVec.ofNat 32 (ofLe (Memory.readN 0 s.eng.code (c.img.base + c.pc) 4)))) s) ∧
    (∀ x : Instr, (encodeWord x).isSome = true → exec x s = .next (runInstr x s))

/-! ## Dyrel: planes, contacts, events, leave, time, span and system -/

/-- R256, R254: PLD, PRED, PCNT, PCENT and PCOPY on a plane that may be read: the element or the result of the box in d with
the flags of "ZN", or the elements copied to the room. -/
def Obligations.PlaneOperations : Prop :=
  (∀ (o : OpP) (i size width : Nat) (t : Turn) (s : State), inTurn i t s → s.feat 33 = true →
    planeShape o.plane.toNat = some (size, width) → planeCap s i o.plane.toNat = none →
    let k := o.plane.toNat
    let e := (s.reg i o.a).toNat
    let f := o.fn.toNat
    (f = 0 → e < size → runs i 2 t s →
      exec (.pld o) s = .next (after i (putZN i o.d (planeElem s k e) (issued i 2 s)))) ∧
    (∀ box, boxOf k (s.reg i o.a) = some box →
      let n := (box.length + 3) / 4
      let q := decide (8 ≤ f)
      let xs := boxElems s k q box
      let half : Prop := f < 16 ∧ (f < 8 ∨ k = 5 ∨ k = 6)
      (k ≠ 4 → f % 8 ≤ 4 → half → runs i (4 + n) t s →
        exec (.pred o) s = .next (after i (putZN i o.d (reduce (f % 8) xs) (issued i (4 + n) s)))) ∧
      (k ≠ 4 → f % 8 ≤ 3 → half → runs i (4 + n) t s →
        let old := (s.reg i o.d).toInt
        exec (.pcnt o) s = .next (after i (putZN i o.d (BitVec.ofNat 32 (xs.filter (fun x =>
          if f % 4 = 0 then decide (old ≤ x.2) else if f % 4 = 1 then decide (x.2 ≤ old) else if f % 4 = 2 then x.2 == old
          else x.2 != old)).length) (issued i (4 + n) s)))) ∧
      (k ≤ 3 ∨ (7 ≤ k ∧ k ≤ 9) → f = 0 → runs i (4 + n) t s →
        exec (.pcent o) s = .next (after i (putZN i o.d (centroidOf xs) (issued i (4 + n) s))))) ∧
    (1 ≤ f → f ≤ 2560 → e + f ≤ size → (s.reg i o.d).toNat % width = 0 → 0x10000000 ≤ (s.reg i o.d).toNat →
      (s.reg i o.d).toNat + f * width ≤ 0x10002000 → runs i (4 + (f + 1) / 2) t s →
      exec (.pcopy o) s = .next (after i (writeRoom i (s.reg i o.d).toNat
        ((List.range f).flatMap (fun j => le width (planeElem s k (e + j)).toNat)) (issued i (4 + (f + 1) / 2) s)))))

/-- R256: what PRED finds in a box that holds an element: the sum saturated to 32 signed bits, the largest and the smallest
value, and the lowest index at which each stands. A box without an element gives 0x8000_0000. -/
def Obligations.PredFindsTheExtremes : Prop :=
  (∀ kind : Nat, reduce kind [] = 0x80000000#32) ∧
  (∀ xs : List (Nat × Int), xs ≠ [] →
    (∃ hi ∈ xs, (∀ x ∈ xs, x.2 ≤ hi.2) ∧ reduce 1 xs = BitVec.ofInt 32 hi.2 ∧ reduce 3 xs = BitVec.ofNat 32 hi.1 ∧
      (xs.Pairwise (fun a b => a.1 < b.1) → ∀ x ∈ xs, x.2 = hi.2 → hi.1 ≤ x.1)) ∧
    (∃ lo ∈ xs, (∀ x ∈ xs, lo.2 ≤ x.2) ∧ reduce 2 xs = BitVec.ofInt 32 lo.2 ∧ reduce 4 xs = BitVec.ofNat 32 lo.1 ∧
      (xs.Pairwise (fun a b => a.1 < b.1) → ∀ x ∈ xs, x.2 = lo.2 → lo.1 ≤ x.1)) ∧
    reduce 0 xs = BitVec.ofInt 32 (max (-2147483648) (min 2147483647 (xs.map (·.2)).sum)))

/-- R257: CNEXT, CGET, CDIST, CIN and CCOUNT over the contacts that a context sees. -/
def Obligations.ContactOperations : Prop :=
  ∀ (o : OpA) (i : Nat) (t : Turn) (s : State), inTurn i t s →
    let f := o.fn.toNat
    let a := s.reg i o.a
    let b := (s.reg i o.b).toNat
    let see (w : Word) : Option Contact := if w.toNat < 64 then s.contactFor i w.toNat else none
    let seen := (List.range 64).filterMap (fun id => s.contactFor i id)
    let phased (c : Contact) : Bool := (f / 2 ^ phaseOf c) % 2 == 1
    let p := Memory.readN 0 (s.ctx i).room (b - 0x10000000) 8
    (o.b = 0 → f < 16 → f % 2 = 0 → runs i 2 t s →
      exec (.cnext o) s = .next (after i (putZN i o.d (match seen.find? (fun c => decide (a.toNat ≤ c.id) && phased c) with
        | some c => BitVec.ofNat 32 c.id
        | none => 0xFFFFFFFF#32) (issued i 2 s)))) ∧
    (o.b = 0 → f ≤ 10 → runs i 2 t s →
      exec (.cget o) s = .next (after i (putZN i o.d (match see a with
        | some c => contactField f c
        | none => 0) (issued i 2 s)))) ∧
    (f = 0 → runs i 4 t s →
      exec (.cdist o) s = .next (after i (putZN i o.d (match see a, see (s.reg i o.b) with
        | some x, some y => BitVec.ofNat 32 (roundSqrt (sq2 x.gx x.gy y.gx y.gy))
        | _, _ => 0xFFFFFFFF#32) (issued i 4 s)))) ∧
    (f = 0 → b % 2 = 0 → 0x10000000 ≤ b → b + 8 ≤ 0x10002000 → runs i 3 t s →
      exec (.cin o) s = .next (after i (putZN i o.d (match see a with
        | some c => if leAt p 0 2 ≤ c.gx ∧ c.gx < leAt p 4 2 ∧ leAt p 2 2 ≤ c.gy ∧ c.gy < leAt p 6 2 then 1 else 0
        | none => 0) (issued i 3 s)))) ∧
    (o.a = 0 → o.b = 0 → f < 16 → f % 2 = 0 → runs i 2 t s →
      exec (.ccount o) s = .next (after i (putZN i o.d (BitVec.ofNat 32 (seen.filter phased).length) (issued i 2 s))))

/-- R258, R259, R260, R268: EMIT writes a record with the context's origin and answers 1, or 0 for a contact that it does not
see, or 2 beyond 16 in a turn; MAILP posts the bytes and answers 1, or 0 while the host has yet to read the last; MAILACK
empties the box that the program sees. -/
def Obligations.EventsAndMail : Prop :=
  ∀ (o : OpA) (i : Nat) (t : Turn) (s : State), inTurn i t s →
    let f := o.fn.toNat
    let a := s.reg i o.a
    let u := issued i 4 s
    let see (w : Word) : Option Contact := if w.toNat < 64 then s.contactFor i w.toNat else none
    let emitted (r : Rec) (v : State) : State :=
      let w := putCtx i r v
      { w with eng.turn := w.eng.turn.map (fun t => { t with emits := t.emits + 1 }) }
    (s.holds i 0 = true → runs i 4 t s →
      (1 ≤ f → f ≤ 6 ∨ (128 ≤ f ∧ f < 256) → (f ≤ 3 → o.b = 0) → 16 ≤ t.emits →
        exec (.emit o) s = .next (after i (putZN i o.d 2 u))) ∧
      (1 ≤ f → f ≤ 3 → o.b = 0 → t.emits < 16 →
        exec (.emit o) s = .next (after i (match see a with
          | some c => putZN i o.d 1 (emitted { time := if f = 1 then c.onset else s.frame.mutComp, origin := s.originOf i
                                               typ := f, payload := contactPayload c } u)
          | none => putZN i o.d 0 u))) ∧
      (4 ≤ f → f ≤ 6 ∨ (128 ≤ f ∧ f < 256) → t.emits < 16 →
        exec (.emit o) s = .next (after i (putZN i o.d 1 (emitted { time := s.frame.mutComp, origin := s.originOf i, typ := f
                                                                    payload := le 4 a.toNat ++ le 4 (s.reg i o.b).toNat } u))))) ∧
    (s.holds i 9 = true → 1 ≤ f → f ≤ 64 → o.b = 0 → 0x10000000 ≤ a.toNat → a.toNat + f ≤ 0x10002000 →
      runs i (4 + (f + 3) / 4) t s →
      let v := issued i (4 + (f + 3) / 4) s
      let mail := Memory.readN 0 (s.ctx i).room (a.toNat - 0x10000000) f
      exec (.mailp o) s = .next (after i (if (s.ctx i).mailOut = [] then
        putZN i o.d 1 (putCtx i { time := s.clk.tb, origin := s.originOf i, typ := 0x11, payload := fit 8 0 [b8 f] }
          (v.modCtx i (fun c => { c with mailOut := mail })))
        else putZN i o.d 0 v))) ∧
    (o.a = 0 → o.b = 0 → o.fn = 0 → runs i 2 t s →
      let v := issued i 2 s
      exec (.mailack o) s = .next (after i (if (s.ctx i).mailVis then
        putZN i o.d (BitVec.ofNat 32 (s.ctx i).mailIn.length)
          (v.modCtx i (fun c => { c with mailIn := [], mailVis := false, mailNew := false }))
        else putZN i o.d 0 v)))

/-- R261: LEAVE enters a request and answers 0, or 2 where the context has one pending or a grant of the class held, or 4
for a cost outside 1 to 255; with RELEASE it withdraws the request or releases the grant and answers 1, or answers 3. R263: TIME
reads the start of the MUTUAL slot, the cycles charged and left, the frame number and the wall clock. -/
def Obligations.LeaveAndTimeOperations : Prop :=
  (∀ (o : OpL) (i : Nat) (t : Turn) (s : State), runs i 4 t s → s.holds i 5 = true → o.hi = 0 → o.b = 0 →
     let k := o.lo.toNat % 16
     let cost := (s.reg i o.a).toNat
     let u := issued i 4 s
     k ∈ [2, 4, 5, 6, 7, 8] → (16 ≤ o.lo.toNat → k = 8) → (k = 5 → s.holds i 10 = true) →
     (exec (.leave o) s = .next (after i (
       if (s.reqOf k i).isSome ∨ (s.grantOf k i).isSome then putZN i o.d 2 u
       else if cost < 1 ∨ 255 < cost then putZN i o.d 4 u
       else putZN i o.d 0 (request k i cost false 0 (if k = 8 then decide (16 ≤ o.lo.toNat) else decide (k ∈ [2, 4, 5])) u)))) ∧
     (exec (.leaveRelease o) s = .next (after i (
       if (s.reqOf k i).isSome then putZN i o.d 1 (withdraw k i u)
       else if (s.grantOf k i).isSome then putZN i o.d 1 (releaseGrant k i u)
       else putZN i o.d 3 u)))) ∧
  (∀ (o : OpA) (i : Nat) (t : Turn) (s : State), runs i 1 t s → o.a = 0 → o.b = 0 → o.fn.toNat ≤ 6 →
     let v : Nat := match o.fn.toNat with
       | 0 => s.frame.mutComp % 2 ^ 32
       | 1 => s.frame.mutComp / 2 ^ 32
       | 2 => t.used
       | 3 => (s.ctx i).budget - t.used - 1
       | 4 => s.frame.comp
       | 5 => leAt s.eng.frameShelf 40 4
       | _ => leAt s.eng.frameShelf 44 4
     exec (.time o) s = .next (after i (putZN i o.d (BitVec.ofNat 32 v) (issued i 1 s))))

/-- R264, R268: SPAN sends eight bytes to the members of the island that it addresses, at most 4 times in a turn, and in the
event entry of a notice of kind 0x04 reads a word of its message with C set. -/
def Obligations.SpanOperations : Prop :=
  ∀ (o : OpL) (i : Nat) (t : Turn) (s : State), runs i 6 t s → s.feat 34 = true → s.holds i 8 = true →
    let all : Prop := 16 ≤ o.lo.toNat
    let mask : BitVec 16 := if 16 ≤ o.lo.toNat then s.others else s.others &&& BitVec.ofNat 16 (2 ^ (o.lo.toNat % 16))
    let u := issued i 6 s
    (o.hi = 0 → (all → o.lo.toNat = 16) →
      exec (.spanSend o) s = .next (after i (if mask ≠ 0 ∧ t.sends < 4 then
        putZN i o.d 1 { u with
          eng.turn := u.eng.turn.map (fun t => { t with sends := t.sends + 1 })
          spanx.msgsOut := u.spanx.msgsOut ++ [(i, mask.toNat, le 4 (s.reg i o.a).toNat ++ le 4 (s.reg i o.b).toNat)] }
        else putZN i o.d 0 u))) ∧
    (o.hi.toNat < 2 → o.a = 0 → o.b = 0 → o.lo = 0 →
      exec (.spanReceive o) s = .next (after i (match t.msg with
        | some m =>
          if m.word % 256 = 4 then (putZN i o.d (BitVec.ofNat 32 (leAt m.msg (4 * o.hi.toNat) 4)) u).modCtx i (fun c => { c with c := true })
          else putZN i o.d 0 u
        | none => putZN i o.d 0 u)))

/-- R265: the system functions with their capabilities, their results in d, and their effects: the program counters of the
ledger, the requests to fans and backlight, the stock profile of a set, the freeze mask of the next K, and the registers of
block 0x5000. -/
def Obligations.SystemFunctions : Prop :=
  ∀ (o : OpS) (i : Nat) (t : Turn) (s : State), runs i 4 t s → o.rsv = 0 →
    let a := (s.reg i o.a).toNat
    let b := (s.reg i o.b).toNat
    let u := issued i 4 s
    let answer (ok : Prop) [Decidable ok] (v : State) : Host.Outcome State Fault Refusal :=
      .next (after i (if ok then putZN i o.d 1 v else putZN i o.d 0 u))
    (s.holds i 6 = true → exec (.sysLedger o) s = answer (b ≤ 3 ∧ s.feat 83 = true)
      { u with led.period.progs := modAt (fun v => min 0xFFFFFFFF (v + a)) b u.led.period.progs }) ∧
    (s.holds i 4 = true → exec (.sysFan o) s = answer (b ≤ 2 ∧ a ≤ 20000 ∧ s.feat 64 = true)
      (u.modRun i (fun r => { r with fanReq := r.fanReq.set b a }))) ∧
    (s.holds i 10 = true → exec (.sysBacklight o) s = answer (b ≤ 1 ∧ a ≤ 1000 ∧ s.feat 66 = true)
      (u.modRun i (fun r => { r with blReq := r.blReq.set b (some a) }))) ∧
    (s.holds i 2 = true → exec (.sysProfile o) s =
      answer (a ≤ 3 ∧ b ≤ 2 ∧ Profile.fits (stockProfile a) b = true ∧ s.span.joined = false)
        { u with fe.sets := u.fe.sets.set b { stock := a, record := stockProfile a } }) ∧
    (s.holds i 3 = true → exec (.sysFreeze o) s = answer (a < 256) { u with eng.freezeNext := some a }) ∧
    (s.holds i 3 = true → exec (.sysCalrd o) s = .next (after i (putZN i o.d
      (if (a = 0x5010 ∧ 40 ≤ b) ∨ (0x5018 ≤ a ∧ a ≤ 0x5020 ∧ 2560 ≤ b) then 0
       else BitVec.ofNat 32 ((calReg s a b b).getD 0)) u)))

/-- R266: MEM START answers what the descriptor at its address meets, and starts the transfer where it answers 0; MEM POLL
reads how the last one stands. -/
def Obligations.MemoryTransfers : Prop :=
  ∀ (o : OpM) (i : Nat) (t : Turn) (s : State), runs i 6 t s → o.rsv = 0 → o.b = 0 → s.holds i 7 = true →
    let a := (s.reg i o.a).toNat
    let d := Memory.readN 0 (s.ctx i).room (a - 0x10000000) 16
    let u := issued i 6 s
    (0x10000000 ≤ a → a + 16 ≤ 0x10002000 →
      exec (.memStart o) s = .next (after i (putZN i o.d (BitVec.ofNat 32 (descResult s d))
        (if descResult s d = 0 then descStart i d u else u)))) ∧
    (o.a = 0 → exec (.memPoll o) s = .next (after i (putZN i o.d
      (BitVec.ofNat 32 (if s.feat 80 = true then (s.run i).poll else 4)) u)))

/-! ## Units, status and replies -/

/-- R301: the bits of a port's status byte, and what each stands for. -/
def Obligations.StatusByteBits : Prop :=
  ∀ (p : Port) (s : State),
    let b := statusByte p s
    b < 256 ∧ b.testBit 7 = s.chan.rdy ∧ b.testBit 6 = s.evt p ∧ b.testBit 5 = decide (s.causes p ≠ 0) ∧
    b.testBit 4 = (s.port p).badf ∧ b.testBit 3 = (s.port p).qful ∧ b.testBit 2 = (s.port p).snap ∧
    b.testBit 1 = (s.chan.wake || s.clk.coreStopped) ∧ b.testBit 0 = decide (s.chan.faults ≠ 0) ∧
    (s.causes p).testBit 0 = s.chan.tags.any (fun g => match g with
      | some g => g.port == p && g.done && !g.discard
      | none => false) ∧
    (s.causes p).testBit 1 = (match p with
      | .tw => s.aon.lapse0
      | .hs => s.aon.lapse1) ∧
    (s.causes p).testBit 3 = (s.port p).causeNew ∧ (s.causes p).testBit 4 = (s.port p).causeReset ∧
    (s.causes p).testBit 5 = (s.port p).causePeer ∧ (s.causes p).testBit 6 = (s.port p).causeSpan

/-- R303: the checks from step 3 on in their order. The first that fails is the verdict; a command that passes them all is
accepted. -/
def Obligations.ChecksOfACommandInOrder : Prop :=
  ∀ (p : Port) (session : Bool) (k : Checks) (s : State),
    let v := verdict p session k s
    let negotiated : Prop := (k.free = true ∨ session = true) ∧ (k.early = true ∨ s.chan.accepted ≠ none)
    let follower : Prop := s.span.role = 3 ∨ s.span.role = 4
    let safeLock : Prop := s.aon.mode = .safe ∧ k.safe = false
    let tooLong : Prop := p = .hs ∧ s.pins.hsm = true ∧ s.hs.wlen / 8 - 8 < k.longest
    (k.served = false → v = 0x01) ∧
    (k.served = true → (¬ negotiated → v = 0x07) ∧
      (negotiated → (k.feats.all s.feat = false → v = 0x01) ∧
        (k.feats.all s.feat = true → (safeLock ∨ k.locked = true → v = 0x0F) ∧
          (¬ (safeLock ∨ k.locked = true) → (k.lenOk = false ∨ tooLong → v = 0x02) ∧
            (¬ (k.lenOk = false ∨ tooLong) → (k.held = true ∧ follower → v = 0x0C) ∧
              (¬ (k.held = true ∧ follower) → (k.perm = false → v = 0x05) ∧
                (k.perm = true → (k.busy = true → v = 0x08) ∧
                  (k.busy = false → (k.inRange = false → v = 0x0D) ∧
                    (k.inRange = true → (k.flight = true ∧ s.full k.ctx = true → v = 0x06) ∧
                      (¬ (k.flight = true ∧ s.full k.ctx = true) → v = 0)))))))))) 

/-- R303, R325: a unit that fails a step has no effect but its verdict: the error code as the held reply, QFUL for a refusal by
the bounds, BADF clear. -/
def Obligations.ARefusedCommandHasNoEffect : Prop :=
  ∀ (code : Nat) (resync : Bool) (c : Cmd) (u : HostUnit) (s : State), passes code resync u s →
    let v := judged code resync c u s
    let d := (delivered code resync u s).modPort u.port (fun q => { q with badf := false })
    v ≠ 0 → v ≠ 0x0D →
      hostUnit code resync c u s = setReply u.port (.fixed [BitVec.ofNat 8 v])
        (if v = 0x06 then d.modPort u.port (fun q => { q with qful := true }) else d)

/-- R9, R325, R346, R378, R379: a unit with a code that is not assigned is answered with BAD_CMD; a unit that fails its check
field or is cut short has no effect, sets BADF, is counted, and leaves BAD_CHECK as the held reply; on the serial port a wrong
alive counter leaves BAD_ALIVE; a frame that repeats the last one sends the held reply again. -/
def Obligations.RejectedUnits : Prop :=
  (∀ (u : HostUnit) (code : Nat) (s : State), assignedCode code = false → passes code false u s →
    exec (.unassignedCode u code) s = .next (setReply u.port (.fixed [0x01#8])
      ((delivered code false u s).modPort u.port (fun q => { q with badf := false })))) ∧
  (∀ (u : HostUnit) (code : Nat) (cut : Bool) (s : State), u.port = .tw → s.serves = true →
    cut = true ∨ twFate code u s = .badCheck →
    let b := twBegin s
    exec (.unitRejected u code cut) s = .next { b with
      tw.check := min 65535 (b.tw.check + 1)
      chan.tw := { b.chan.tw with badf := true, reply := .fixed [0x03#8], copied := none } }) ∧
  (∀ (u : HostUnit) (code : Nat) (s : State), u.port = .hs → s.serves = true →
    let t := hsEdge u.clocks u.mode3 s
    let r := hsReply t
    t.hs.present = true → hsFate code (code == 0x08) u t = .badAlive → hsFate code (code == 0x08) u r = .badAlive →
    exec (.unitRejected u code false) s = .next { r with
      hs.replyAlive := u.alive % 256
      hs.alive := min 65535 (r.hs.alive + 1)
      chan.hs := { r.chan.hs with badf := true, reply := .fixed [0x04#8], copied := none } }) ∧
  (∀ (u : HostUnit) (code : Nat) (s : State), u.port = .hs → s.serves = true →
    (hsEdge u.clocks u.mode3 s).hs.present = true → hsFate code (code == 0x08) u s = .repeated →
    exec (.repeatFrame u code) s = .next (hsReply (hsEdge u.clocks u.mode3 s)))

/-- R375, R383, R386, R394, R397: a serial transaction without a unit sends the status byte and the held reply; a busy one
sends the status byte and 0xFF and changes no reply; while the port is held in reset nothing happens, and an absent port
sends zeros. -/
def Obligations.SerialTransactions : Prop :=
  ∀ (x : SerialEdge) (s : State),
    let t := hsEdge x.clocks x.mode3 s
    (s.serves = true → t.hs.present = true → exec (.idleTransaction x) s = .next (hsReply t)) ∧
    (s.chan.rdy = true → t.hs.present = true → exec (.busyTransaction x) s = .next { t with
      hs.busy := min 65535 (t.hs.busy + 1)
      chan.hs := { t.chan.hs with out := [BitVec.ofNat 8 (statusByte .hs t), 0xFF#8] } }) ∧
    (s.chan.rdy = true → t.hs.present = false → exec (.busyTransaction x) s = .next { t with
      chan.hs := { t.chan.hs with out := [0#8] } }) ∧
    (s.chan.rdy = false → exec (.idleTransaction x) s = .next s ∧ exec (.busyTransaction x) s = .next s) ∧
    t.hs.nclk = min 65536 x.clocks ∧ t.hs.cpol = x.mode3

/-- R307, R348, R375: what a command with a live reply does is to hold it; the reply is copied when its first byte is sent,
and stays as copied. Each read is accepted in the states and with the payloads of its layout, and elsewhere a step of R303
refuses it. What the replies read as is the layout of IDENT (R328), FEAT_READ (R329), FAULT_READ, which clears NEWFAULT (R332),
TAG_READ, which frees a tag that is done (R334), CTX_STATE (R337), IMG_LIST and IMG_KEY_READ (R295, R296), EVT_READ, whose
records take their numbers at the copy (R317), JOURNAL_READ (R321), FE_GET (R124), IMAGE_READ (R125), CENSUS_READ (R126),
CLAMP_READ, which with flag 0 clears flags and counters (R159), THERM_READ and FAN_STATE (R496, R500), POWER_STATE and
POWER_GRANTS (R77, R79), CLOCK_READ (R528), MEM_READ, LEDGER_READ and registers. EVT_READ with flag 0 acknowledges the records of
the last EVT_READ. That the nu median of CAL_STATE leaves out channels whose nu is not valid is the model's choice (log 20). -/
def Obligations.LiveReads : Prop :=
  let n (u : HostUnit) (k : Nat) : Nat := byteAt u.payload k
  let len (u : HostUnit) : Nat := u.payload.length
  let rows (u : HostUnit) (most : Nat) (k : Nat) : Prop := 1 ≤ k ∧ k ≤ (if u.port = .tw then 14 else most)
  let bytes (u : HostUnit) (k : Nat) : Prop := 1 ≤ k ∧ k ≤ (if u.port = .tw then 240 else 4096)
  let image (d : State) : List Nat := if d.otp.sigreq then [32, 36] else [32]
  let holds (mk : HostUnit → Instr) (code : Nat) (c : Cmd) (cond : HostUnit → State → Prop) : Prop :=
    carries mk code c cond (fun u e => (.live code u.payload, e))
  let reads (mk : HostUnit → Instr) (code : Nat) (c : Cmd) (cond : HostUnit → State → Prop)
      (reply : Port → List Byte → State → List Byte) : Prop :=
    holds mk code c cond ∧ ∀ (p : Port) (pl : List Byte) (v : State), liveReply p code pl v = (0 :: reply p pl v, v)
  let reg (mk : HostUnit → Instr) (a : Nat) : Prop :=
    carriesAs false mk 0xE0 cmdRegRead (atReg a) (fun u d => inSession u d ∧ d.aon.mode ≠ .safe ∧ fits (4 * n u 2) u d ∧ len u = 3 ∧
      leAt u.payload 0 2 % 4 = 0 ∧ 1 ≤ n u 2 ∧ n u 2 ≤ (if u.port = .tw then 60 else 255)) (fun u e => (.live 0xE0 u.payload, e))
  (reads .ident 0x01 cmdIdent (fun u d => fits 16 u d ∧ len u = 0) (fun p _ v =>
     le 2 0x5057 ++ le 2 0x8640 ++ [2, b8 (portNum p), b8 v.pins.gpos, 0] ++ le 8 v.otp.uid) ∧
   reads .featRead 0x02 cmdFeatRead (fun u d => fits 16 u d ∧ len u = 1 ∧ n u 0 ≤ 1) (fun _ pl v =>
     le 16 (if byteAt pl 0 == 0 then v.offered else v.chan.accepted.getD 0).toNat) ∧
   holds .faultRead 0x05 cmdFaultRead (fun u d => inSession u d ∧ fits 16 u d ∧ len u = 0) ∧
   holds .tagRead 0x07 cmdTagRead (fun u d => inSession u d ∧ d.aon.mode ≠ .safe ∧ len u = 1 ∧
     (n u 0 = 0xFF ∨ ∃ g, n u 0 < 64 ∧ d.chan.tags.getD (n u 0) none = some g ∧ g.port = u.port) ∧
     fits (6 + (match (tagNamed u.port (n u 0) d).bind (fun i => tagIn i d) with
       | some g => g.comp.length
       | none => 0)) u d) ∧
   reads .ctxState 0x17 cmdCtxState (fun u d => inSession u d ∧ d.chan.accepted ≠ none ∧ fits 24 u d ∧ len u = 1 ∧ n u 0 < 32)
     (fun _ pl v =>
       let c := v.ctx (byteAt pl 0)
       let r := v.run (byteAt pl 0)
       [b8 c.st, if c.st == 0 then 0xFF else b8 (portNum c.owner)] ++ le 2 c.caps.toNat ++ [b8 c.prio, b8 (sourceOf c), 0, 0] ++
         le 4 c.budget ++ le 4 r.used ++ [b8 r.cause, b8 r.detail, 0, 0] ++ le 4 r.faultPc) ∧
   reads .imgList 0x24 cmdImgList (fun u d => served (image d) (16 * n u 1) u d ∧ len u = 2 ∧ rows u 32 (n u 1) ∧ n u 0 + n u 1 ≤ 32)
     (fun _ pl v => (List.range (byteAt pl 1)).flatMap (fun k => imgEntry v (byteAt pl 0 + k))) ∧
   reads .imgKeyRead 0x26 cmdImgKeyRead (fun u d => served (image d) 33 u d ∧ len u = 0) (fun _ _ v =>
     v.imgKey.getD (zeros 32) ++ [b8 (flagsOf [v.imgKey.isSome, v.otp.sigreq, v.otp.imgA.spent || v.otp.imgB.spent,
       (blankSlot v.otp.imgA v.otp.imgB).isNone])]) ∧
   carries .evtRead 0x30 cmdEvtRead (fun u d => served [] (8 + 16 * n u 0) u d ∧ len u = 2 ∧ rows u 64 (n u 0) ∧ n u 1 ≤ 1)
     (fun u e => (.live 0x30 u.payload,
       if (n u 1).testBit 0 then ackRecs u.port (fun k => (e.port u.port).lastRead.contains k) e else e)) ∧
   holds .journalRead 0x33 cmdJournalRead (fun u d => served [] (8 + 16 * n u 5) u d ∧ len u = 6 ∧ n u 0 ≤ 1 ∧ rows u 64 (n u 5) ∧
     (n u 0 = 0 ∨ seqBefore d.jrn.next (leAt u.payload 1 4) = false)) ∧
   holds .feGet 0x41 cmdFeGet (fun u d => served [] 33 u d ∧ len u = 1 ∧ n u 0 ≤ 2) ∧
   reads .imageRead 0x43 cmdImageRead (fun u d => served [] (4 + leAt u.payload 3 2) u d ∧ len u = 5 ∧ bytes u (leAt u.payload 3 2) ∧
     leAt u.payload 1 2 + leAt u.payload 3 2 ≤ planeSize (n u 0) ∧ (rawPlane (n u 0) = true → d.feat 6 = true) ∧
     (n u 0 = 11 → d.feat 7 = true))
     (fun _ pl v => le 4 v.planes.frame ++ slice (planeBytes v (byteAt pl 0)) (leAt pl 1 2) (leAt pl 3 2)) ∧
   reads .censusRead 0x44 cmdCensusRead (fun u d => served [7] 144 u d ∧ len u = 0) (fun _ _ v =>
     le 4 v.planes.frame ++ [b8 v.planes.comp.bin,
       b8 (flagsOf [v.planes.comp.hop, v.planes.comp.rejected, v.fe.hopHeld, v.fe.noQuiet]), b8 v.fe.hops, 0] ++
       le 4 (maskOf 32 (fun i => eligible v v.fe.inUse v.prof i)).toNat ++ le 4 v.planes.comp.rejMask.toNat ++ planeBytes v 11) ∧
   holds .clampRead 0x46 cmdClampRead (fun u d => served [] 223 u d ∧ len u = 1 ∧ n u 0 ≤ 1) ∧
   reads .calState 0x50 cmdCalState (fun u d => served [] 24 u d ∧ len u = 0) (fun _ _ v => calStateBytes v) ∧
   reads .thermRead 0x60 cmdThermRead (fun u d => served [] 32 u d ∧ len u = 0) (fun _ _ v =>
     (v.therm.inputs.map (·.temp) ++ [v.therm.die]).flatMap (leS 2) ++
     [b8 (flagsOf ((List.range 4).map (fun i => (v.thm i).fail) ++ [v.shdn.asserted, v.shdn.oor])), b8 v.shdn.tcrit] ++
     v.thermal.fans.flatMap (fun f => le 2 f.speed) ++ v.thermal.fans.flatMap (fun f => le 2 (min 65535 f.rpm)) ++
     [b8 (flagsOf [(v.fan 0).failed, (v.fan 1).failed, (v.fan 2).failed, v.thermal.override, v.shdn.asserted,
       v.thermal.bls.any (·.derating)]), b8 v.thermal.policy] ++ v.thermal.bls.flatMap (fun b => le 2 b.duty) ++ zeros 2) ∧
   reads .fanState 0x64 cmdFanState (fun u d => served [64] 16 u d ∧ len u = 1 ∧ n u 0 ≤ 2) (fun _ pl v =>
     let f := v.fan (byteAt pl 0)
     [b8 f.st, b8 f.cause] ++ le 2 f.speed ++ le 2 (min 65535 f.rpm) ++ le 2 f.target ++ le 2 f.drive ++
       le 2 (min 65535 f.current) ++ leS 1 (Int.fdiv f.temp 10) ++ [b8 (ceilDiv f.retryMs 1000), b8 f.epis, b8 f.retries]) ∧
   reads .powerState 0x71 cmdPowerState (fun u d => inSession u d ∧ d.chan.accepted ≠ none ∧ fits 16 u d ∧ len u = 0) (fun _ _ v =>
     [b8 v.aon.mode.code, b8 v.aon.rate] ++ le 2 v.power.cap ++ le 2 v.base ++ le 2 v.heldCost ++
     [b8 v.grants.length, b8 v.power.reqs.length] ++ le 2 (v.metered v.meter.vinMv) ++ le 2 (v.metered v.meter.avg) ++
     [b8 (flagsOf [v.power.dip, v.power.overcap, v.power.vmotUv, v.md.forced.isSome, v.feat 67]), 0]) ∧
   reads .powerGrants 0x73 cmdPowerGrants (fun u d => served [] (1 + 6 * d.power.slots.length) u d ∧ len u = 0) (fun _ _ v =>
     b8 v.grants.length :: v.grants.flatMap (fun g =>
       [b8 g.cls, b8 (g.who % 256)] ++ le 2 g.cost ++ [b8 (flagsOf [g.revocable, standing g.cls]), 0])) ∧
   reads .spanState 0x81 cmdSpanState (fun u d => served [48] 32 u d ∧ len u = 0) (fun _ _ v => spanState v) ∧
   reads .spanMembers 0x82 cmdSpanMembers (fun u d => served [48] (16 * n u 1) u d ∧ len u = 2 ∧ rows u 16 (n u 1) ∧ n u 0 + n u 1 ≤ 16)
     (fun _ pl v => (List.range (byteAt pl 1)).flatMap (fun k => memberBytes v (byteAt pl 0 + k))) ∧
   holds .memRead 0x92 cmdMemRead (fun u d => served [80] (leAt u.payload 4 2) u d ∧ len u = 6 ∧ memReadBusy d = false ∧
     bytes u (leAt u.payload 4 2) ∧ leAt u.payload 0 4 + leAt u.payload 4 2 ≤ d.flashSize) ∧
   reads .memState 0x95 cmdMemState (fun u d => served [80] 24 u d ∧ len u = 0) (fun _ _ v => memState v) ∧
   reads .clockRead 0xA1 cmdClockRead (fun u d => served [] 24 u d ∧ len u = 0) (fun _ _ v =>
     le 8 (if v.wc.set then v.wc.secs else 0) ++ le 4 (if v.wc.set then v.wc.ticks else 0) ++
     [b8 (flagsOf [v.wc.set, v.wc.coast, v.span.role == 3])] ++ zeros 3 ++ le 6 v.clk.tb ++ zeros 2) ∧
   reads .ledgerState 0xA3 cmdLedgerState (fun u d => served [83] 40 u d ∧ len u = 0) (fun _ _ v => ledgerState v) ∧
   holds .ledgerRead 0xA4 cmdLedgerRead (fun u d => served [83] (4 + 128 * n u 4) u d ∧ len u = 5 ∧
     (leAt u.payload 0 4 = 0xFFFFFFFF ∨ ledFlash d (leAt u.payload 0 4) (n u 4) = [] ∨ memReadBusy d = false) ∧
     1 ≤ n u 4 ∧ n u 4 ≤ (if u.port = .tw then 1 else 32) ∧ (leAt u.payload 0 4 = 0xFFFFFFFF ∨
       (seqBefore (leAt u.payload 0 4) d.ledOldest = false ∧ seqBefore (leAt u.payload 0 4) d.led.nextSeq = true))) ∧
   holds .regRead 0xE0 cmdRegRead (fun u d => inSession u d ∧ d.aon.mode ≠ .safe ∧ fits (4 * n u 2) u d ∧ len u = 3 ∧
     leAt u.payload 0 2 % 4 = 0 ∧ 1 ≤ n u 2 ∧ n u 2 ≤ (if u.port = .tw then 60 else 255)) ∧
   reg .clkTimeloRead 0x2010 ∧ reg .powerPinRead 0x1014 ∧ reg .twStretchRead 0x7010 ∧ reg .wcSecloRead 0xA020) ∧
  (∀ (p : Port) (code : Nat) (pl : List Byte) (s : State), (s.port p).reply = .live code pl →
     let r := liveReply p code pl s
     (sendReply p s).1 = r.1 ∧ ((sendReply p s).2.port p).reply = .fixed r.1 ∧
     sendReply p (sendReply p s).2 = (r.1, (sendReply p s).2.modPort p (fun q => { q with snap := false }))) ∧
  (∀ (p : Port) (pl : List Byte) (v : State),
     (∀ k, v.offered.getLsbD k = decide (k ≤ 7 ∨ (16 ≤ k ∧ k ≤ 20) ∨ (k = 21 ∧ v.pins.hsm = false) ∨ (k = 22 ∧ v.pins.hsm = true) ∨
       (32 ≤ k ∧ k ≤ 36) ∨ k = 48 ∨ k = 49 ∨ (64 ≤ k ∧ k ≤ 67) ∨ (80 ≤ k ∧ k ≤ 84))) ∧
     (let r := liveReply p 0x05 pl v
      r.1 = 0 :: (le 4 v.chan.faults.toNat ++ le 4 (v.causes p) ++ le 4 ((aonReg v 0x14).getD 0) ++ le 4 v.chan.faultFrame) ∧
      (r.2.port p).causeNew = false ∧ (r.2.port p).seen = v.chan.faults) ∧
     (∀ (i : Nat) (g : Tag), i < 64 → byteAt pl 0 = i → v.chan.tags.getD i none = some g →
       (g.done = true → liveReply p 0x07 pl v = (0 :: ([b8 i, b8 g.code, 1, b8 g.err] ++ le 2 g.comp.length ++ g.comp),
         settle { v with chan.tags := v.chan.tags.set i none })) ∧
       (g.done = false → liveReply p 0x07 pl v = (0 :: [b8 i, b8 g.code, 0, 0, 0, 0], v))) ∧
     (byteAt pl 0 = 0xFF → (∀ (i : Nat) (g : Tag), i < 64 → v.chan.tags.getD i none = some g →
         g.port ≠ p ∨ g.done = false ∨ g.discard = true) → liveReply p 0x07 pl v = ([0, 0xFF, 0, 0, 0, 0, 0], v)) ∧
     (let all := v.readable p
      let w := numberRecs p (all.take (byteAt pl 0)) v
      let rs := (w.readable p).take (byteAt pl 0)
      let r := liveReply p 0x30 pl v
      r.1 = (0#8 : Byte) :: (le 4 (match rs with
          | q :: _ => q.seq.getD 0
          | [] => (w.port p).nextSeq) ++
        [b8 rs.length, b8 (if byteAt pl 0 < all.length then 1 else 0)] ++ le 2 (w.port p).dropped ++
        rs.flatMap (fun q => le 6 q.r.time ++ [b8 q.r.origin, b8 q.r.typ] ++ fit 8 0 q.r.payload)) ∧
      (r.2.port p).dropped = 0 ∧ (r.2.port p).lastRead = rs.map (fun q => q.seq.getD 0)) ∧
     (∀ x, v.fe.sets[byteAt pl 0]? = some x → liveReply p 0x41 pl v = (0 :: b8 x.stock :: fit 32 0 x.record, v)) ∧
     (let r := liveReply p 0x46 pl v
      r.1 = 0 :: (le 23 v.clamp.flags.toNat ++ le 23 v.clamp.opened.toNat ++ v.clamp.counters.map b8) ∧
      r.2 = if (byteAt pl 0).testBit 0 then { v with clamp.flags := 0, clamp.counters := List.replicate 177 0 } else v) ∧
     (let num := if byteAt pl 0 = 0 then (v.port p).jptr else leAt pl 1 4
      let held := num == v.jrn.next || (heldRecord v num).isSome
      let start := if held then num else oldestAfter v num
      let rs := heldRun v (byteAt pl 5) start
      let spilled := start != v.jrn.next && (ramRecord v start).isNone && !rs.isEmpty
      (seqBefore v.jrn.next num = true → liveReply p 0x33 pl v = ([0x0D#8], v)) ∧
      (seqBefore v.jrn.next num = false →
        (liveReply p 0x33 pl v).1 = (0#8 : Byte) :: (le 4 start ++ [b8 rs.length, b8 (flagsOf [spilled, !held]), 0, 0] ++
          rs.flatMap recBytes) ∧
        ((liveReply p 0x33 pl v).2.port p).jptr = (start + rs.length) % 2 ^ 32)) ∧
     (let a := leAt pl 0 4
      let k := leAt pl 4 2
      (v.fenced a k = true → liveReply p 0x92 pl v = ([0x0B#8], v)) ∧
      (v.fenced a k = false → v.clk.xtalFail = false → (liveReply p 0x92 pl v).1 = 0 :: Memory.readN 0xFF v.mem.flash a k)) ∧
     (leAt pl 0 4 = 0xFFFFFFFF → (liveReply p 0xA4 pl v).1 = 0 :: ([1, 0, 0, 0] ++ ledProvisional v)))

/-! ## Sessions, contexts, mail and images -/

/-- R327, R330, R331, R333, R335, R380, R349, R309: STATUS, FEAT_ACCEPT, SESSION_OPEN, FAULT_CLEAR and ALIVE_RESYNC, each with the
states and payloads that it is accepted in; what SESSION_OPEN and FAULT_CLEAR answer is copied when it is sent. A status read of
the two-wire port sends the status byte with its PEC and leaves the held reply. -/
def Obligations.SessionCommands : Prop :=
  let n (u : HostUnit) (k : Nat) : Nat := byteAt u.payload k
  let len (u : HostUnit) : Nat := u.payload.length
  let setOf (u : HostUnit) : FeatSet := BitVec.ofNat 128 (leAt u.payload 0 16)
  let complete (f : FeatSet) (d : State) : Prop :=
    f &&& ~~~d.offered = 0 ∧ ¬ (f.getLsbD 17 = true ∧ f.getLsbD 18 = true) ∧
    (f.getLsbD 33 = true ∨ f.getLsbD 34 = true ∨ f.getLsbD 35 = true ∨ f.getLsbD 36 = true → f.getLsbD 32 = true) ∧
    (f.getLsbD 34 = true ∨ f.getLsbD 49 = true → f.getLsbD 48 = true) ∧ (f.getLsbD 65 = true → f.getLsbD 64 = true) ∧
    (f.getLsbD 35 = true ∨ f.getLsbD 81 = true ∨ f.getLsbD 82 = true → f.getLsbD 80 = true) ∧
    (f.getLsbD 84 = true → f.getLsbD 83 = true)
  (∀ (u : HostUnit) (s : State), u.port = .tw → s.serves = true →
    let b := twBegin s
    let st := b8 (statusByte .tw b)
    exec (.status u) s = .next { b with chan.tw := { b.chan.tw with
      out := [st, b8 (crc8 [b8 b.twAddr, 0, b8 (b.twAddr + 1), st])] } }) ∧
  (∀ (u : HostUnit) (s : State), u.port = .hs → passes 0x00 false u s →
    (judged 0x00 false cmdStatus u s = 0 ↔ len u = 0) ∧
    (len u = 0 → exec (.status u) s = .next (setReply .hs (.fixed [0]) (entry 0x00 false u s)))) ∧
  carries .featAccept 0x03 cmdFeatAccept (fun u d => inSession u d ∧ fits 16 u d ∧ len u = 16 ∧
      (d.chan.accepted = none ∨ d.chan.accepted = some (setOf u)) ∧ complete (setOf u) d)
    (fun u e => ok (u.payload.take 16) (if e.chan.accepted.isSome then e else
      choose 0 { cause (otherPort u.port) (fun q => { q with causePeer := true })
        (hsPresence u.port (acceptSet (setOf u) e)) with md.bootHold := true })) ∧
  (∀ (f : FeatSet) (s : State), f.getLsbD 83 = false → f.getLsbD 48 = false → acceptSet f s = settle { s with
    chan.accepted := some f, tw.pecReq := f.getLsbD 16, tw.fmPlus := f.getLsbD 20 }) ∧
  carries .sessionOpen 0x04 cmdSessionOpen (fun u d => fits 8 u d ∧ len u = 1 ∧ n u 0 ≤ 1) (fun u e =>
    let opened := decide (n u 0 = 1)
    let was := (e.port u.port).session
    let a := e.modPort u.port (fun q => { q with session := opened })
    let b := if opened then a else settle (dropTags u.port a)
    let c := if opened = true ∧ u.port = .tw then { b with tw.hnOff := false, tw.hnRun := 0 } else b
    let d := if was ≠ opened then cause (otherPort u.port) (fun q => { q with causePeer := true }) c else c
    (.live 0x04 [b8 (flagsOf [was, (e.port (otherPort u.port)).session, e.chan.accepted.isSome])], d)) ∧
  (∀ (p : Port) (pl : List Byte) (v : State), liveReply p 0x04 pl v = (0 :: ([b8 (portNum p), b8 (byteAt pl 0), b8 v.aon.mode.code,
    b8 v.pins.boot] ++ le 2 (v.readable p).length ++ [b8 (v.portTags p), 0]), v)) ∧
  carries .faultClear 0x06 cmdFaultClear (fun u d => inSession u d ∧ fits 4 u d ∧ len u = 8 ∧ d.clk.xtalFail = false ∧
      leAt u.payload 0 4 < 2 ^ 14 ∧ leAt u.payload 4 4 < 2 ^ 7)
    (fun u e => (.live 0x06 u.payload, faultClear u.port (leAt u.payload 0 4) (leAt u.payload 4 4) e)) ∧
  (∀ (p : Port) (pl : List Byte) (v : State), liveReply p 0x06 pl v = (0 :: le 4 v.chan.faults.toNat, v)) ∧
  carriesAs true .aliveResync 0x08 cmdAliveResync id (fun u d => u.port = .hs ∧ d.pins.hsm = false ∧ inSession u d ∧ fits 1 u d ∧
      len u = 0)
    (fun _ e => (.fixed [0, if e.hs.eOpen then 0xFF else b8 e.hs.e],
      { e with hs.e := (e.hs.replyAlive + 1) % 256, hs.eOpen := false }))

/-- R337, R217-R220, R226, R290, R291, R228, R306: the context commands, each with the states and payloads that it is accepted in,
its reply, and what it does. CTX_OPEN takes effect at once but on a leader or behind a CTX_CLOSE that waits (log 21), the
CTX_CLOSE of a context that does not run but on a leader; every other command, and these there, wait in their order, and do at
their computation start what follows. -/
def Obligations.ContextCommands : Prop :=
  let i (u : HostUnit) : Nat := byteAt u.payload 0
  let n (u : HostUnit) (k : Nat) : Nat := byteAt u.payload k
  let len (u : HostUnit) : Nat := u.payload.length
  let later (u : HostUnit) (d : State) : Prop :=
    d.span.role = 2 ∨ ∃ x ∈ d.chan.deferred, x.code = 0x11 ∧ byteAt x.payload 0 = i u
  let caps (u : HostUnit) (d : State) : BitVec 16 :=
    let m := BitVec.ofNat 16 (leAt u.payload 1 2) &&& (if u.port = .tw then d.eng.pcap0 else d.eng.pcap1)
    if d.feat 33 then m else setBit m 1 false
  let opened (p : Port) (mask : BitVec 16) (pl : List Byte) (s : State) : State :=
    let budget := if leAt pl 4 4 = 0 then 16384 else leAt pl 4 4
    s.modCtx (byteAt pl 0) (fun c => if c.st = 0 then { Ctx.closed with
        st := 1, owner := p, caps := mask, prio := byteAt pl 3, budget := budget
        contract := { report := 38, wake := 0, wset := 0, grace := 0 }
        region := [{ x0 := 0, y0 := 0, x1 := 65535, y1 := 65535, excl := false }] }
      else { c with caps := mask, prio := byteAt pl 3, budget := budget })
  let kept (c : Contract) (d : State) : Prop :=
    (c.report = 0 ∨ (19 ≤ c.report ∧ c.report ≤ 60000)) ∧ (c.wake = 0 ∨ (13 ≤ c.wake ∧ c.wake ≤ 60000)) ∧ c.wset.toNat < 256 ∧
    (getBit c.wset 6 = true → d.feat 3 = true) ∧ c.grace ≤ 3600 ∧ (c.grace ≤ 60 ∨ d.feat 82 = true)
  (∀ (u : HostUnit) (s : State), passes 0x10 false u s →
    let d := reached 0x10 false u s
    let e := entry 0x10 false u s
    let m := caps u e
    let cond : Prop := served [] 2 u d ∧ len u = 8 ∧ notFollower d ∧ ofCtx [0, 1, 2, 4, 5] u d ∧ leAt u.payload 1 2 < 2048 ∧
      n u 3 ≤ 3 ∧ (leAt u.payload 4 4 = 0 ∨ (1024 ≤ leAt u.payload 4 4 ∧ leAt u.payload 4 4 ≤ 524288)) ∧
      (later u d → spare (some (i u)) d)
    (judged 0x10 false cmdCtxOpen u s = 0 ↔ cond) ∧
    (cond → ¬ later u d → exec (.ctxOpen u) s = .next (setReply u.port (.fixed (0 :: le 2 m.toNat)) (opened u.port m u.payload e))) ∧
    (cond → later u d → exec (.ctxOpen u) s = .next (setReply u.port (.fixed (0 :: le 2 m.toNat)) { e with
      chan.deferred := e.chan.deferred ++ [{ port := u.port, code := 0x10, payload := splice u.payload 1 (le 2 m.toNat) }] }))) ∧
  carries .ctxClose 0x11 cmdCtxClose (fun u d => served [] 0 u d ∧ len u = 1 ∧ notFollower d ∧ ofCtx [1, 2, 3, 4, 5] u d ∧
      (d.span.role = 2 ∨ (d.ctx (i u)).st = 3 → spare (some (i u)) d))
    (fun u e => ok [] (if e.span.role = 2 ∨ (e.ctx (i u)).st = 3 then deferred 0x11 u e
      else closeCtx (i u) { e with chan.deferred := e.chan.deferred.filter (fun x => !x.isOf (i u)) })) ∧
  carries .ctxContract 0x12 cmdCtxContract (fun u d => served [] 8 u d ∧ len u = 9 ∧ notFollower d ∧ ofCtx [1, 2, 3, 4, 5] u d ∧
      kept (contractOf (u.payload.drop 1)) d ∧ spare (some (i u)) d)
    (fun u e => ok (contractBytes (lastContract (i u) e)) (deferred 0x12 u e)) ∧
  carries .ctxRegion 0x13 cmdCtxRegion (fun u d => served [] 0 u d ∧ notFollower d ∧ ofCtx [1, 2, 3, 4, 5] u d ∧
      1 ≤ n u 1 ∧ n u 1 ≤ 4 ∧ len u = 2 + 10 * n u 1 ∧ (∀ k < n u 1,
        let r := slice u.payload (2 + 10 * k) 10
        leAt r 0 2 < leAt r 4 2 ∧ leAt r 2 2 < leAt r 6 2 ∧ byteAt r 8 ≤ 1 ∧ byteAt r 9 = 0) ∧ spare (some (i u)) d)
    (fun u e => ok [] (deferred 0x13 u e)) ∧
  carries .ctxStock 0x14 cmdCtxStock (fun u d => served [] 5 u d ∧ len u = 18 ∧ notFollower d ∧ ofCtx [1, 2, 4, 5] u d ∧
      getBit (d.fut (i u)).caps 0 = true ∧ n u 1 < 8 ∧ stockRange (n u 1) (slice u.payload 2 16) = true ∧
      (stockNeedsForce (n u 1) (slice u.payload 2 16) (lastContract (i u) d).wset = true → d.feat 3 = true) ∧
      stockWorst (n u 1) ≤ (d.fut (i u)).budget ∧ spare (some (i u)) d)
    (fun u e => ok (b8 (n u 1) :: le 4 (stockWorst (n u 1))) (deferred 0x14 u e)) ∧
  carries .ctxStart 0x15 cmdCtxStart (fun u d => served [] 0 u d ∧ len u = 2 ∧ notFollower d ∧ n u 1 ≤ 1 ∧
      ofCtx (if n u 1 = 1 then [4] else [2, 4, 5]) u d ∧ d.futBudget (i u) + (d.fut (i u)).budget ≤ 524288 ∧
      (∀ k ps, (d.fut (i u)).prog = .stock k ps → stockWorst k ≤ (d.fut (i u)).budget) ∧ spare (some (i u)) d)
    (fun u e => ok [] (deferred 0x15 u e)) ∧
  carries .ctxStop 0x16 cmdCtxStop (fun u d => served [] 0 u d ∧ len u = 1 ∧ notFollower d ∧ ofCtx [3, 5] u d ∧ spare (some (i u)) d)
    (fun u e => ok [] (deferred 0x16 u e)) ∧
  (∀ (x : Deferred) (xs waits : List Deferred) (s : State), dueAtK s x = true → x.code ≠ 0x22 → startWaits x s = false →
    runDeferred (x :: xs) [] waits s = runDeferred xs [] waits (applyDeferred x s)) ∧
  (∀ (p : Port) (pl : List Byte) (s : State),
    let k := byteAt pl 0
    let c := s.ctx k
    let at_ (code : Nat) : State := applyDeferred { port := p, code := code, payload := pl } s
    at_ 0x10 = opened p (BitVec.ofNat 16 (leAt pl 1 2)) pl s ∧ at_ 0x11 = closeCtx k s ∧
    (c.st = 0 → at_ 0x12 = s ∧ at_ 0x13 = s ∧ at_ 0x14 = s ∧ at_ 0x15 = s ∧ at_ 0x16 = s) ∧
    (c.st ≠ 0 →
      at_ 0x12 = notify k 0x05 [] (s.modCtx k (fun c => { c with contract := contractOf (pl.drop 1) })) ∧
      at_ 0x13 = notify k 0x05 [] (s.modCtx k (fun c => { c with region := rectsOf (byteAt pl 1) (pl.drop 2) }))) ∧
    (c.st = 3 → at_ 0x14 = s ∧ at_ 0x15 = s ∧ at_ 0x16 = leaveRunning 4 k s) ∧
    (c.st = 5 → at_ 0x16 = s.modCtx k (fun c => { c with st := 4 })) ∧
    (c.st ≠ 0 → c.st ≠ 3 → k < s.ctxs.length →
      (at_ 0x14).ctx k = { c with st := 2, prog := .stock (byteAt pl 1) (slice pl 2 16), img := .none } ∧
      (byteAt pl 1 ≠ 0 → (at_ 0x15).ctx k = { c with st := 3 }) ∧
      (byteAt pl 1 = 0 → (at_ 0x15).ctx k = { c with
        st := 3
        room := (match c.prog with
          | .image => Memory.cells 0 0 (c.img.roomInit.take 8192)
          | _ => [])
        regs := (List.range 16).map (fun r => if r = 14 then c.regs.getD 14 0 else 0)
        z := false, n := false, c := false, v := false
        notices := [], mailIn := [], mailNew := false, mailVis := false, mailOut := [], queue := { c.queue with recs := [] } }))) ∧
  (∀ (k : Nat) (s : State), k < s.ctxs.length → (closeCtx k s).ctx k = .closed ∧ ∀ j, j ≠ k → (closeCtx k s).ctx j = s.ctx j)

/-- R231, R229: CTX_MAIL_WRITE fills the box toward the context; CTX_MAIL_READ returns what the context posted, empties the
box and, where it held mail, queues notice 0x06. R318-R320, R317: EVT_ACK removes the records whose numbers come before the one
it names, and answers how many stay; EVT_MASK sets the mask and answers the one before. Each with the states and payloads that it
is accepted in. An acknowledgement touches the queues of its own port alone. -/
def Obligations.MailAndEventCommands : Prop :=
  (carries .ctxMailWrite 0x18 cmdCtxMailWrite (fun u d => served [] 0 u d ∧ 2 ≤ u.payload.length ∧ u.payload.length ≤ 65 ∧
       ofCtx [3, 4] u d ∧ (d.ctx (byteAt u.payload 0)).mailIn = [])
     (fun u e => ok [] (e.modCtx (byteAt u.payload 0) (fun c =>
       { c with mailIn := u.payload.drop 1, mailNew := true, mailVis := false }))) ∧
   carries .ctxMailRead 0x19 cmdCtxMailRead (fun u d => served [] 65 u d ∧ u.payload.length = 1 ∧ ofCtx [3, 4] u d) (fun u e =>
     let m := (e.ctx (byteAt u.payload 0)).mailOut
     let t := e.modCtx (byteAt u.payload 0) (fun c => { c with mailOut := [] })
     ok (b8 m.length :: m) (if m = [] then t else notify (byteAt u.payload 0) 0x06 [] t))) ∧
  (carries .evtAck 0x31 cmdEvtAck (fun u d => served [] 2 u d ∧ u.payload.length = 4 ∧
       seqBefore (d.port u.port).nextSeq (leAt u.payload 0 4) = false)
     (fun u e => (.live 0x31 u.payload, ackRecs u.port (fun n => seqBefore n (leAt u.payload 0 4)) e)) ∧
   (∀ (p : Port) (pl : List Byte) (v : State), liveReply p 0x31 pl v = (0 :: le 2 (v.readable p).length, v)) ∧
   carries .evtMask 0x32 cmdEvtMask (fun u d => served [] 2 u d ∧ u.payload.length = 2 ∧ leAt u.payload 0 2 < 512)
     (fun u e => ok (le 2 (e.port u.port).evtMask.toNat)
       (e.modPort u.port (fun q => { q with evtMask := BitVec.ofNat 16 (leAt u.payload 0 2) }))) ∧
   (∀ (p : Port) (gone : Nat → Bool) (s : State),
     let t := ackRecs p gone s
     let stays (r : QRec) : Bool := match r.seq with
       | some n => !gone n
       | none => true
     (t.port p).house.recs = (s.port p).house.recs.filter stays ∧
     (t.port (otherPort p)).house = (s.port (otherPort p)).house ∧
     (∀ i, (t.ctx i).queue.recs = if (s.ctx i).st ≠ 0 ∧ (s.ctx i).owner = p ∧ i < s.ctxs.length
       then (s.ctx i).queue.recs.filter stays else (s.ctx i).queue.recs)))

/-- R278-R283, R286-R288, R295-R297: the image commands with the states and payloads that they are accepted in, the checks of a
session's header, the end of a verification and its binding, the end of a session left idle, and the key writes of the
one-time-programmable memory. That a binding waits among the deferred commands of its context is the model's reading (log 28). -/
def Obligations.ImageCommands : Prop :=
  let i (u : HostUnit) : Nat := byteAt u.payload 0
  let len (u : HostUnit) : Nat := u.payload.length
  let image (d : State) : List Nat := if d.otp.sigreq then [32, 36] else [32]
  let had (u : HostUnit) (d : State) : Nat := ((d.session (i u)).map (·.bytes.length)).getD 0
  (carries .imgBegin 0x20 cmdImgBegin (fun u d => served (image d) 0 u d ∧ len u = 5 ∧ notFollower d ∧ ofCtx [1, 2, 3, 4, 5] u d ∧
       (d.session (i u) = none → (d.eng.sessions.filter (·.flash.isNone)).length < 4) ∧
       100 ≤ leAt u.payload 1 4 ∧ leAt u.payload 1 4 ≤ 270560)
     (fun u e =>
       let a := abortSession (i u) e
       ok [] { a with
         eng.aborted := a.eng.aborted.filter (· != i u)
         eng.sessions := a.eng.sessions ++ [{ ctx := i u, length := leAt u.payload 1 4, bytes := [], flash := none, headerOk := false
                                              reserved := 0, place := none, verifying := none, short := false, bad := false }] }) ∧
   carries .imgData 0x21 cmdImgData (fun u d => served (image d) 4 u d ∧ 6 ≤ len u ∧
       len u ≤ 5 + (if u.port = .tw then 240 else 4096) ∧ notFollower d ∧ ofCtx [1, 2, 3, 4, 5] u d ∧ d.session (i u) ≠ none ∧
       (leAt u.payload 1 4 = had u d ∨ leAt u.payload 1 4 + (len u - 5) ≤ had u d))
     (fun u e =>
       let r := appendData (i u) (u.payload.drop 5) e
       if leAt u.payload 1 4 = had u e then
         if r.1 = 0 then ok (le 4 (had u e + (len u - 5))) r.2 else (.fixed [0x09#8, b8 r.1], r.2)
       else ok (le 4 (had u e)) e) ∧
   (∀ (k : Nat) (data : List Byte) (s : State) (x : Session), s.session k = some x →
     let b := x.bytes ++ data
     let t := modSession false k (fun x => { x with bytes := b }) s
     let first : Prop := x.bytes.length < 64 ∧ 64 ≤ b.length
     let r := headerResult s (s.ctx k).caps (some x.length) (b.take 64)
     (¬ first → appendData k data s = (0, t)) ∧
     (first → r ≠ 0 → appendData k data s = (r, dropSession false k s)) ∧
     (first → r = 0 → appendData k data s = match reserve false k (hdrCode b) t with
       | some v => (0, v)
       | none => (0x07, dropSession false k s))) ∧
   carries .imgEnd 0x22 cmdImgEnd (fun u d => served (image d) 5 u d ∧ len u = 1 ∧ notFollower d ∧ ofCtx [1, 2, 4, 5] u d ∧
       d.verifies (i u) = false ∧ d.session (i u) ≠ none ∧ spare (some (i u)) d)
     (fun u e => withTag 0x22 (some (i u)) u e (fun t v =>
       modSession false (i u) (fun x => { x with verifying := some t, short := decide (x.bytes.length < x.length) }) v)) ∧
   carries .imgFromFlash 0x23 cmdImgFromFlash (fun u d =>
       served (image d ++ (if byteAt u.payload 5 = 1 then [35, 80] else [80])) 5 u d ∧ len u = 6 ∧ notFollower d ∧
       ofCtx [1, 2, 4, 5] u d ∧ d.mem.profile ≠ none ∧ d.verifies (i u) = false ∧ leAt u.payload 1 4 % 4 = 0 ∧
       byteAt u.payload 5 ≤ 1 ∧ spare (some (i u)) d)
     (fun u e => withTag 0x23 (some (i u)) u e (fun t v =>
       let xip := decide (byteAt u.payload 5 = 1)
       let w := otherRead (if xip then { v with mem.xipEn := true } else v)
       { w with eng.sessions := w.eng.sessions ++ [{ ctx := i u, length := 0, bytes := [], flash := some (leAt u.payload 1 4, xip)
                                                     headerOk := false, reserved := 0, place := none, verifying := some t
                                                     short := false, bad := false }] })) ∧
   carries .imgAbort 0x25 cmdImgAbort (fun u d => served (image d) 0 u d ∧ len u = 1 ∧ notFollower d ∧ i u < 32 ∧
       ((d.fut (i u)).st = 0 ∨ (d.fut (i u)).owner = u.port) ∧ d.session (i u) ≠ none)
     (fun u e => ok [] (abortSession (i u) e)) ∧
   carries .imgKeyProg 0x27 cmdImgKeyProg (fun u d => served (image d) 0 u d ∧ len u = 33 ∧ notFollower d ∧ d.aon.mode = .service ∧
       keyWrite u.payload d ≠ none ∧ d.otp.write = none ∧ leAt u.payload 0 32 ≠ 0 ∧ byteAt u.payload 32 ≤ 1 ∧ spare none d)
     (fun u e => withTag 0x27 none u e (fun t v =>
       let w := (keyWrite u.payload v).getD (0, false)
       { v with otp.write := some { ledger := false, slot := w.1, hash := u.payload.take 32, sigreq := w.2, tag := some t } }))) ∧
  (∀ (pl : List Byte) (s : State), keyWrite pl s = match s.imgKey with
    | some h => if (byteAt pl 32).testBit 0 = true ∧ s.otp.sigreq = false ∧ h = pl.take 32 then some (2, true) else none
    | none => if s.otp.imgA.isBlank then some (0, (byteAt pl 32).testBit 0)
      else if s.otp.imgB.isBlank then some (1, (byteAt pl 32).testBit 0) else none) ∧
  (∀ (k : Nat) (s : State),
    let out := exec (.imgVerifyDone k) s
    match s.eng.sessions.find? (fun x => x.ctx == k && x.verifying.isSome) with
    | none => out = .next s
    | some x =>
      let tag := x.verifying.getD 0
      let ends (fl : Bool) (r : Nat) (v : State) : State := completeTag tag 0x09 [b8 r] (dropSession fl k v)
      match x.flash with
      | none =>
        let r := if x.short then 0x0E else finalResult s (s.ctx k).caps x.length x.bytes
        (r ≠ 0 → out = .next (ends false r s)) ∧
        (r = 0 → (s.fut k).st = 3 → out = .next (completeTag tag 0x08 [] (modSession false k (fun x => { x with verifying := none }) s))) ∧
        (r = 0 → (s.fut k).st ≠ 3 → out = .next (awaitBind false k tag x x.bytes none s))
      | some (off, xip) =>
        let g := flashImage s (s.ctx k).caps off
        let r := if x.bad then 0x0F else g.1
        (r ≠ 0 → out = .next (ends true r s)) ∧
        (r = 0 → ∀ v, (if xip then some s else reserve true k (hdrCode g.2) s) = some v →
          let q := finalResult v (s.ctx k).caps (imgLength g.2) g.2
          (q ≠ 0 → out = .next (ends true q v)) ∧
          (q = 0 → (s.fut k).st = 3 → out = .next (completeTag tag 0x08 [] (dropSession true k v))) ∧
          (q = 0 → (s.fut k).st ≠ 3 → out = .next (awaitBind true k tag ((v.loading k).getD x) g.2
            (if xip then some (off + 64) else none) v))) ∧
        (r = 0 → xip = false → reserve true k (hdrCode g.2) s = none → out = .next (ends true 0x07 s))) ∧
  (∀ (w : BindWait) (s : State),
    let a := { s with eng.binds := s.eng.binds.filter (fun x => x.ctx != w.ctx) }
    ((s.ctx w.ctx).st = 3 → bindOne w s = completeTag w.tag 0x08 [] a) ∧
    ((s.ctx w.ctx).st = 0 → bindOne w s = completeTag w.tag 0x09 [0x0D] a) ∧
    ((s.ctx w.ctx).st ≠ 3 → (s.ctx w.ctx).st ≠ 0 → w.ctx < s.ctxs.length →
      let t := bindOne w s
      let base := if w.img.xip then w.img.base else w.place.getD 0
      t.ctx w.ctx = { s.ctx w.ctx with st := 2, prog := .image, img := { w.img with base := base } } ∧
      t.eng.code = (if w.img.xip then s.eng.code else Memory.writeN 0 s.eng.code base w.code) ∧
      (∀ j, j ≠ w.ctx → t.ctx j = s.ctx j))) ∧
  (∀ (k : Nat), actsWhen (.imgSessionAbort k)
    (fun s => (∃ x, s.session k = some x ∧ x.verifying = none) ∧ s.aon.mode ≠ .hibernate) (fun s => abortSession k s)) ∧
  (∀ (good : Bool) (s : State), s.otp.write = none → exec (.keyProgDone good) s = .next s) ∧
  (∀ (good : Bool) (s : State) (w : OtpWrite), s.otp.write = some w →
    let slot : OtpSlot := { hash := w.hash, check := crc32c w.hash, lock := good }
    let o := { s.otp with write := none }
    let p := match w.ledger, w.slot with
      | false, 0 => { o with imgA := slot }
      | false, _ => { o with imgB := slot }
      | true, 0 => { o with ledA := slot }
      | true, _ => { o with ledB := slot }
    (w.slot = 2 → exec (.keyProgDone good) s = .next (completeOpt w.tag 0 [] { s with otp := { o with sigreq := true } })) ∧
    (w.slot ≠ 2 → good = true → exec (.keyProgDone good) s = .next (completeOpt w.tag 0 [] { s with otp :=
      { p with sigreq := p.sigreq || w.sigreq } })) ∧
    (w.slot ≠ 2 → good = false → exec (.keyProgDone good) s = .next (completeOpt w.tag 0x0D [] { s with otp := p })))

/-! ## Host commands of the units of the part -/

/-- R24, R76, R78, R123, R124, R158, R210-R213: commands that set the front end, the bridges, the calibration, the cap and the
mode, each with the states and payloads that it is accepted in. Each answers the setting before it as its layout says. What takes
effect at a later instant waits among the deferred commands, and does at that instant what follows: a freeze mask, a seed and a
restore at a computation start, front-end settings at a boundary, a cap at a Hearth decision. That POWER_FORCE with another mode
leaves SERVICE is the model's choice (log 35). -/
def Obligations.SettingCommands : Prop :=
  let n (u : HostUnit) (k : Nat) : Nat := byteAt u.payload k
  let len (u : HostUnit) : Nat := u.payload.length
  let set (k stock : Nat) (r : List Byte) (s : State) : State :=
    if s.span.role = 2 then s else { s with fe.sets := s.fe.sets.set k { stock := stock, record := r } }
  let forces (m r : Nat) : Option ModeSel :=
    if m = 2 ∧ r = 0 then some { mode := .hibernate, rate := 0, hz := 0 }
    else if m = 3 ∧ 4 ≤ r ∧ r ≤ 10 then some { mode := .doze, rate := 1, hz := r }
    else if m = 4 ∧ r = 0 then some { mode := .watch, rate := 2, hz := 0 }
    else if m = 5 ∧ 3 ≤ r ∧ r ≤ 6 then some { mode := .active, rate := r, hz := 0 }
    else if m = 6 ∧ 2 ≤ r ∧ r ≤ 6 then some { mode := .service, rate := r, hz := 0 }
    else none
  (carries .feProfile 0x40 cmdFeProfile (fun u d => served [] 1 u d ∧ len u = 2 ∧ notFollower d ∧ n u 0 ≤ 2 ∧ n u 1 ≤ 3 ∧
       Profile.fits (stockProfile (n u 1)) (n u 0) = true ∧ spare none d)
     (fun u e => ok [b8 (((e.fe.sets[n u 0]?).map (·.stock)).getD 0xFF)]
       (deferred 0x40 u (set (n u 0) (n u 1) (stockProfile (n u 1)) e))) ∧
   carries .feSet 0x42 cmdFeSet (fun u d => served [] 0 u d ∧ len u = 33 ∧ notFollower d ∧ n u 0 ≤ 2 ∧
       Profile.inRange (u.payload.drop 1) = true ∧ Profile.fits (u.payload.drop 1) (n u 0) = true ∧ spare none d)
     (fun u e => ok [] (deferred 0x42 u (set (n u 0) 0xFF (u.payload.drop 1) e))) ∧
   carries .forceCfg 0x45 cmdForceCfg (fun u d => served [3] 4 u d ∧ len u = 5 ∧ n u 0 ≤ 3 ∧ n u 1 < 16 ∧ leAt u.payload 2 3 ≠ 0)
     (fun u e =>
       let b := e.bridge (n u 0)
       ok (b8 (bridgeFlags b) :: le 3 b.gaugeW) (e.modBridge (n u 0) (fun b => { b with
         enW := (n u 1).testBit 0, exc5W := (n u 1).testBit 1, pgaW := n u 1 / 4 % 4, gaugeW := leAt u.payload 2 3 }))) ∧
   carries .calFreeze 0x51 cmdCalFreeze (fun u d => served [] 2 u d ∧ len u = 2 ∧ leAt u.payload 0 2 < 256 ∧ spare none d)
     (fun u e => ok (le 2 (lastFreeze e)) (deferred 0x51 u e)) ∧
   carries .calSeed 0x52 cmdCalSeed (fun u d => served [] 0 u d ∧ seedOk d u.payload = true ∧ spare none d)
     (fun u e => ok [] (deferred 0x52 u e)) ∧
   carries .calSnapshot 0x53 cmdCalSnapshot (fun u d => served [] 240 u d ∧ len u = 0)
     (fun u e => (.live 0x53 u.payload, { e with cal.save := some e.cal.d })) ∧
   carries .calRestore 0x54 cmdCalRestore (fun u d => served [] 0 u d ∧ len u = 0 ∧ d.cal.save ≠ none ∧ spare none d)
     (fun u e => ok [] (deferred 0x54 u e)) ∧
   carries .powerCap 0x70 cmdPowerCap (fun u d => served [] 2 u d ∧ len u = 2 ∧ 20 ≤ leAt u.payload 0 2 ∧
       leAt u.payload 0 2 ≤ 1023 ∧ spare none d)
     (fun u e => ok (le 2 (e.power.capNext.getD e.power.cap))
       (deferred 0x70 u { e with power.capNext := some (leAt u.payload 0 2) })) ∧
   carries .powerForce 0x72 cmdPowerForce (fun u d => served [] 0 u d ∧ len u = 2 ∧ ((n u 0 = 0xFF ∧ n u 1 = 0) ∨
       (forces (n u 0) (n u 1) ≠ none ∧ (d.inSpan = true → n u 0 < 5 ∨ n u 1 ≠ 6))))
     (fun u e => ok [] (powerForce (forces (n u 0) (n u 1)) e))) ∧
  (∀ (p : Port) (pl : List Byte) (s : State),
     liveReply p 0x53 pl s = (0 :: seedBytes s, s) ∧
     applyDeferred { port := p, code := 0x51, payload := pl } s = { s with cal.freeze := BitVec.ofNat 16 (leAt pl 0 2) } ∧
     applyDeferred { port := p, code := 0x52, payload := pl } s = applySeed pl s ∧
     applyDeferred { port := p, code := 0x54, payload := pl } s = applyRestore s) ∧
  (∀ (pl : List Byte) (s : State), seedOk s pl = true → leAt pl 12 4 = s.fe.wordA →
     let t := applySeed pl s
     t.cal.d.tapA = (List.range 40).map (fun r => byteAt pl (24 + r)) ∧
     t.cal.d.gsc = (List.range 4).map (fun g => byteAt pl (184 + g)) ∧ t.cal.d.rsc = byteAt pl 188 ∧
     t.cal.d.trim = leAtS pl 189 1 ∧ t.cal.d.rel = (List.range 4).map (fun k => leAt pl (212 + 2 * k) 2) ∧
     t.cal.seeded = true ∧ t.fe.wordA = s.fe.wordA) ∧
  (∀ (s : State), (s.cal.save = none → applyRestore s = s) ∧ (∀ d, s.cal.save = some d →
     let t := applyRestore s
     t.cal.d.tapA = d.tapA ∧ t.cal.d.gsc = d.gsc ∧ t.cal.d.zero = d.zero ∧ t.cal.d.trim = d.trim ∧
     t.cal.d.nus.map (·.nu) = d.nus.map (·.nu) ∧ t.cal.save = some d)) ∧
  (∀ s : State,
     let t := settingsDone s
     t.fc.fixOn = s.fc.fix ∧ t.fc.fixGOn = s.fc.fixG ∧ t.fc.censelOn = s.fc.censel ∧
     (s.span.role ≠ 2 → ∀ x ∈ t.chan.deferred, x.code ≠ 0x40 ∧ x.code ≠ 0x42 ∧ x.code ≠ 0xE1)) ∧
  (∀ (m : Option ModeSel) (s : State), s.aon.mode = .safe → m ≠ none → powerForce m s = { s with md.forced := m }) ∧
  (∀ (m : ModeSel) (s : State), s.aon.mode ≠ .safe → notFollower s → powerForce (some m) s = choose 0 { s with md.forced := some m })

/-- R497-R502: the policy, fan and backlight commands, each with the states and payloads that it is accepted in. A fan's record
and a policy wait for the fan's next tick and the next policy run; each answers what was in force. -/
def Obligations.ThermalCommands : Prop :=
  let n (u : HostUnit) (k : Nat) : Nat := byteAt u.payload k
  let len (u : HostUnit) : Nat := u.payload.length
  let band (u : HostUnit) (k : Nat) : Nat × Nat := (leAt u.payload (2 + 4 * k) 2, leAt u.payload (4 + 4 * k) 2)
  carries .thermPolicy 0x61 cmdThermPolicy (fun u d => served [64] 65 u d ∧ len u = (if n u 0 = 0xFF then 65 else 1) ∧
      (n u 0 ≤ 2 ∨ n u 0 = 0xFE ∨ (n u 0 = 0xFF ∧ policyOk (u.payload.drop 1) = true)))
    (fun u e => ok (b8 e.thermal.policy :: e.thermal.record) (if n u 0 = 0xFE then e
      else { e with thermal.policyNext := some (n u 0, if n u 0 = 0xFF then u.payload.drop 1 else stockPolicy (n u 0)) })) ∧
  carries .fanSet 0x62 cmdFanSet (fun u d => served [64] 16 u d ∧ len u = 17 ∧ n u 0 ≤ 2 ∧ fanOk (u.payload.drop 1) = true)
    (fun u e => ok ((e.fan (n u 0)).recNext.getD (e.fan (n u 0)).record)
      (e.modFan (n u 0) (fun f => { f with recNext := some (u.payload.drop 1) }))) ∧
  carries .fanSkip 0x63 cmdFanSkip (fun u d => served [65] 0 u d ∧ 2 ≤ len u ∧ len u = 2 + 4 * n u 1 ∧ n u 0 ≤ 2 ∧ n u 1 ≤ 4 ∧
      ∀ k < n u 1, (band u k).1 < (band u k).2 ∧ (band u k).2 ≤ 20000)
    (fun u e => ok [] (e.modFan (n u 0) (fun f => { f with skips := (List.range (n u 1)).map (band u) }))) ∧
  carries .blSet 0x65 cmdBlSet (fun u d => served [66] 4 u d ∧ len u = 6 ∧ n u 0 ≤ 1 ∧ leAt u.payload 1 2 ≤ 1000 ∧
      200 ≤ leAt u.payload 3 2 ∧ leAt u.payload 3 2 ≤ 25000 ∧ n u 5 ≤ 1)
    (fun u e =>
      let t := e.modBl (n u 0) (fun b => { b with
        hostDuty := leAt u.payload 1 2, freq := leAt u.payload 3 2, inverted := (n u 5).testBit 0 })
      ok (le 2 (t.bl (n u 0)).duty ++ le 2 (t.bl (n u 0)).limit) t) ∧
  carries .blCurve 0x66 cmdBlCurve (fun u d => served [66] 9 u d ∧ len u = 10 ∧ n u 0 ≤ 1 ∧ n u 1 < 32 ∧
      leAtS u.payload 2 2 < leAtS u.payload 4 2 ∧ leAt u.payload 6 2 ≤ 1000 ∧ 10 ≤ leAt u.payload 8 2 ∧
      leAt u.payload 8 2 ≤ 10000)
    (fun u e => ok (e.bl (n u 0)).curve (e.modBl (n u 0) (fun b => { b with curve := u.payload.drop 1 })))

/-- R403-R405, R411, R413, R424, R528, R529, R549: the commands of the memory port, the clock, the ledger and diagnostics, each
with the states and payloads that it is accepted in. A program or an erase of a fenced sector completes with FENCED; disabling
the window empties the prefetch lines. -/
def Obligations.MemoryClockAndDiagnosticCommands : Prop :=
  let n (u : HostUnit) (k : Nat) : Nat := byteAt u.payload k
  let len (u : HostUnit) : Nat := u.payload.length
  let offset (u : HostUnit) : Nat := leAt u.payload 0 4
  let erased (u : HostUnit) (d : State) : Nat := if n u 4 = 0 then sectorSize d.flashProfile else blockSize d.flashProfile
  let writable (a k : Nat) (d : State) : Prop :=
    d.mem.profile ≠ none ∧ d.flashBusy = false ∧ d.noSuspend = false ∧ touchesXip d a k = false ∧
      hostWritable d.flashProfile a k = true
  let diag (code : Nat) (u : HostUnit) (e : State) : Reply × State := withTag code none u e (fun t v =>
    { v with rst.diag := v.rst.diag ++ [(code, u.payload, t)] })
  let pins : Nat → Nat
    | 0 => 64
    | 1 => 40
    | 2 => 40
    | 3 => 4
    | 4 => 24
    | _ => 5
  carries .memProfile 0x90 cmdMemProfile (fun u d => served [80] 2 u d ∧ len u = 128 ∧ d.flashBusy = false ∧ d.mem.fences = [] ∧
      d.xipBound = false ∧ profileOk (d.feat 81) u.payload = true ∧ spare none d)
    (fun u e => withTag 0x90 none u e (fun t v => memProfile t u.payload v)) ∧
  carries .memDiscover 0x91 cmdMemDiscover (fun u d => served [80] 132 u d ∧ len u = 1 ∧ d.mem.profile = none ∧
      d.flashBusy = false ∧ n u 0 ≤ 15)
    (fun u e => ok (memDiscover (n u 0) e).1 (memDiscover (n u 0) e).2) ∧
  carries .memProgram 0x93 cmdMemProgram (fun u d => served [80] 4 u d ∧ 5 ≤ len u ∧
      len u - 4 ≤ (if u.port = .tw then 240 else 4096) ∧ writable (offset u) (len u - 4) d ∧ spare none d)
    (fun u e => withTag 0x93 none u e (fun t v =>
      if v.fenced (offset u) (len u - 4) then completeTag t 0x0B [] v
      else startFlash (mkOp 1 0 (offset u) (len u - 4) (u.payload.drop 4) (some t) 0) v)) ∧
  carries .memErase 0x94 cmdMemErase (fun u d => served [80] 0 u d ∧ len u = 5 ∧ n u 4 ≤ 1 ∧ erased u d ≠ 0 ∧
      offset u % erased u d = 0 ∧ writable (offset u) (erased u d) d ∧ spare none d)
    (fun u e => withTag 0x94 none u e (fun t v =>
      if v.fenced (offset u) (erased u v) then completeTag t 0x0B [] v
      else startFlash (mkOp 2 0 (offset u) (erased u v) [] (some t) (n u 4)) v)) ∧
  carries .memXip 0x96 cmdMemXip (fun u d => served [35] 1 u d ∧ len u = 1 ∧ d.mem.profile ≠ none ∧
      (n u 0 = 0 → d.xipBound = false) ∧ n u 0 ≤ 1)
    (fun u e => ok [b8 (if e.mem.xipEn then 1 else 0)] (if n u 0 = 1 then { e with mem.xipEn := true }
      else { e with mem.xipEn := false, mem.lines := [], mem.filling := none, mem.cont := false })) ∧
  carries .clockSet 0xA0 cmdClockSet (fun u d => served [] 16 u d ∧ len u = 12 ∧ notFollower d ∧
      946684800 ≤ leAt u.payload 0 8 ∧ leAt u.payload 8 4 ≤ 1023999)
    (fun u e =>
      let r := setClock (portNum u.port) (leAt u.payload 0 8) (leAt u.payload 8 4) e
      ok (le 8 e.wc.secs ++ le 4 e.wc.ticks ++ le 4 (r.1.getD 0xFFFFFFFF)) r.2) ∧
  (∀ (port w frac : Nat) (s : State),
    let t := (setClock port w frac s).2
    t.wc.secs = w ∧ t.wc.ticks = frac ∧ t.wc.set = true ∧ t.wc.coast = false) ∧
  carries .ledgerConfig 0xA2 cmdLedgerConfig (fun u d => served [83] 4 u d ∧ len u = (if n u 0 = 1 then 33 else 11) ∧
      (n u 0 = 0 → d.led.lock = false ∧ 3600 ≤ leAt u.payload 1 4 ∧ leAt u.payload 1 4 ≤ 2678400 ∧
        leAt u.payload 5 4 < leAt u.payload 1 4 ∧ n u 9 ≤ 3 ∧
        ((n u 9).testBit 0 = true → d.feat 84 = true ∧ d.ledgerKey ≠ none) ∧ 5 ≤ n u 10 ∧ n u 10 ≤ 240) ∧
      (n u 0 = 1 → d.aon.mode = .service ∧ d.ledgerKey = none ∧ (d.otp.ledA.isBlank = true ∨ d.otp.ledB.isBlank = true) ∧
        d.otp.write = none ∧ leAt u.payload 1 32 ≠ 0) ∧ n u 0 ≤ 1)
    (fun u e =>
      let t := if n u 0 = 1 then ledKeyWrite u.payload e
        else ledgerConfig (leAt u.payload 1 4) (leAt u.payload 5 4) (n u 9) (n u 10) e
      ok (le 4 t.led.nextSeq) t) ∧
  carries .diagSelftest 0xB0 cmdDiagSelftest (fun u d => served [] 8 u d ∧ d.aon.mode = .service ∧ len u = 1 ∧ n u 0 < 64 ∧
      spare none d) (diag 0xB0) ∧
  carries .diagPins 0xB1 cmdDiagPins (fun u d => served [] (pins (n u 0)) u d ∧ d.aon.mode = .service ∧ len u = 1 ∧ n u 0 ≤ 5 ∧
      spare none d) (diag 0xB1) ∧
  carries .diagLoopback 0xB2 cmdDiagLoopback (fun u d => served [] 8 u d ∧ d.aon.mode = .service ∧ len u = 3 ∧
      (n u 0 ≤ 1 → d.inSpan = false) ∧ (n u 0 = 2 → d.mem.profile ≠ none) ∧ n u 0 ≤ 2 ∧ leAt u.payload 1 2 ≠ 0 ∧ spare none d)
    (diag 0xB2) ∧
  (∀ (timeout : Bool) (result pl : List Byte) (code t : Nat) (rest : List (Nat × List Byte × Nat)) (s : State),
    s.rst.diag = (code, pl, t) :: rest →
    exec (.diagComplete timeout result) s = .next (if timeout = true ∧ code = 0xB0
      then completeTag t 0x0E [] { s with rst.diag := rest }
      else completeTag t 0 (diagComp code pl result) { s with rst.diag := rest })) ∧
  (∀ (timeout : Bool) (result : List Byte) (s : State), s.rst.diag = [] → exec (.diagComplete timeout result) s = .next s)

/-- R464-R468: the span commands, each with the states and payloads that it is accepted in. A leader's configuration waits for
its commit, any other part's is stored at once; a pull without a leader completes at once; a relayed command goes to its member,
and the oldest of those relayed is the one that times out. That several may be relayed at once is the model's reading (log 22). -/
def Obligations.SpanCommands : Prop :=
  let n (u : HostUnit) (k : Nat) : Nat := byteAt u.payload k
  let len (u : HostUnit) : Nat := u.payload.length
  carries .spanConfig 0x80 cmdSpanConfig (fun u d => served [48] 1 u d ∧ len u = 48 ∧ notFollower d ∧
      spanCfgOk d u.payload = true ∧ spare none d)
    (fun u e => withTag 0x80 none u e (fun t v =>
      if v.span.role = 2 then { v with chan.deferred := v.chan.deferred ++
        [{ port := u.port, code := 0x80, payload := u.payload ++ [b8 t] }] }
      else
        let w : State := { v with span.config := u.payload }
        completeTag t 0 (le 4 w.frameOr ++ spanHash w) w)) ∧
  carries .spanPull 0x83 cmdSpanPull (fun u d => served [48] 1 u d ∧ len u = 0 ∧ d.span.role ≠ 0 ∧ d.span.role ≠ 2 ∧
      d.spanx.pullTag = none ∧ spare none d)
    (fun u e => withTag 0x83 none u e (fun t v =>
      if v.span.role = 5 ∨ v.span.role = 1 then completeTag t 0 [2, 0] v else sendPull { v with spanx.pullTag := some t })) ∧
  carries .spanRelay 0x84 cmdSpanRelay (fun u d => served [48] 1 u d ∧ 2 ≤ len u ∧ n u 1 ≠ 0x84 ∧ n u 1 ≠ 0x03 ∧ n u 1 ≠ 0x04 ∧
      len u ≤ 2 + (if u.port = .tw then 240 else 1021) ∧ d.span.role = 2 ∧ n u 0 ≤ 15 ∧ spare none d)
    (fun u e => withTag 0x84 none u e (fun t v =>
      sendPacket 0x0B (n u 0) v.frame.n ([0, b8 (portNum u.port), b8 (n u 1)] ++ u.payload.drop 2)
        { v with spanx.relays := v.spanx.relays ++ [(n u 0, t)] })) ∧
  (∀ s : State, s.spanx.relays = [] → exec .spanRelayTimeout s = .next s) ∧
  (∀ (m t : Nat) (rest : List (Nat × Nat)) (s : State), s.spanx.relays = (m, t) :: rest →
    exec .spanRelayTimeout s = .next (completeTag t 0x0E [] { s with spanx.relays := rest }))

/-- R340, R341, R80, R99, R372, R531: what a register reads as in a copy of many is its value before any side effect; the read of
PEAK and of MAXUS clears them, the read of TIMELO and of SECLO holds the high word. A register write puts the value's bit into
each writable bit under the mask and leaves every other bit; its reply is the register afterwards. It is refused where the
address holds no register or no bit under the mask can be written. The rows that name a register write that register. -/
def Obligations.RegisterCommands : Prop :=
  let len (u : HostUnit) : Nat := u.payload.length
  let cond (u : HostUnit) (d : State) : Prop :=
    let a := leAt u.payload 0 2
    inSession u d ∧ d.aon.mode ≠ .safe ∧ fits 4 u d ∧ len u = 10 ∧ (regRead d a).isSome = true ∧
      leAt u.payload 6 4 &&& regWritable d a ≠ 0 ∧ (a = 0x302C ∨ a = 0x3030 → spare none d)
  let write (u : HostUnit) (e : State) : Reply × State :=
    let t := regWrite u.port (leAt u.payload 0 2) (leAt u.payload 2 4) (leAt u.payload 6 4) e
    ok (le 4 ((regRead t (leAt u.payload 0 2)).getD 0)) t
  let writes (a : HostUnit → Nat) (mk : HostUnit → Instr) : Prop :=
    carriesAs false mk 0xE1 cmdRegWrite (fun u => atReg (a u) u) cond write
  ((∀ (a : Nat) (s : State), regsRead 1 a s = (le 4 ((regRead s a).getD 0), regTouch a s)) ∧
   (∀ (n a : Nat) (s : State), (regsRead n a s).1.length = 4 * n) ∧
   (∀ s : State,
     (regRead s 0x2010 = some (s.clk.tb % 2 ^ 32) ∧ regTouch 0x2010 s = { s with clk.timeHi := s.clk.tb / 2 ^ 32 }) ∧
     regTouch 0x1014 s = { s with meter.peak := 0 } ∧ regTouch 0x7010 s = { s with tw.maxUs := 0 } ∧
     (regRead s 0xA020 = some (s.wc.secs % 2 ^ 32) ∧ regTouch 0xA020 s = { s with
       wc.secHi := s.wc.secs / 2 ^ 32, wc.frac := s.wc.ticks, wc.fracSet := s.wc.set, wc.fracCoast := s.wc.coast }) ∧
     (∀ a, a % 4 ≠ 0 → regRead s a = none ∧ regWritable s a = 0))) ∧
  (carries .regWrite 0xE1 cmdRegWrite cond write ∧
   writes (fun u => 0x4000 + 32 * (leAt u.payload 0 2 / 32 % 4)) .frcCfgWrite ∧
   writes (fun _ => 0x5008) .calTlimWrite ∧
   writes (fun u => if leAt u.payload 0 2 = 0x5028 then 0x5028 else 0x5024) .calFgeomWrite ∧
   writes (fun _ => 0x7000) .hnoffClear ∧ writes (fun _ => 0x7400) .hsCfgWrite ∧ writes (fun _ => 0xA00C) .spillForceWrite ∧
   writes (fun _ => 0x4080) .thermEnWrite ∧ writes (fun _ => 0x001C) .lapseClear ∧
   (∀ (p : Port) (value mask : Nat) (s : State),
     let new (old : BitVec 16) (lo : Nat) : BitVec 16 :=
       (old &&& ~~~(BitVec.ofNat 16 (mask / 2 ^ lo))) ||| (BitVec.ofNat 16 (value / 2 ^ lo) &&& BitVec.ofNat 16 (mask / 2 ^ lo))
     regWrite p 0x0010 value mask s = { s with
       aon.gpioMask := new s.aon.gpioMask 0
       aon.gpioLevel := new s.aon.gpioLevel 16 }) ∧
   (∀ (p : Port) (value mask : Nat) (s : State),
     regWrite p 0x0008 value mask s = { s with aon.wakeSrc := s.aon.wakeSrc &&& ~~~(BitVec.ofNat 6 (value &&& mask)) }))

/-! ## Lines, clocks, supplies and modes -/

/-- R347, R348, R352, R349, R356-R363, R367, R368: the two-wire port beside its command writes. -/
def Obligations.TwoWireRows : Prop :=
  (∀ (count us : Nat) (s : State), s.serves = true → 1 ≤ count → ∀ bs, (twBegin s).chan.tw.reply = .fixed bs →
    let b := twBegin s
    ∃ t, exec (.replyRead count us) s = .next t ∧ t.chan.tw.reply = .fixed bs ∧
      t.tw.maxUs = max b.tw.maxUs (min 10000 us) ∧ t.tw.noReply = b.tw.noReply ∧
      t.chan.tw.out.take 2 = [bs.headD 0, BitVec.ofNat 8 (bs.length - 1)].take (min count 257) ∧
      t.chan.tw.out.length = min count 257) ∧
  (∀ (count us : Nat) (s : State), s.serves = true → 1 ≤ count → (twBegin s).chan.tw.reply = .none →
    ∃ t, exec (.replyRead count us) s = .next t ∧ t.tw.noReply = min 65535 ((twBegin s).tw.noReply + 1) ∧
      t.chan.tw.reply = .none ∧ t.chan.tw.out.take 1 = [0x01#8]) ∧
  (∀ c, actsWhen (.quickCommand c) (fun s => s.tw.ibr = true) (fun s => { s with tw.ibr := false, tw.ibrPend := false })) ∧
  (∀ won, actsWhen (.alertResponseRead won)
    (fun s => s.chan.rdy = true ∧ s.chan.tw.signal = true ∧ (s.chan.accepted = none ∨ s.feat 17 = true) ∧ won = true)
    (fun s => { s with chan.tw := { s.chan.tw with
      signal := false
      out := [BitVec.ofNat 8 (2 * (0x28 + s.pins.haddr)),
        BitVec.ofNat 8 (crc8 [0x19#8, BitVec.ofNat 8 (2 * (0x28 + s.pins.haddr))])] } })) ∧
  actsWhen .inBandRequest (fun s => s.chan.rdy = true ∧ s.feat 18 = true ∧ s.tw.ibrPend = true ∧ s.tw.ibr = false)
    (fun s => { s with tw.ibr := true }) ∧
  actsWhen .ibrUnanswered (fun s => s.tw.ibr = true) (fun s => { s with tw.ibr := false, tw.ibrPend := false }) ∧
  actsWhen (.requestRead false) (fun s => s.tw.ibr = true) (fun s => { s with tw.ibr := false }) ∧
  actsWhen (.requestRead true) (fun s => s.tw.ibr = true) (fun s => { s with
    tw.ibr := false, tw.ibrPend := false, chan.tw := { s.chan.tw with out := araBytes s } }) ∧
  (let due (s : State) : Prop := s.serves = true ∧ s.feat 19 = true ∧ s.tw.hnPend = true ∧ s.tw.hnOff = false ∧ s.tw.hnRun < 8
   actsWhen (.hostNotify .acked) due (fun s => { s with
     tw.hnPend := false, tw.hnRun := 0, chan.tw := { s.chan.tw with out := notifyBytes s } }) ∧
   actsWhen (.hostNotify .nacked) due (fun s => { s with
     tw.hnPend := false, tw.hnFail := min 65535 (s.tw.hnFail + 1), tw.hnRun := s.tw.hnRun + 1
     chan.tw := { s.chan.tw with out := [0x10#8] } }) ∧
   actsWhen (.hostNotify .arbLost) due (fun s => { s with
     tw.arbLost := true, tw.retries := s.tw.retries + 1, tw.hnPend := decide (s.tw.retries < 3) })) ∧
  actsWhen .hostNotifySuspend (fun s => 8 ≤ s.tw.hnRun) (fun s => { s with tw.hnOff := true, tw.hnPend := false }) ∧
  (let freed (s : State) : State := { s with
     tw.stretch := false, tw.ibr := false, tw.ibrPend := s.tw.ibrPend && !s.tw.ibr, tw.timeouts := min 65535 (s.tw.timeouts + 1) }
   actsWhen .sclTimeout (fun s => s.chan.rdy = true) (fun s => { freed s with tw.sclTo := true }) ∧
   actsWhen .sdaTimeout (fun s => s.chan.rdy = true) (fun s => { freed s with tw.sdaTo := true }))

/-- R90-R97: the keeper's gates and trim, the windows of the clock monitor, and the failure and the return of the crystal. A gate
counts towards the trim instants outside frames; a trim instant moves the code against the median of 8 gates by at most one step,
8 in fast settle, and none where fewer gates stand or the trim is frozen; KEEPRAIL says that the code is at a rail. A start of the
crystal changes the tick to it at a keeper edge later on (the wait's count is the model's choice, log 14). -/
def Obligations.ClockRows : Prop :=
  let locked (w : Nat) (s t : State) : Prop :=
    t.clk = { s.clk with xtalFail := false, lock := !s.clk.coreStopped, spare := false, held := false
                         toXtal := if s.clk.onKeeper then some w else none } ∧
    t.chan.wake = false ∧ (s.mem.profile ≠ none → t.mem.div = byteAt s.flashProfile 1) ∧ (s.mem.profile = none → t.mem = s.mem)
  (∀ n, actsWhen (.keeperGate n) (fun s => s.clk.onKeeper = false ∧ s.clk.held = false) (fun s =>
    { wrote (regsFrom 0x2000 0x100) s with
      clk.lastGate := min 65535 n
      clk.gates := (s.clk.gates ++ [n]).drop (s.clk.gates.length + 1 - 8)
      clk.gateCount := if s.framesRun then 0 else s.clk.gateCount + 1 })) ∧
  actsWhen .keeperTrim (fun s => s.framesRun = false ∧ 16 ≤ s.clk.gateCount)
    (fun s => trimStep s.cal.fastOn { s with clk.gateCount := 0 }) ∧
  (∀ (fast : Bool) (s : State),
    let t := trimStep fast s
    (s.clk.gates.length < 8 ∨ getBit s.cal.freeze 7 = true → t = s) ∧
    ((t.cal.d.trim - s.cal.d.trim).natAbs ≤ (if fast then 8 else 1) ∨ t.cal.d.trim = -128 ∨ t.cal.d.trim = 127) ∧
    (t.cal.d.trim ≠ s.cal.d.trim → t.clk.gates = [] ∧
      t.clk.keepRail = (decide (t.cal.d.trim = -128) || decide (t.cal.d.trim = 127)))) ∧
  (∀ n, 120 ≤ n → n ≤ 136 → actsWhen (.clockMonitorWindow n) (fun s => s.power.domCore = true) (fun s => { s with
    clk.goodRun := s.clk.goodRun + 1, clk.badRun := 0, clk.xtal := s.clk.xtal || decide (1 ≤ s.clk.goodRun) })) ∧
  (∀ n, n < 120 ∨ 136 < n → actsWhen (.clockMonitorWindow n) (fun s => s.power.domCore = true) (fun s => { s with
    clk.goodRun := 0, clk.badRun := s.clk.badRun + 1 })) ∧
  (∀ pll, actsWhen (.xtalFail pll)
    (fun s => s.clk.xtalFail = false ∧
      ((pll = true ∧ s.clk.lock = true ∧ s.clk.coreStopped = false) ∨ (s.clk.xtal = true ∧ 2 ≤ s.clk.badRun)))
    (fun s => xtalFailed s)) ∧
  actsWhen .xtalStartFail (fun s => s.clk.xtal = false ∧ s.clk.xtalFail = false ∧ s.power.domCore = true) (fun s => xtalFailed s) ∧
  (∀ s : State, xtalFailed s = safeWdog (latchFault 4 { s with
    clk := { s.clk with
      xtalFail := true, xtal := false, lock := false, spare := true, onKeeper := true, toXtal := none
      keepQ := if s.clk.onKeeper then s.clk.keepQ else 0
      coasted := s.clk.coasted || s.clk.held, held := false, goodRun := 0, badRun := 0 }
    mem.div := 2, span.lock := false })) ∧
  actsWhen .xtalRestart (fun s => s.clk.xtalFail = true) (fun s => { s with
    clk.goodRun := 0, clk.badRun := 0, clk.xtal := false }) ∧
  (∀ s : State, s.clk.xtalFail = true → 8 ≤ s.clk.goodRun → ∃ t, exec .xtalfailClear s = .next t ∧ locked 1 s t ∧
    t.rst.bootStarts = [] ∧ t.chan.deferred = s.chan.deferred ++
      s.rst.bootStarts.map (fun i => { port := (s.ctx i).owner, code := 0x15, payload := [b8 i, 0] })) ∧
  (∀ s : State, s.clk.xtalFail = false ∨ s.clk.goodRun < 8 → exec .xtalfailClear s = .next s) ∧
  (∀ s : State, s.power.domCore = true → s.clk.xtalFail = false → s.clk.spare = true →
    ∃ t, exec .crystalLock s = .next t ∧ locked (if s.clk.keepQ = 0 then 16 else 17) s t ∧ t.chan.deferred = s.chan.deferred) ∧
  (∀ s : State, s.power.domCore = true → s.clk.xtalFail = false → s.clk.spare = false →
    exec .crystalLock s = .next { s with clk.coreStopped := false, clk.lock := true }) ∧
  (∀ s : State, s.power.domCore = false ∨ s.clk.xtalFail = true → exec .crystalLock s = .next s)

/-- R61, R64, R66-R73: the input meter, the decision of the Hearth, refusals, the requests that are made again, dips, the
overcap guard, the undervoltage of VMOT and the end of a boost start. -/
def Obligations.PowerRows : Prop :=
  (∀ (m : MeterSample) (s : State), ∃ t, exec (.meterSample m) s = .next t ∧
    t = { wrote (fun k pl => k == 0x71 || regsFrom 0x1000 0x1000 k pl) s with
      meter := t.meter, md.vinLow := s.md.vinLow && decide (m.vinMv < 4500) } ∧
    t.meter.vinMv = min 65535 m.vinMv ∧ t.meter.vmotMv = min 65535 m.vmotMv ∧
    (s.meter.boostOn = true → t.meter.vhvMeas = min 65535 m.vhv) ∧
    (s.meter.boostOn = false → t.meter.vhvMeas = max 260 (min 300 m.vhv)) ∧
    t.meter.peak = min 65535 (max s.meter.peak ((m.vinMv * m.vinMa + m.vmotMv * m.vmotMa) / 10000)) ∧
    t.meter.samples.length = min 100 (s.meter.samples.length + 1)) ∧
  (∀ s : State, s.framesRun = true → exec .hearthDecision s = .next (decideLeave false false s)) ∧
  (∀ s : State, s.framesRun = false → exec .hearthDecision s = .next (driveFollow (idleEffects
    (decideLeave true (decide ((s.power.eighth + 1) % 8 = 0)) { s with power.eighth := (s.power.eighth + 1) % 8 })))) ∧
  (∀ s : State, exec .requestRefusal s = .next (refusals s)) ∧
  (∀ cls who, actsWhen (.leaveRerequest cls who)
    (fun s => ∃ r ∈ s.power.rereq, r.cls = cls ∧ r.who = who ∧ r.dip = false ∧ (r.frames = none ∨ r.frames = some 0))
    (fun s => askAgain cls who s)) ∧
  (∀ vin, actsWhen (.dip vin) (fun s => vin < 440 ∧ s.power.dip = false) (fun s =>
    let t := latchFault 13 (powerRec 0x03 0xFF 0xFF 0 vin { s with power.dip := true, power.dipSeen := true })
    (t.grants.filter (·.revocable)).foldl (fun s g => revoke true g s) t)) ∧
  (∀ vin, actsWhen (.dipEnd vin) (fun s => s.power.dip = true ∧ 450 ≤ vin) (fun s =>
    let t := powerRec 0x08 0xFF 0xFF 0 vin { s with power.dip := false, md.vinLow := false }
    (t.power.rereq.filter (·.dip)).foldl (fun s r => askAgain r.cls r.who s) t)) ∧
  actsWhen .overcap (fun s => s.feat 67 = true ∧ 5 * s.power.cap < s.meter.avg ∧ s.power.guard = false) (fun s =>
    powerRec 0x04 0xFF 0xFF 0 0 { s with power.guard := true, power.overcap := true }) ∧
  (∀ (s : State) (g : Grant), s.power.guard = true → s.feat 67 = true → 5 * s.power.cap < s.meter.avg →
    s.revocables.head? = some g → exec .overcapRevoke s = .next (revoke false g s)) ∧
  (∀ s : State, s.power.guard = true → s.meter.avg ≤ 5 * s.power.cap → exec .overcapRevoke s = .next { s with
    power.guard := false, power.overcap := decide (s.power.cap < s.base + s.heldCost) }) ∧
  (∀ s : State, s.power.vmotUv = false → ∃ t, exec .vmotUv s = .next t ∧ t.power.vmotUv = true ∧
    ∀ n < 3, (t.grantOf 0 (0x40 + n)) = none ∧ (t.grantOf 1 (0x40 + n)) = none ∧
      ((s.fan n).st ∈ [1, 2, 4] → n < s.thermal.fans.length → (t.fan n).st = 5 ∧ (t.fan n).drive = 0)) ∧
  (∀ s : State, s.power.vmotUv = true → ∃ t, exec .vmotUvEnd s = .next t ∧ t.power.vmotUv = false ∧
    ∀ n < 3, n < s.thermal.fans.length →
      ((s.fan n).st = 5 → (s.fan n).failed = false → (t.fan n).st = 0 ∧
        (0 < (s.fan n).target → (s.fan n).hot = false → (t.reqOf 0 (0x40 + n)).isSome = true)) ∧
      ((s.fan n).failed = true → (t.fan n).st = 3 ∧ (t.fan n).retryMs = 30000)) ∧
  actsWhen .boostStartDone (fun s => s.meter.boostStarting = true) (fun s =>
    releaseGrant 3 0x50 { s with meter.boostStarting := false, meter.soft := false })

/-- R68, R69: revoking until the account fits leaves base and held costs within the cap, or no revocable grant of rank 1 or
lower. -/
def Obligations.RevokingFitsTheAccount : Prop :=
  ∀ s : State,
    let t := revokeToCap s
    t.power.cap = s.power.cap ∧ t.base = s.base ∧
    (t.base + t.heldCost ≤ t.power.cap ∨ ∀ g ∈ t.grants, g.revocable = false ∨ rank g.cls = 0) ∧
    (∀ g ∈ t.grants, g ∈ s.grants)

/-- R25, R29, R40-R57, R72, R351, R353, R387: the mode choice, the entries to SAFE and the way out, the wake sources, the wake
floor, the entry to HIBERNATE, the signals of AON and the lapse of a port. SAFE, a follower and an entry to HIBERNATE suspend the
choice, and BOOT before a set is accepted; a cause of SAFE that comes while an exit is pending abandons the exit; a source that
comes during an entry to HIBERNATE is served when the entry completes. What a span's followers hold of contacts counts for the
floor as the stitching tells it, and the standing grants that bar HIBERNATE are the model's reading (log 34). -/
def Obligations.ModeRows : Prop :=
  let wakes (k : Nat) (s t : State) : Prop :=
    t.aon.wakeSrc = setBit s.aon.wakeSrc k true ∧ t.clk.coreStopped = false ∧ t.power.domCore = true
  let latched (k : Nat) (s : State) : State := { s with
    aon.wakeSrc := setBit s.aon.wakeSrc k true, md.entryWake := setBit s.md.entryWake k true }
  (∀ s : State, exec .modeChoice s = .next (choose 0 s)) ∧
  (∀ s : State, s.aon.mode = .safe ∨ s.span.role = 3 ∨ s.span.role = 4 ∨ s.md.hibEntry = true ∨
    (s.aon.mode = .boot ∧ s.chan.accepted = none ∧ s.md.forced = none) → choose 0 s = s) ∧
  (∀ (f : ModeSel) (s : State), s.md.forced = some f → s.aon.mode ≠ .safe → notFollower s → s.md.hibEntry = false →
    choose 0 s = takeMode (noteChoice s).md.chosen 4 (noteChoice s) ∧
    (noteChoice s).md.chosen = (if f.rate = 6 ∧ 114688 < s.capSum then { f with rate := 5 } else f) ∧
    (noteChoice s).aon.unmet = s.inForce.any (fun k => !contractMet (noteChoice s).md.chosen k)) ∧
  (∀ vin, actsWhen (.safeVin vin) (fun s => vin < 430 ∧ ¬ (s.md.vinLow = true ∧ s.aon.mode = .safe)) (fun s =>
    powerRec 0x07 0xFF 0xFF 0 vin (latchFault 1 (enterSafe { s with aon.scVinlow := true, md.vinLow := true })))) ∧
  (∀ kind, actsWhen (.vhvFault kind)
    (fun s => s.meter.boostOn = true ∧ 1 ≤ kind ∧ kind ≤ 3 ∧ ¬ (kind = 1 ∧ s.meter.boostStarting = true))
    (fun s => powerRec 0x05 0xFF 0xFF 0 0 (latchFault 2 (enterSafe (senseOff { s with
      meter.vhvLast := kind, aon.scVhv := true, aon.vhvCnt := min 3 (s.aon.vhvCnt + 1), md.vhvNow := true
      aon.vhvLatch := s.aon.vhvLatch || decide (3 ≤ min 3 (s.aon.vhvCnt + 1)) }))))) ∧
  (∀ s : State, exec .vhvcntAgeOut s = .next { s with aon.vhvCnt := s.aon.vhvCnt - 1 }) ∧
  actsWhen .slipWatchdog (fun s => 8 ≤ s.eng.slipRun) (fun s => safeWdog { s with eng.slipRun := 0 }) ∧
  (∀ s : State, exec .safeExit s = .next (leaveSafe s)) ∧
  (∀ s : State, s.aon.mode ≠ .safe → (enterSafe s).aon.mode = .safe ∧ (enterSafe s).aon.prev = s.aon.mode ∧
    (enterSafe s).framesRun = false ∧ (enterSafe s).power.domSense = false ∧ (enterSafe s).meter.boostOn = false ∧
    ∀ g ∈ (enterSafe s).grants, rank g.cls = 0) ∧
  (∀ s : State, s.aon.mode = .safe → (s.md.pending = none → enterSafe s = s) ∧
    (s.md.pending ≠ none → (enterSafe s).md.pending = none ∧ (enterSafe s).aon.mode = .safe ∧ (enterSafe s).power.domSense = false)) ∧
  (∀ s : State, s.aon.mode = .safe → s.safeCause = false → s.chan.accepted = none → s.md.forced = none →
    leaveSafe s = enterMode ⟨.boot, 0, 0⟩ 6 { s with md.vhvNow := false }) ∧
  (∀ s : State, s.aon.mode = .safe → s.safeCause = false → s.chan.accepted ≠ none ∨ s.md.forced ≠ none →
    let t := noteChoice { s with md.vhvNow := false }
    leaveSafe s = takeMode t.md.chosen 6 t) ∧
  (∀ s : State, s.safeCause = true ∨ s.aon.mode ≠ .safe → leaveSafe s = s) ∧
  (∀ a (s : State), a = 0x28 + s.pins.haddr →
    (s.aon.mode = .hibernate → s.clk.coreStopped = true → s.aon.enTw = true →
      ∃ t, exec (.addressMatch a) s = .next t ∧ wakes 0 s t ∧ t.md.hostService = true ∧ t.tw.stretch = true) ∧
    (s.aon.mode = .doze → s.clk.coreStopped = true → exec (.addressMatch a) s = .next { s with
      tw.stretch := true, clk.coreStopped := false, clk.lock := !s.clk.spare }) ∧
    (s.aon.mode ≠ .hibernate → s.aon.mode ≠ .doze → s.md.hibEntry = true → s.aon.enTw = true →
      exec (.addressMatch a) s = .next (latched 0 { s with tw.stretch := true }))) ∧
  (∀ a (s : State), a ≠ 0x28 + s.pins.haddr → exec (.addressMatch a) s = .next s) ∧
  (∀ us, actsWhen (.wakeStretchEnd us) (fun s => s.tw.stretch = true ∧ s.power.domCore = true) (fun s => { s with
    tw.stretch := false, tw.wakeUs := min 65535 us, chan.wake := false })) ∧
  (∀ s : State, s.aon.mode = .hibernate → s.clk.coreStopped = true → s.aon.enHs = true →
    ∃ t, exec .hcsWake s = .next t ∧ wakes 1 s t ∧ t.md.hostService = true ∧ t.chan.wake = false) ∧
  (∀ s : State, s.aon.mode ≠ .hibernate → s.aon.mode ≠ .doze → s.md.hibEntry = true → s.aon.enHs = true →
    exec .hcsWake s = .next (latched 1 s)) ∧
  (∀ (v : BitVec 16) (s : State),
    let hit : Prop := s.aon.enGpio = true ∧ ∃ k, k < 16 ∧ s.aon.gpioMask.getLsbD k = true ∧ v.getLsbD k = s.aon.gpioLevel.getLsbD k
    let low : Prop := s.aon.mode = .hibernate ∨ s.aon.mode = .doze ∨ s.aon.mode = .watch
    let t : State := { s with pins.gp := v, aon.wakeSrc := setBit s.aon.wakeSrc 3 true }
    (¬ hit → exec (.gpioWake v) s = .next { s with pins.gp := v }) ∧
    (hit → s.md.hibEntry = true → exec (.gpioWake v) s = .next (latched 3 { s with pins.gp := v })) ∧
    (hit → s.md.hibEntry = false → low → exec (.gpioWake v) s = .next (serveFloor t)) ∧
    (hit → s.md.hibEntry = false → ¬ low → exec (.gpioWake v) s = .next t)) ∧
  (∀ s : State, s.aon.mode ≠ .service → s.aon.mode ≠ .safe → s.aon.mode ≠ .boot →
    let t : State := { s with md.floor := true }
    serveFloor s = if t.clk.coreStopped = true ∧ (choose 0 t).sel = t.sel ∧ (choose 0 t).md.pending = none then choose 0 t
      else choose 0 (coreWake t)) ∧
  (∀ s : State, s.aon.mode = .hibernate → ∃ t, exec .houseRun s = .next t ∧ wakes 4 s t ∧ t.md.houseRun = true) ∧
  (∀ s : State, s.aon.mode ≠ .hibernate → exec .houseRun s = .next (if s.md.hibEntry then latched 4 s else s)) ∧
  actsWhen .wakeFloorEnd (fun s => s.md.floor = true ∧ s.pipe.cands = [] ∧ s.pipe.contacts = [] ∧
      (s.span.joined = true → s.spanx.idHeld = 0))
    (fun s => { s with md.floor := false }) ∧
  (∀ s : State, s.aon.mode = .hibernate → s.md.hostService = true ∨ s.md.houseRun = true →
    let t := choose 0 s
    exec .hostServiceEnd s = .next (if t.aon.mode = .hibernate ∧ t.md.pending = none ∧ t.mem.op = none
      then coreSleep { t with md.hostService := false, md.houseRun := false } else t)) ∧
  (∀ s : State, s.aon.mode = .doze → s.clk.coreStopped = false → s.md.pending = none →
    exec .hostServiceEnd s = .next { s with clk.coreStopped := true, clk.lock := false }) ∧
  (∀ s : State, s.aon.mode = .boot → exec .hostServiceEnd s = .next (choose 0 { s with md.bootHold := false })) ∧
  (∀ (m : ModeSel) (why : Nat) (s : State), s.md.pending = some (m, why) → s.md.hibEntry = true → m.mode = .hibernate →
    s.mem.op = none →
    exec .hibernateEntry s = .next (serveEntry s.md.entryWake { enterMode m why s with md.entryWake := 0 })) ∧
  (∀ s : State, s.mem.op ≠ none ∨ s.md.hibEntry = false → exec .hibernateEntry s = .next s) ∧
  (∀ s : State, serveEntry 0 s = s) ∧
  (∀ p, actsWhen (.alertReassert p) (fun s => s.stands p = true) (fun s => raise p s)) ∧
  (∀ p, actsWhen (.portLapse p) (fun s => ∃ r ∈ s.readable p, r.seq = none) (fun s => raise p (match p with
    | .tw => { s with aon.lapse0 := true }
    | .hs => { s with aon.lapse1 := true })))

/-! ## Front end, frames and contacts -/

/-- R114, R121, R136, R137, R139, R142-R144, R151-R153, R489, R490: lines that are switched off, clipped channels, clamps, pins
treated as open and restored, conversions and faults of the bridges, thermistors, and the comparison that drives SHDN_N. -/
def Obligations.FrontEndRows : Prop :=
  (∀ l, actsWhen (.txLineOff l) (fun s => l < 64 ∧ 16 ≤ s.fc.txRuns.getD l 0 ∧ getBit s.fc.txoff l = false) (fun s =>
    latchFault 5 { s with fc.txoff := setBit s.fc.txoff l true, fc.txRuns := s.fc.txRuns.set l 0 })) ∧
  (∀ r, actsWhen (.channelClip r) (fun s => r < 40 ∧ 1 ≤ s.fc.clipRuns.getD r 0 ∧ getBit s.fc.clip r = false) (fun s =>
    openPin (64 + r) { s with fc.clip := setBit s.fc.clip r true })) ∧
  (∀ (pin : Nat) (s : State), pin < 177 → s.power.domSense = true ∨ s.power.domDrive = true →
    ∃ t, exec (.clamp pin) s = .next t ∧ t.clamp.flags = setBit s.clamp.flags pin true ∧
      t.clamp.inFrame = setBit s.clamp.inFrame pin true ∧ t.clamp.opened = s.clamp.opened ∧
      t.clamp.lastClamp = s.clamp.lastClamp.set pin (some s.clk.tb) ∧
      (s.clamp.lastClamp.getD pin none = none → t.clamp.counters = s.clamp.counters.set pin (min 255 (s.clamp.counters.getD pin 0 + 1))) ∧
      (∀ c, s.clamp.lastClamp.getD pin none = some c → t.clamp.counters = s.clamp.counters.set pin
        (if 1024 ≤ ticksSince c s.clk.tb ∨ ticksSince s.clamp.since s.clk.tb < ticksSince c s.clk.tb
          then min 255 (s.clamp.counters.getD pin 0 + 1) else s.clamp.counters.getD pin 0))) ∧
  (∀ (pin : Nat) (s : State), s.power.domSense = false → s.power.domDrive = false → exec (.clamp pin) s = .next s) ∧
  (∀ pin, actsWhen (.pinOpen pin)
    (fun s => pin < 177 ∧ (s.power.domSense = true ∨ s.power.domDrive = true) ∧
      (∃ c, s.clamp.runAt.getD pin none = some c ∧ c + 1024000 ≤ s.monitored) ∧
      getBit s.clamp.opened pin = false) (fun s => openPin pin s)) ∧
  (∀ (pin : Nat) (s : State), getBit s.clamp.opened pin = true → pin < 148 →
    (∀ c, s.clamp.lastClamp.getD pin none = some c → 1024000 ≤ ticksSince c s.clk.tb) →
    (64 ≤ pin → pin < 104 → getBit s.fc.clip (pin - 64) = false) →
    exec (.pinRestored pin) s = .next { s with clamp.restore := setBit s.clamp.restore pin true }) ∧
  (∀ (pin : Nat) (s : State), getBit s.clamp.opened pin = true → 148 ≤ pin → pin < 177 →
    (∀ c, s.clamp.lastClamp.getD pin none = some c → 1024000 ≤ ticksSince c s.clk.tb) →
    exec (.pinRestored pin) s = .next (restorePin pin s)) ∧
  (∀ (pin : Nat) (s : State), getBit s.clamp.opened pin = false → exec (.pinRestored pin) s = .next s) ∧
  (∀ (n : Nat) (x : BridgeSample) (s : State), n < 4 → n < (bridgeDue n s).bridges.length →
    ((bridgeDue n s).bridge n).excited = true →
    let b := (bridgeDue n s).bridge n
    let gain : Int := if b.pga = 0 then 1 else if b.pga = 1 then 8 else if b.pga = 2 then 32 else 128
    let ratio : Int := roundDiv (x.diffIn * gain * 2 ^ 23) x.diffSense
    ∃ t v, exec (.forceConversion n x) s = .next t ∧ -8388607 ≤ v ∧ v ≤ 8388607 ∧
      (x.diffSense ≠ 0 → v = max (-8388607) (min 8388607 ratio)) ∧
      (t.bridge n).sum = (if b.discard = 0 then b.sum + v else b.sum) ∧
      (t.bridge n).count = (if b.discard = 0 then b.count + 1 else b.count) ∧ (t.bridge n).discard = b.discard - 1 ∧
      (∀ m, m ≠ n → t.bridge m = (bridgeDue n s).bridge m)) ∧
  (∀ n, n < 4 → actsWhen (.excFault n) (fun s => (s.bridge n).excited = true ∧ 4 ≤ (s.bridge n).badRun) (fun s =>
    if (s.bridge n).at5 then clampRec 0x04 (148 + 6 * n) (s.clamp.counters.getD (148 + 6 * n) 0)
      (setCost 4 (exciteWho n) s.power.exc25 (s.modBridge n (fun b => { b with
        at5 := false, at25 := b.exc5, badRun := 0, discard := 4 })))
    else faultBridge n s)) ∧
  (∀ n, n < 4 → actsWhen (.excRestored n)
    (fun s => (s.bridge n).fault = true ∧ (s.bridge n).excited = true ∧ 4 ≤ (s.bridge n).goodRun)
    (fun s => clampRec 0x05 (148 + 6 * n) (s.clamp.counters.getD (148 + 6 * n) 0)
      (s.modBridge n (fun b => { b with fault := false, goodRun := 0 })))) ∧
  (∀ n, n < 4 → actsWhen (.bridgeSaturated n) (fun s => (s.bridge n).excited = true ∧ 16 ≤ (s.bridge n).satRun)
    (fun s => faultBridge n s)) ∧
  (∀ xs die, actsWhen (.thermistorRound xs die) (fun s => s.aon.mode ≠ .hibernate ∧ s.aon.mode ≠ .off) (fun s =>
    let t := thermRound xs die (wrote (fun k pl => k == 0x60 || regsFrom 0x4000 0x1000 k pl) s)
    if t.framesRun then t else policyRun t)) ∧
  (∀ i, i < 4 → actsWhen (.sensorOk i) (fun s => (s.thm i).en = true ∧ (s.thm i).fail = true ∧ 16 ≤ (s.thm i).good) (fun s =>
    thermalRec 0x04 i (s.thm i).own (s.modThm i (fun t => { t with
      fail := false, good := 0, temp := if getBit s.clamp.opened (172 + i) || getBit s.clamp.opened 176 then 1500 else t.own })))) ∧
  (∀ (die : Int) (x tcrit : Nat) (s : State), s.aon.mode ≠ .off → ∃ t, exec (.shdnComparison die x tcrit) s = .next t ∧
    t = { s with shdn := t.shdn } ∧ t.shdn.asserted = s.shdn.asserted ∧ t.shdn.die = die ∧ t.shdn.x = min 65535 x ∧
    (t.shdn.assertRun = s.shdn.assertRun + 1 ∨ t.shdn.assertRun = 0) ∧ (tcritTemp tcrit ≤ die → t.shdn.relRun = 0)) ∧
  actsWhen .shdnAssert (fun s => s.shdn.asserted = false ∧ (10 ≤ s.shdn.assertRun ∨ 100 ≤ s.shdn.oorRun)) (fun s =>
    let t : State := { s with shdn.asserted := true, shdn.asserts := min 255 (s.shdn.asserts + 1) }
    safeShdn (if s.shdn.th0Hot then thermalRec 0x01 0 s.shdn.th0 t else thermalRec 0x01 4 s.shdn.die t)) ∧
  actsWhen .shdnRelease (fun s => s.shdn.asserted = true ∧ 10 ≤ s.shdn.relRun) (fun s =>
    thermalRec 0x02 0 s.shdn.th0 { s with shdn.asserted := false }) ∧
  (∀ s : State, exec .urgentMove s = .next (urgentMove s)) ∧
  (∀ s : State, s.census.urgent < 4 ∨ getBit s.census.rejNow s.bin = true → urgentMove s = s)

/-- R13-R19, R24, R28, R30, R89, R90, R102, R114, R188, R224: the frame. No frame begins before the PLL has locked. A boundary
numbers the frame, lets the Hearth decide and senses; a computation that has not ended makes the frame slip; a publication ends
the pass and makes the records readable; an epoch ends once. -/
def Obligations.FrameRows : Prop :=
  (∀ (x : Sense) (s : State), s.mayFrame = true → s.rst.diag = [] → s.md.hibEntry = false → s.chan.rdy = true →
    s.clk.spare = false → s.md.pending = none → framesIn s.sel = true → s.aon.rate < 6 →
    let b := beginFrame (boundaryMode (toBoundary s))
    exec (.frameBoundary x) s = .next (
      let v := boundarySettings x.vhv b
      let w := if v.dark then v else senseFrame x v
      if w.span.role = 2 then { w with spanx.beaconSent := false } else { w with spanx.beacon := none })) ∧
  (∀ s : State, (beginFrame s).frame.n = frameNumber s ∧ (beginFrame s).framesRun = true ∧ (beginFrame s).frame.sensed = true ∧
    (s.nextBeacon = none → s.frame.started = false → frameNumber s = 0) ∧
    (s.nextBeacon = none → s.frame.started = true → frameNumber s = (s.frame.n + 1) % 2 ^ 32)) ∧
  (∀ (x : Sense) (s : State), s.chan.rdy = false ∨ s.rst.diag ≠ [] ∨ s.clk.spare = true → exec (.frameBoundary x) s = .next s) ∧
  (∀ s : State, s.framesRun = true → s.frame.sensed = true → s.frame.phase = 1 ∨ s.frame.phase = 2 →
    ∃ t, exec .computationStart s = .next t ∧ t.frame.sensed = false ∧ t.eng.slipCnt = min 65535 (s.eng.slipCnt + 1) ∧
      t.eng.slipRun = s.eng.slipRun + 1 ∧ t.planes = s.planes ∧ t.pipe = s.pipe ∧ t.ctxs = s.ctxs ∧ t.frame.phase = s.frame.phase) ∧
  (∀ s : State, s.framesRun = true → s.frame.sensed = true → s.frame.phase ≠ 1 → s.frame.phase ≠ 2 →
    let u : State := leaderCensus { tickTo (computeAt s) s with frame.sensed := false }
    let v := latchForce (msgsAtK (commitAtK (mailAtK (effectsAtK (faultsAtK { u with eng.slipRun := 0 })))))
    exec .computationStart s = .next (if v.dark ∨ v.planes.write.valid = false then v else startComputation (markClamps v))) ∧
  (∀ s : State, s.framesRun = false ∨ s.frame.sensed = false → exec .computationStart s = .next s) ∧
  actsWhen .publication (fun s => s.frame.phase = 2) (fun s =>
    let r := runPass passFuel s
    let t := publish (wakeRaised (relayRecords (sendMsgs r)))
    if relayWaits s then r else postPass { t with frame.phase := 3, eng.passCyc := t.eng.passNow }) ∧
  (∀ s : State, s.span.role ≠ 2 → relayWaits s = false) ∧
  (∀ s : State, (publish s).chan.staged = [] ∧ (publish s).chan.pubs = s.chan.pubs + 1 ∧ (publish s).jrn.shown = s.jrn.next ∧ ∀ i < 32,
    ∀ r ∈ ((publish s).ctx i).queue.recs, r.pub.isSome = true) ∧
  actsWhen .epochEnd (fun s => s.frame.phase = 3 ∧ s.cal.endDone.getD (epochsThrough s.frame.comp) ≠ epochsThrough s.frame.comp)
    (fun s =>
      let t := epochMove (calEpochEnd s)
      { t with
        cal.endDone := some (epochsThrough s.frame.comp)
        cal.epoch := (epochsThrough s.frame.comp + 2 ^ 24 - 1) % 2 ^ 24
        fc.txoff := 0, fc.txRuns := List.replicate 64 0, fc.clipTry := t.fc.clip }) ∧
  actsWhen .compactionStep (fun s => s.framesRun = false) (fun s => compactStep s) ∧
  (∀ (charge : List (List Int)) (g : Ratios) (s : State), s.aon.mode ≠ .doze ∨ s.clk.spare = true →
    exec (.dozeSweep charge g) s = .next s) ∧
  (∀ (charge : List (List Int)) (g : Ratios) (s : State), s.aon.mode = .doze → s.clk.spare = false → ∃ t,
    exec (.dozeSweep charge g) s = .next t ∧ t.planes.comp.charge = true ∧ t.planes.comp.ia = s.planes.comp.ia ∧
      t.planes.comp.qa = s.planes.comp.qa ∧ t.frame.n = s.frame.n ∧ t.cal.d.tapA = s.cal.d.tapA ∧ t.cal.d.nus = s.cal.d.nus) ∧
  (∀ s : State, s.clk.slew = 0 →
    let at_ := (s.clk.sweepAt + 125 * ((65536 + s.aon.dozeHz) / (2 * max 1 s.aon.dozeHz))) % 2 ^ 50
    (toSweep s).clk.tb = at_ / 4 → (toSweep s).clk.sweepAt = at_)

/-- R20, R167, R170, R172, R175, R179, R180, R190-R192, R206: the surface, whose records carry the time of the frame's sensing,
shadows, candidates and contacts, APPROACH, noise units, baselines and reports of calibration. -/
def Obligations.PipelineRows : Prop :=
  let sensed (sub item value : Nat) (s : State) : State :=
    putHouse s.frame.mutComp 0x50 ([b8 sub, b8 item] ++ le 2 value ++ le 4 s.frame.comp) s
  actsWhen .wetEnter (fun s => s.pipe.surface.nextWet = false ∧ 2 ≤ s.pipe.surface.wetRun) (fun s =>
    let u := s.pipe.surface
    let fl := decide (1280 ≤ u.e)
    let t := sensed 0x40 (surfaceCode true fl) u.e { s with
      pipe.surface := { u with nextWet := true, wetRun := 0, dryRun := 0, nextFlooded := fl } }
    if fl then sensed 0x44 2 u.e t else t) ∧
  actsWhen .wetLeave (fun s => s.pipe.surface.nextWet = true ∧ 256 ≤ s.pipe.surface.dryRun) (fun s =>
    let u := s.pipe.surface
    let t : State := { s with pipe.surface := { u with nextWet := false, nextFlooded := false, wetRun := 0, dryRun := 0 } }
    sensed 0x41 0 u.e (if u.nextFlooded then sensed 0x45 0 u.e t else t)) ∧
  actsWhen .swamped (fun s => s.pipe.surface.swamped = false ∧ 8 ≤ s.pipe.surface.swampRun) (fun s =>
    let u := s.pipe.surface
    sensed 0x42 (surfaceCode u.wet u.flooded) u.swampCount { s with
      pipe.surface := { u with swamped := true, swampRun := 0, clearRun := 0 } }) ∧
  actsWhen .swampEnd (fun s => s.pipe.surface.swamped = true ∧ 8 ≤ s.pipe.surface.clearRun) (fun s =>
    let u := s.pipe.surface
    sensed 0x43 (surfaceCode u.wet u.flooded) u.swampCount { s with
      pipe.surface := { u with swamped := false, swampRun := 0, clearRun := 0 } }) ∧
  (∀ s : State, exec .shadowExpire s = .next { s with
    pipe.shadows := s.pipe.shadows.filter (fun h => h.live || decide (0 < h.left)) }) ∧
  (∀ s : State, exec .contactEnd s = .next { s with
    pipe.contacts := s.pipe.contacts.filter (fun c => decide (c.coast ≤ s.coastLimit))
    pipe.endedList := s.pipe.endedList ++ (s.pipe.contacts.filter (fun c => decide (s.coastLimit < c.coast))).map
      (fun c => { c with ended := true, coasted := false })
    pipe.idle := (s.pipe.contacts.filter (fun c => decide (s.coastLimit < c.coast))).foldl (fun l c => l.set c.id 0) s.pipe.idle }) ∧
  actsWhen .confirmByCount
    (fun s => s.inSpan = false ∧ s.pipe.surface.swamped = false ∧ s.pipe.surface.swampHold = false ∧ s.pipe.counted = true)
    (fun s => (sortBy (fun (c : Cand) => -(c.amp * 4096) + c.peak) (s.pipe.cands.filter (fun c => c.waiting && !c.held))).foldl
      confirmOne s) ∧
  actsWhen .approach (fun s => s.pipe.approachDue = true) (fun s =>
    wakeEvents 0 (if s.framesRun then s.frame.mutComp else s.clk.tb) { s with pipe.approachDue := false }) ∧
  (∀ s : State, ∃ t, exec .noiseUnitUpdate s = .next t ∧ t = { s with cal.d.nus := t.cal.d.nus } ∧
    t.cal.d.nus.length = s.cal.d.nus.length ∧
    (∀ (r : Nat) (x : NuSt), s.cal.d.nus[r]? = some x → x.fresh < 16 → t.cal.d.nus[r]? = some x)) ∧
  (∀ s : State, ∃ t, exec .baselineStep s = .next t ∧
    t = { s with cal.tarns := t.cal.tarns, cal.d := t.cal.d, cal.ep.steps := t.cal.ep.steps } ∧
    t.cal.d.nus = s.cal.d.nus ∧ t.cal.d.thr = s.cal.d.thr ∧ t.cal.d.trim = s.cal.d.trim ∧
    (getBit s.cal.freeze 0 = true → s.cal.tarns.ia.length = s.cal.d.bia.length → t.cal.d.bia = s.cal.d.bia)) ∧
  (∀ s : State, exec .calRailReport s = .next (railReport s) ∧
    ((∀ i < 94, s.cal.railRuns.getD i 0 < 4 ∨ s.cal.railDone.getD i false = true) → railReport s = s))

/-! ## Flash, journal and ledger -/

/-- R408, R411, R412, R415, R419-R421, R425: window fills, the ends of reads, programs and erases, time limits and the boot scan.
A program clears bits and sets none; an erase leaves 0xFF; every other byte of flash stays. -/
def Obligations.FlashRows : Prop :=
  (∀ (addr a : Nat) (s : State), s.mem.filling = some a → a = addr / 64 * 64 →
    exec (.lineFill addr) s = .next { s with mem := fillNext s.window a (installLine a s.mem) }) ∧
  (∀ s : State, exec .flashResume s = .next { s with mem.susp := false }) ∧
  (∀ (s : State) (o : FlashOp), s.mem.op = some o → o.running = true → o.kind = 1 → s.mem.susp = false →
    s.barred (opSlots o) = false →
    let a := if o.who = 1 ∧ s.chunks = [] then { s with jrn.spillOld := leAt o.data 240 4 } else s
    let b := programFlash o.addr o.data a
    exec .programComplete s = .next (nextOp (opDone o (opLeaves o { b with mem := dropLines o.addr o.len b.mem })))) ∧
  (∀ (a : Nat) (bs : List Byte) (s : State), Memory.wf 0xFF s.mem.flash = true →
    let t := programFlash a bs s
    Memory.wf 0xFF t.mem.flash = true ∧ ∀ x, Memory.read 0xFF t.mem.flash x =
      if a ≤ x ∧ x < a + bs.length then Memory.read 0xFF s.mem.flash x &&& bs.getD (x - a) 0xFF
      else Memory.read 0xFF s.mem.flash x) ∧
  (∀ (s : State) (o : FlashOp), s.mem.op = some o → o.running = true → o.kind = 2 → s.mem.susp = false →
    s.barred (opSlots o) = false → exec .eraseComplete s = .next (eraseEnds o s)) ∧
  (∀ s : State, s.mem.op = none ∨ s.mem.susp = true →
    exec .programComplete s = .next s ∧ exec .eraseComplete s = .next s ∧ exec .flashTimeout s = .next s) ∧
  (∀ (a n : Nat) (s : State), Memory.wf 0xFF s.mem.flash = true →
    let t := eraseFlash a n s
    Memory.wf 0xFF t.mem.flash = true ∧ ∀ x, Memory.read 0xFF t.mem.flash x =
      if a ≤ x ∧ x < a + n then 0xFF else Memory.read 0xFF s.mem.flash x) ∧
  (∀ (s : State) (o : FlashOp), s.mem.op = some o → o.running = true → o.kind = 1 → o.who < 4 → s.mem.susp = false →
    s.mem.waiting = [] →
    exec .flashTimeout s = .next (completeOpt o.tag 0x0E []
      (opLeaves o { cutProgram s with mem.timeouts := min 65535 (s.mem.timeouts + 1) }))) ∧
  (∀ (s : State) (o : FlashOp), s.mem.op = some o → o.running = true → o.kind = 1 → Memory.wf 0xFF s.mem.flash = true →
    let t := cutProgram s
    Memory.wf 0xFF t.mem.flash = true ∧
    (∀ x, x < o.addr ∨ o.addr + o.data.length ≤ x → Memory.read 0xFF t.mem.flash x = Memory.read 0xFF s.mem.flash x) ∧
    (∀ x, o.addr ≤ x → x < o.addr + o.data.length →
      let old := Memory.read 0xFF s.mem.flash x
      let new := Memory.read 0xFF t.mem.flash x
      new &&& old = new ∧ new &&& (old &&& o.data.getD (x - o.addr) 0xFF) = old &&& o.data.getD (x - o.addr) 0xFF)) ∧
  (∀ (s : State) (o : FlashOp), s.mem.op = some o → o.running = true → o.kind = 2 → o.who < 4 → s.mem.susp = false →
    s.mem.waiting = [] →
    ∃ t, exec .flashTimeout s = .next t ∧ t.mem.op = none ∧ t.mem.timeouts = min 65535 (s.mem.timeouts + 1) ∧
      t.mem.fences = s.mem.fences.map (fun f => if f.base = o.addr then { f with held := true } else f) ∧
      t.mem.flash = s.mem.flash ∧ t.chan.faults = setBit s.chan.faults 10 true) ∧
  (∀ (s : State) (x : MemXfer) (bad : Bool), s.mem.xfer = some x → x.write = false →
    let r := if s.fenced x.flash x.len then 3 else if bad || s.barred [0] then 2 else 0
    exec (.readTransferComplete bad) s = .next (nextOp ({ s with
      mem.xfer := none
      mem.toRoom := if r = 0 then s.mem.toRoom ++ [(x.ctx, x.room, Memory.readN 0xFF s.mem.flash x.flash x.len)] else s.mem.toRoom
      }.modRun x.ctx (fun c => { c with poll := r })))) ∧
  (∀ (s : State) (bad : Bool), s.mem.xfer = none → exec (.readTransferComplete bad) s = .next s) ∧
  (∀ (s : State) (addr : Nat), s.mem.profile ≠ none → (byteAt (templ s.flashProfile 0) 7).testBit 2 = true →
    exec (.readError addr false) s = .next { s with mem.rdErr := min 65535 (s.mem.rdErr + 1) }) ∧
  actsWhen .bootScan (fun s => s.aon.mode = .boot ∧ s.mem.mapValid = true ∧ s.mem.profile ≠ none ∧ s.flashBusy = false)
    (fun s => (scanIntents none s).2)

/-- R322, R507, R511, R516, R517, R523: gap records of queues, spill chunks, and the ledger's second, close and checkpoint. That
the grid moves on without LEDGER too is the model's reading (log 8). -/
def Obligations.JournalAndLedgerRows : Prop :=
  (∀ i, i < 32 → actsWhen (.queueGap i) (fun s => 0 < (s.ctx i).queue.lost ∧ (s.ctx i).queue.recs.length < 64) (fun s =>
    record 0x7F ([0x01, BitVec.ofNat 8 i] ++ le 2 (s.ctx i).queue.lost ++ zeros 4)
      (s.modCtx i (fun c => { c with queue.lost := 0 })))) ∧
  (∀ (p : Port), actsWhen (.queueGap (0x40 + portNum p)) (fun s => 0 < (s.port p).house.lost ∧ (s.port p).house.recs.length < 64)
    (fun s => record 0x7F ([0x01, BitVec.ofNat 8 (0x40 + portNum p)] ++ le 2 (s.port p).house.lost ++ zeros 4)
      (s.modPort p (fun q => { q with house.lost := 0 })))) ∧
  (∀ (s : State) (r : Rec) (rs : List Rec), s.spillOn = true → (∀ o ∈ s.mem.waiting, o.who ≠ 1) → s.jrn.waiting = r :: rs →
    14 ≤ rs.length ∨ r.time + 10240000 ≤ s.clk.tb → exec .spillChunk s = .next (spillChunk s)) ∧
  (∀ s : State, s.spillOn = false ∨ s.jrn.waiting = [] → exec .spillChunk s = .next s) ∧
  actsWhen .periodClose (fun s => s.wc.set = true ∧ s.nb ≤ s.wc.secs) (fun s => closePeriod s.nb 0 0 s) ∧
  (∀ (at_ fl new : Nat) (s : State),
    let t := closePeriod at_ fl new s
    t.led.period = { Period.empty with start := at_, flags := new } ∧ t.led.nbHeld = none) ∧
  actsWhen .checkpoint (fun s => s.led.running = true) (fun s => checkpoint (closeDue s)) ∧
  (∀ s : State, s.led.running = true → ∃ t, exec .ledgerSecond s = .next t ∧ t.pipe.touches = 0 ∧
    t.led.period.counted = min 0xFFFFFFFF (s.led.period.counted + 1) ∧
    t.led.period.touches = min 0xFFFFFFFF (s.led.period.touches + s.pipe.touches) ∧
    t.led.period.active = min 0xFFFFFFFF (s.led.period.active +
      (if s.aon.mode = .active ∨ s.aon.mode = .service then 1 else 0)) ∧
    t.led.period.energyRem = (s.led.period.energyRem + 10 * s.meter.avg) % 3600 ∧
    t.led.queue = s.led.queue ∧ t.led.nextSeq = s.led.nextSeq ∧ t.led.high = s.led.high) ∧
  (∀ s : State, s.led.running = false → exec .ledgerSecond s = .next s)

/-! ## Fans -/

/-- R473-R479, R485-R488: the fans and their bridges: costs of grants, the loop, tachometer pulses, the ends of an alignment, failures,
retries, recovery and heat. -/
def Obligations.FanRows : Prop :=
  (∀ (n mw : Nat) (after8s : Bool) (s : State), n < 3 → (s.grantOf 0 (0x40 + n)).isSome = true → (s.fan n).driven = true → after8s = true →
    ∃ t, exec (.fanStartToRun n mw after8s) s = .next t ∧ (t.grantOf 0 (0x40 + n)) = none ∧
      (n < s.thermal.fans.length → (t.fan n).measured = max 1 (ceilDiv (11 * mw) 500))) ∧
  (∀ (n mw : Nat) (s : State), n < 3 → (s.grantOf 1 (0x40 + n)).isSome = true →
    max 1 (ceilDiv (11 * mw) 500) ≤ s.grantCost 1 (0x40 + n) →
    exec (.fanRunRemeasure n mw) s = .next (follow 1 (0x40 + n) (max 1 (ceilDiv (11 * mw) 500))
      ((s.modFan n (fun f => { f with measured := max 1 (ceilDiv (11 * mw) 500) })).modFan n
        (fun f => { f with holdDenied := false })))) ∧
  (∀ (n : Nat) (x : FanSample) (s : State), n < 3 → n < s.thermal.fans.length →
    let u := overrideEval (fanApply n (wrote (fun k pl =>
      (k == 0x64 && byteAt pl 0 == n) || regsFrom (0x9000 + 32 * n) 32 k pl) s))
    ∃ t, exec (.fanLoopTick n x) s = .next t ∧ (t.fan n).target = fanTarget u n ∧
      (t.fan n).temp = x.temp ∧ (∀ m, m ≠ n → t.fan m = s.fan m)) ∧
  (∀ (n : Nat) (x : FanSample) (s : State), 3 ≤ n → exec (.fanLoopTick n x) s = .next s) ∧
  (∀ n w p, actsWhen (.fgPulse n w p) (fun _ => n < 3 ∧ 20 ≤ w ∧ 0 < p) (fun s => s.modFan n (fun f =>
    { f with fgPeriod := p, fgIdle := 0, inst := if bit (byteAt f.record 0) 1 then f.inst
      else 60000000 / (p * (byteAt f.record 0 / 4 % 4 + 1)) }))) ∧
  (∀ n, actsWhen (.fanAlignEnd n) (fun s => n < 3 ∧ (s.fan n).driven = true ∧ (s.fan n).startStage = 0) (fun s =>
    s.modFan n (fun f => { f with startStage := 1, setMil := 0 }))) ∧
  (∀ n, actsWhen (.fanTachAbsent n)
    (fun s => n < 3 ∧ s.fitted n = true ∧ (s.fan n).driven = true ∧ (s.fan n).startStage = 2 ∧ fanMin (s.fan n) ≤ (s.fan n).rpm)
    (fun s => fanFail n 1 (s.modFan n (fun f => { f with inst := 0 })))) ∧
  (∀ n, actsWhen (.fanStall n)
    (fun s => n < 3 ∧ s.fitted n = true ∧ (s.fan n).driven = true ∧ 10 * (s.fan n).inst < (s.fan n).rpm) (fun s => fanFail n 2 s)) ∧
  (∀ n, actsWhen (.fanRetry n)
    (fun s => n < 3 ∧ s.fitted n = true ∧ (s.fan n).st = 3 ∧ (s.fan n).retryMs = 0 ∧ (s.fan n).hot = false ∧
      s.power.vmotUv = false ∧ s.reqOf 0 (0x40 + n) = none)
    (fun s => fanAsk n (s.modFan n (fun f => { f with retries := min 255 (f.retries + 1) })))) ∧
  (∀ n, actsWhen (.fanRecovered n)
    (fun s => n < 3 ∧ (s.fan n).st = 4 ∧ (s.fan n).startStage = 2 ∧ fanMin (s.fan n) ≤ (s.fan n).inst)
    (fun s => overrideEval (fanRec 0x03 n 0 (s.fan n).speed (s.fan n).rpm
      (s.modFan n (fun f => { f with st := 2, failed := false }))))) ∧
  (∀ (n : Nat) (temp : Int) (s : State), n < 3 → 1300 ≤ temp → temp < 1500 →
    exec (.bridgeHot n temp) s = .next (s.modFan n (fun f => { f with temp := temp }))) ∧
  (∀ (n : Nat) (temp : Int) (s : State), n < 3 → n < s.thermal.fans.length → 1500 ≤ temp → s.fitted n = true → (s.fan n).hot = false →
    let f := s.fan n
    let t := fanRec 0x04 n 4 f.speed f.rpm ((s.modFan n (fun f => { f with temp := temp })).modFan n (fun f => { f with hot := true }))
    exec (.bridgeHot n temp) s = .next (if f.st = 3 ∨ f.st = 5 then t else fanFail n 4 t)) ∧
  (∀ (n : Nat) (temp : Int) (s : State), n < 3 → n < s.thermal.fans.length → temp < 1300 → (s.fan n).hot = true →
    exec (.bridgeHot n temp) s = .next (fanRec 0x05 n 0 (s.fan n).speed (s.fan n).rpm
      ((s.modFan n (fun f => { f with temp := temp })).modFan n (fun f => { f with hot := false })))) ∧
  (∀ n, actsWhen (.bridgeShort n) (fun s => n < 3 ∧ (s.fan n).driven = true) (fun s =>
    fanFail n 3 (fanRec 0x06 n 3 (s.fan n).speed (s.fan n).rpm s)))

/-! ## The span -/

/-- R428, R431, R434, R435, R457-R459, R461, R463: the lock and the break of a ring, packets in transit, and the election. -/
def Obligations.RingRows : Prop :=
  actsWhen .linkLock (fun s => s.power.domCore = true ∧ s.clk.lock = true ∧ s.clk.xtalFail = false) (fun s =>
    if s.span.split then { s with span.lock := true } else startClaim { s with span.lock := true }) ∧
  (∀ s : State, s.spanOn = true → s.span.lock = true → s.span.role = 0 ∨ s.span.role = 5 →
    (startClaim s).span.role = 1 ∧ (startClaim s).spanx.claimAt = none ∧ (startClaim s).span.members = 0) ∧
  (∀ s : State, s.span.role = 2 ∨ (s.span.role = 3 ∧ s.span.joined = true) →
    exec .ringBreak s = .next (becomeIsland { s with
      span.lost := if s.span.lock then min 65535 (s.span.lost + 1) else s.span.lost, span.lock := false })) ∧
  (∀ s : State, s.span.role = 0 → exec .ringBreak s = .next { s with
      span.lost := if s.span.lock then min 65535 (s.span.lost + 1) else s.span.lost, span.lock := false }) ∧
  (∀ s : State, s.span.role = 1 ∨ (s.span.role = 3 ∧ s.span.joined = false) ∨ s.span.role = 4 ∨ s.span.role = 5 →
    ∃ t : State, exec .ringBreak s = .next (stopFrames t) ∧ t.span.role = 0 ∧ t.span.lock = false ∧ t.span.joined = false) ∧
  (∀ s : State, (becomeIsland s).span.role = 0 ∧ (becomeIsland s).span.split = true ∧ (becomeIsland s).span.joined = false ∧
    (becomeIsland s).span.members = 0) ∧
  actsWhen .healed (fun s => s.span.split = true ∧ s.spanOn = true ∧ s.span.lock = true)
    (fun s => startClaim (spanRec 0x09 s.pins.gpos 0 s)) ∧
  actsWhen .spanAlone (fun s => s.spanOn = true ∧ s.span.lock = false ∧ s.span.role ≤ 1 ∧ s.span.split = false)
    (fun s => choose 0 { clearRing s with span.role := 0, span.split := true }) ∧
  (∀ (p : Packet) (ok : Bool) (rtt : Nat) (s : State), s.span.lock = false → exec (.packetForward p ok rtt) s = .next s) ∧
  (∀ (p : Packet) (rtt : Nat) (s : State), s.span.lock = true → exec (.packetForward p false rtt) s = .next { s with
    span.crcErr := min 65535 (s.span.crcErr + 1), spanx.crcRun := s.spanx.crcRun + 1 }) ∧
  (∀ (p : Packet) (rtt : Nat) (s : State), s.span.lock = true → p.src % 16 = s.pins.gpos → p.hops ≠ 0 →
    exec (.packetForward p true rtt) s = .next { s with
      span.parts := p.hops, span.rtt := if p.typ = 2 then min 65535 rtt else s.span.rtt }) ∧
  (∀ (p : Packet) (rtt : Nat) (s : State), s.span.lock = true → p.src % 16 ≠ s.pins.gpos ∨ p.hops = 0 →
    exec (.packetForward p true rtt) s = .next { s with
      spanx.sent := (s.spanx.sent ++ [{ p with hops := p.hops + 1 }]).drop (s.spanx.sent.length + 1 - 64) }) ∧
  (∀ s : State, 100 < s.spanx.crcRun → s.spanx.crcDone = false →
    exec .spanCrc s = .next (spanRec 0x0E s.pins.gpos 0 { s with spanx.crcRun := 0, spanx.crcDone := true })) ∧
  (∀ s : State, s.spanx.crcRun ≤ 100 ∨ s.spanx.crcDone = true →
    exec .spanCrc s = .next { s with spanx.crcRun := 0, spanx.crcDone := decide (100 < s.spanx.crcRun) }) ∧
  actsWhen .claimSend (fun s => s.span.role = 1 ∧ s.span.lock = true) (fun s => { s with
    spanx.sent := (s.spanx.sent ++ [({
      typ := 0x01, src := s.pins.gpos, hops := 0, dst := 0xFF, frame := s.frame.n % 256
      payload := BitVec.ofNat 8 s.pins.gpos :: (le 8 s.otp.uid ++ le 16 (s.chan.accepted.getD 0).toNat ++ spanHash s) } : Packet)
    ]).drop (s.spanx.sent.length + 1 - 64) }) ∧
  (let claims (p : Packet) (s : State) : Prop := heard p s = true ∧ p.typ = 1 ∧ p.payload.length = 33
   (∀ (p : Packet) (s : State), ¬ claims p s ∨ s.span.role = 0 ∨ s.span.role = 5 → exec (.claim p) s = .next s) ∧
   (∀ (p : Packet) (s : State), claims p s → s.span.role ≠ 0 → s.span.role ≠ 5 → (claimOf p).pos = s.pins.gpos →
     (s.otp.uid < (claimOf p).uid → exec (.claim p) s = .next { s with span.dupPos := true }) ∧
     ((claimOf p).uid < s.otp.uid → exec (.claim p) s = .next (stopFrames (becomeExcluded 7 0 s)))) ∧
   (∀ (p : Packet) (s : State), claims p s → s.span.role = 1 → (claimOf p).pos < s.pins.gpos →
     ∃ t, exec (.claim p) s = .next t ∧ t.spanx.claimAt = some s.clk.tb ∧ claimOf p ∈ t.spanx.table) ∧
   (∀ (p : Packet) (s : State), claims p s → s.span.role = 2 → (claimOf p).pos ≠ s.pins.gpos →
     getBit s.span.members (claimOf p).pos = false → exec (.claim p) s = .next (classify (claimOf p) s)) ∧
   (∀ (p : Packet) (s : State), claims p s → s.span.role = 2 → (claimOf p).pos ≠ s.pins.gpos →
     getBit s.span.members (claimOf p).pos = true → exec (.claim p) s =
       .next (classify (claimOf p) (spanRec 0x03 (claimOf p).pos 0 (dropMember (claimOf p).pos 1 s))))) ∧
  (∀ (m : Member) (s : State), (firstMissing s.required m.feats).isSome = true → classify m s =
    putMember { m with st := 4 } { s with span.excl := setBit s.span.excl m.pos true }) ∧
  (∀ (m : Member) (s : State), (firstMissing s.required m.feats).isSome = false →
    let t : State := { s with span.excl := setBit s.span.excl m.pos false }
    (m.hash = leAt (spanHash t) 0 8 → classify m s = putMember m t) ∧
    (m.hash ≠ leAt (spanHash t) 0 8 → getBit s.span.heldMask m.pos = false → classify m s =
      spanRec 0x04 m.pos 0 (putMember { m with st := 3 } { t with span.heldMask := setBit t.span.heldMask m.pos true }))) ∧
  actsWhen .elected
    (fun s => s.span.role = 1 ∧ s.span.lock = true ∧ atLeastSince 10240 s.spanx.claimAt s.clk.tb = true ∧
      firstMissing s.required (s.chan.accepted.getD 0) = none) (fun s => lead s) ∧
  actsWhen .admissionRetry (fun s => s.span.role = 5) (fun s => startClaim s)

/-- R436-R439, R443, R447, R449, R454, R456, R264, R467: the beacon, the answers to a proposal, pulls, parts of a configuration,
the census, records, messages and relayed commands. -/
def Obligations.SpanPacketRows : Prop :=
  (∀ s : State, s.span.role ≠ 2 ∨ s.span.lock = false ∨ (s.spanx.beaconSent = true ∧ s.aon.mode ≠ .safe) →
    exec .beaconSend s = .next s) ∧
  (∀ s : State, s.span.role = 2 → s.span.lock = true → s.spanx.beaconSent = false → s.framesRun = true →
    exec .beaconSend s = .next (beaconSend s) ∧ (beaconSend s).spanx.beaconSent = true ∧ (beaconSend s).spanx.recolour = false) ∧
  (∀ (p : Packet) (s : State), heard p s = false ∨ p.typ ≠ 2 ∨ p.payload.length ≠ 64 ∨ p.src % 16 = s.pins.gpos ∨
      s.span.role ∈ [0, 2, 5] → exec (.beacon p) s = .next s) ∧
  (∀ (p : Packet) (s : State), heard p s = true → p.typ = 2 → p.payload.length = 64 → p.src % 16 ≠ s.pins.gpos →
    s.span.role = 3 ∨ s.span.role = 4 → ¬ (slice p.payload 18 8 = spanHash s ∧
      (firstMissing s.required (s.chan.accepted.getD 0)).isSome = true) →
    let place := beaconPlace p s
    let d := tickDiff place (leAt p.payload 4 6)
    (farTime d = true → exec (.beacon p) s = .next (stopFrames { clearRing s with span.role := 1, spanx.claimAt := some s.clk.tb })) ∧
    (farTime d = false → exec (.beacon p) s = .next (followProposal p.payload (followMode (byteAt p.payload 26) (byteAt p.payload 27)
      (followJoined p.payload (followClock (leAt p.payload 10 8) { s with
        span.d := roundDiv (d * 1000) 1024
        clk.slew := clampI (-500) 500 (-(roundDiv (d * 1000) 1024))
        span.hops := p.hops
        span.rtt := leAt p.payload 48 2
        span.leader := p.src % 16
        spanx.beacon := some p.payload
        spanx.beaconAt := place })))))) ∧
  (∀ (p : Packet) (s : State), heard p s = true → p.typ = 2 → p.payload.length = 64 → p.src % 16 ≠ s.pins.gpos →
    s.span.role = 1 ∨ s.span.role = 3 ∨ s.span.role = 4 → slice p.payload 18 8 = spanHash s →
    ∀ k, firstMissing s.required (s.chan.accepted.getD 0) = some k →
      exec (.beacon p) s = .next (stopFrames (becomeExcluded 6 k s))) ∧
  (∀ (s : State), s.span.role = 3 → s.span.joined = true → s.aon.mode ≠ .safe → ∀ b : List Byte, byteAt b 51 = 1 →
    let p : Proposal := { kind := byteAt b 50, phase := 1, effect := leAt b 52 4, subject := slice b 56 8, ready := 0,
                          refused := false }
    followProposal b s = sendReady
      (if byteAt b 50 = 2 ∧ hashAfter s.spanx.changes { s with spanx.proposal := some p } ≠ slice b 56 8 then 1 else 0) 0
      { s with spanx.proposal := some p }) ∧
  (let answers (p : Packet) (s : State) : Prop := heard p s = true ∧ p.typ = 6 ∧ s.span.role = 2 ∧ 6 ≤ p.payload.length
   (∀ (p : Packet) (s : State), ¬ answers p s → exec (.ready p) s = .next s) ∧
   (∀ (p : Packet) (s : State), answers p s → byteAt p.payload 0 = 3 →
     exec (.ready p) s = .next (modMember (p.src % 16) (fun m => { m with st := 5 }) s)) ∧
   (∀ (p : Packet) (s : State) (x : Proposal), answers p s → byteAt p.payload 0 = 0 → s.spanx.proposal = some x →
     getBit s.span.heldMask (p.src % 16) = false →
     ∃ t, exec (.ready p) s = .next t ∧ t.spanx.proposal = some { x with ready := setBit x.ready (p.src % 16) true }) ∧
   (∀ (p : Packet) (s : State), answers p s → byteAt p.payload 0 = 4 → exec (.ready p) s = .next
     (if getBit s.span.members (p.src % 16) then spanRec 4 (p.src % 16) 0
       { dropMember (p.src % 16) 3 s with span.heldMask := setBit s.span.heldMask (p.src % 16) true } else s)) ∧
   (∀ (p : Packet) (s : State) (x : Proposal), answers p s → byteAt p.payload 0 ∉ [0, 3, 4] → s.spanx.proposal = some x → getBit s.span.members (p.src % 16) = true →
     exec (.ready p) s = .next { s with spanx.proposal := some { x with refused := true } })) ∧
  (∀ p, actsWhen (.pull p) (fun s => heard p s = true ∧ p.typ = 8 ∧ s.span.role = 2) (fun s => { s with
    spanx.pulls := s.spanx.pulls.filter (fun x => x.1 != p.src % 16) ++ [(p.src % 16, 0)] })) ∧
  (let parts (p : Packet) (s : State) : Prop :=
     heard p s = true ∧ p.typ = 7 ∧ 9 ≤ p.payload.length ∧ (s.span.role = 3 ∨ s.span.role = 4)
   (∀ (p : Packet) (s : State), ¬ parts p s → exec (.config p) s = .next s) ∧
   (∀ (p : Packet) (s : State), parts p s → leAt p.payload 1 4 ≠ 0 →
     byteAt p.payload 0 ≠ s.spanx.recvKind ∨ leAt p.payload 1 4 ≠ s.spanx.recv.length → exec (.config p) s = .next s) ∧
   (∀ (p : Packet) (s : State), parts p s → leAt p.payload 1 4 = 0 → (p.payload.drop 9).length < leAt p.payload 5 4 →
     exec (.config p) s = .next { s with
       spanx.recvKind := byteAt p.payload 0, spanx.recvTotal := leAt p.payload 5 4, spanx.recv := p.payload.drop 9
       span.pulled := if byteAt p.payload 0 = 0 then (p.payload.drop 9).length else s.span.pulled })) ∧
  (∀ p, actsWhen (.census p)
    (fun s => heard p s = true ∧ p.typ = 3 ∧ s.span.role = 2 ∧ p.payload.length = 68 ∧
      getBit s.span.members (p.src % 16) = true ∧ p.frame = s.frame.n % 256)
    (fun s => { s with
      spanx.censuses := s.spanx.censuses.filter (fun x => x.1 != p.src % 16) ++ [(p.src % 16, p.payload)] })) ∧
  (∀ p, actsWhen (.relay p)
    (fun s => heard p s = true ∧ p.typ = 9 ∧ s.span.role = 2 ∧ ((p.payload.length = 17 ∧ byteAt p.payload 0 < 32) ∨
      (p.payload = [0xFF#8] ∧ p.frame = s.frame.comp % 256)))
    (fun s =>
      if p.payload = [0xFF#8] then { s with spanx.markers := setBit s.spanx.markers (p.src % 16) true }
      else
        let r := recOf (p.payload.drop 1)
        let t := if p.frame ≠ s.frame.comp % 256 ∨ s.frame.phase = 3 then
            { s with span.late := min 65535 (s.span.late + 1) } else s
        putCtx (byteAt p.payload 0) { r with origin := r.origin % 128 + 128 } t)) ∧
  (∀ p, actsWhen (.msg p)
    (fun s => heard p s = true ∧ p.typ = 10 ∧ s.inSpan = true ∧ (p.payload.length = 1 ∨ p.payload.length = 9) ∧
      byteAt p.payload 0 < 32)
    (fun s =>
      if p.payload.length = 1 then { s with spanx.faultNext := setBit s.spanx.faultNext (byteAt p.payload 0) true }
      else { s with
        spanx.msgsIn := s.spanx.msgsIn ++ [(byteAt p.payload 0, p.src % 16, p.payload.drop 1)] })) ∧
  (let comes (p : Packet) (s : State) : Prop := heard p s = true ∧ p.typ = 11 ∧ 3 ≤ p.payload.length
   (∀ (p : Packet) (s : State), ¬ comes p s → exec (.cmd p) s = .next s) ∧
   (∀ (p : Packet) (s : State), comes p s → byteAt p.payload 0 ≠ 0 → s.span.role = 2 →
     (∀ t rs, s.spanx.relays = (p.src % 16, t) :: rs →
       exec (.cmd p) s = .next (completeTag t 0 (p.payload.drop 3) { s with spanx.relays := rs })) ∧
     ((∀ r ∈ s.spanx.relays, r.1 ≠ p.src % 16) → exec (.cmd p) s = .next s)) ∧
   (∀ (p : Packet) (s : State), comes p s → byteAt p.payload 0 = 0 → s.span.role = 3 ∨ s.span.role = 4 →
     ∃ t, exec (.cmd p) s = .next t ∧
       let port := if byteAt p.payload 1 = 0 then Port.tw else Port.hs
       let r := relayed port (byteAt p.payload 2) (p.payload.drop 3) s
       (r.1 = none → t = r.2) ∧
       ∀ bs, r.1 = some bs → t.spanx.sent.getLast? = some
         { typ := 11, src := r.2.pins.gpos, hops := 0, dst := r.2.span.leader, frame := r.2.frame.n % 256
           payload := [1#8, BitVec.ofNat 8 (byteAt p.payload 1), 0#8] ++ bs }))

/-- R235, R444-R446, R449, R460: the stitch pass of a span: what every member sends, what the leader keeps of it and decides, what a
decision does to the fragments and candidates it names, and a frame without decisions, which is held. The layout of the
packets is the model's (log 13). -/
def Obligations.StitchRows : Prop :=
  (∀ s : State, s.inSpan = true → s.frame.phase = 1 → s.spanx.stitchSent = false →
    ∃ t, exec .stitchPass s = .next t ∧ t.spanx.stitchSent = true ∧ t.spanx.endSaid = 0 ∧
      (s.span.role = 2 → (s.pins.gpos, stitchBytes (holdRest s)) ∈ t.spanx.stitches ∧ t.spanx.sent = s.spanx.sent) ∧
      (s.span.role ≠ 2 → t.spanx.sent.getLast? = some
        { typ := 4, src := s.pins.gpos, hops := 0, dst := s.span.leader, frame := s.frame.comp % 256
          payload := stitchBytes (holdRest s) })) ∧
  (∀ s : State, s.inSpan = false ∨ s.frame.phase ≠ 1 ∨ s.spanx.stitchSent = true → exec .stitchPass s = .next s) ∧
  (∀ s : State, (seamFrags s).length ≤ 6 → holdRest s = s) ∧
  (let takes (p : Packet) (s : State) : Prop := heard p s = true ∧ p.typ = 4 ∧ s.span.role = 2 ∧
     getBit s.span.members (p.src % 16) = true ∧ p.src % 16 ≠ s.pins.gpos ∧ p.frame = s.frame.comp % 256 ∧ s.frame.phase = 1
   let kept (p : Packet) (s : State) : State := { s with
     spanx.stitches := s.spanx.stitches.filter (fun x => x.1 != p.src % 16) ++ [(p.src % 16, p.payload)]
     spanx.faultNext := s.spanx.faultNext ||| BitVec.ofNat 32 (stitchOf (p.src % 16) p.payload).faulted
     spanx.lateRuns := s.spanx.lateRuns.set (p.src % 16) 0
     spanx.lateDone := s.spanx.lateDone.set (p.src % 16) false }
   (∀ (p : Packet) (s : State), ¬ takes p s → exec (.stitch p) s = .next s) ∧
   (∀ (p : Packet) (s : State), takes p s → s.member (p.src % 16) = none → exec (.stitch p) s = .next (kept p s)) ∧
   (∀ (p : Packet) (s : State) (m : Member), takes p s → s.member (p.src % 16) = some m →
     let x := (stitchOf (p.src % 16) p.payload).faults
     let t := modMember (p.src % 16) (fun m => { m with latch := x }) (kept p s)
     exec (.stitch p) s = .next
       (if BitVec.ofNat 32 x &&& ~~~(BitVec.ofNat 32 m.latch) = 0 then t else spanRec 0x0C (p.src % 16) (x % 65536) t))) ∧
  (∀ s : State, s.span.role ≠ 2 ∨ s.frame.phase ≠ 1 ∨ s.spanx.stitchSent = false → exec .decideSend s = .next s) ∧
  (∀ s : State, s.span.role = 2 → s.frame.phase = 1 → s.spanx.stitchSent = true →
    let xs := s.spanx.stitches.map (fun (p, b) => stitchOf p b)
    let here := maskOf 16 (fun p => xs.any (fun x => x.pos == p))
    let ds := decisions s xs
    let ps := (palmBytes s.span.config xs).take 4
    let bad := s.spanx.faultNext ||| s.faultedCtxs
    exec .decideSend s = .next (decided here bad ps ds.1 (sendPacket 5 0xFF s.frame.comp
      (le 2 here.toNat ++ le 4 bad.toNat ++ [BitVec.ofNat 8 ds.1.length, BitVec.ofNat 8 ps.length] ++ ps.flatten ++
        ds.1.flatMap (·.bytes))
      { s with
        spanx.stitches := []
        spanx.idHeld := ds.2.1
        spanx.idIdle := ds.2.2
        spanx.lateRuns := (List.range 16).map (fun p =>
          if getBit s.span.members p = true ∧ p ≠ s.pins.gpos ∧ getBit here p = false then s.spanx.lateRuns.getD p 0 + 1
          else 0) }))) ∧
  (∀ p, actsWhen (.decide p)
    (fun s => heard p s = true ∧ p.typ = 5 ∧ s.span.role = 3 ∧ s.span.joined = true ∧ s.frame.phase = 1 ∧
      s.spanx.stitchSent = true ∧ p.frame = s.frame.comp % 256)
    (fun s =>
      let b := p.payload
      let n := byteAt b 6
      let m := byteAt b 7
      decided (BitVec.ofNat 16 (leAt b 0 2)) (BitVec.ofNat 32 (leAt b 2 4)) ((List.range m).map (fun k => slice b (8 + 13 * k) 13))
        ((List.range n).map (fun k => entryOf (slice b (8 + 13 * m + 16 * k) 16))) s)) ∧
  actsWhen .stitchTimeout (fun s => s.frame.phase = 1 ∧ (s.spanx.stitchSent = true ∨ s.inSpan = false))
    (fun s => finishPass (holdCands s)) ∧
  (∀ (bad : BitVec 32) (s : State), decided 0 bad [] [] s =
    finishPass (holdCands { s with spanx.faultNext := s.spanx.faultNext ||| bad, spanx.places := [] })) ∧
  (∀ (e : Entry) (s : State), e.kind = 2 → (applyEntry e s).pipe.contacts =
    s.pipe.contacts.filter (fun c => !(c.matched && c.peak == e.peak))) ∧
  (∀ (e : Entry) (s : State) (c : Cand), e.kind = 3 → s.pipe.cands.find? (fun c => c.peak == e.peak) = some c → s.places ≠ 0 →
    c.toContact s e.id ∈ (applyEntry e s).pipe.contacts) ∧
  (∀ pos, actsWhen (.late pos)
    (fun s => s.span.role = 2 ∧ pos < 16 ∧ 32 ≤ s.spanx.lateRuns.getD pos 0 ∧ s.spanx.lateDone.getD pos false = false)
    (fun s => spanRec 0x0B pos 0 { s with spanx.lateDone := s.spanx.lateDone.set pos true }))

/-! ## Resets -/

/-- R53, R70, R96, R342, R532, R534, R542, R543, R545-R547: which reset each row performs, and where it leaves the part. -/
def Obligations.ResetRows : Prop :=
  carries .reset 0xF0 cmdReset
    (fun u d => u.payload.length = 3 ∧ leAt u.payload 0 2 = 0xA55A ∧ (byteAt u.payload 2 = 1 ∨ byteAt u.payload 2 = 2) ∧ fits 1 u d)
    (fun u e => (.none, bootUp (commandInput e) (heldReset (3 + byteAt u.payload 2) e))) ∧
  (∀ b, actsWhen (.powerOnReset b)
    (fun s => s.chan.rdy = false ∧ s.pins.testMode = false ∧ 435 ≤ b.vin ∧ (s.pins.resetLow = false ∨ s.aon.mode = .off))
    (fun s => powerReset (if s.aon.mode = .off ∧ s.rst.kind = 2 then 2 else 1) b s)) ∧
  (∀ b, actsWhen (.brownOut b) (fun s => s.aon.mode ≠ .off) (fun s => powerReset 2 b s)) ∧
  (∀ b (s : State), exec (.vaonOutOfRange b) s = .next (powerReset 1 b s)) ∧
  (∀ b, actsWhen (.pinReset true b) (fun s => s.pins.resetLow = false)
    (fun s => if s.aon.mode = .off then { s with pins.resetLow := true } else { heldReset 3 s with pins.resetLow := true })) ∧
  (∀ b, actsWhen (.pinReset false b) (fun s => s.pins.resetLow = true)
    (fun s => if s.aon.mode = .off then { s with pins.resetLow := false } else bootUp b { s with pins.resetLow := false })) ∧
  (∀ b, actsWhen (.watchdogReset b) (fun s => s.chan.rdy = true) (fun s => bootUp b (heldReset 6 s))) ∧
  (∀ b, actsWhen (.safeWatchdogReset b)
    (fun s => s.aon.mode = .safe ∧ s.aon.scWdog = true ∧ s.chan.tw.session = false ∧ s.chan.hs.session = false ∧
      s.clk.xtalFail = false) (fun s => bootUp b (heldReset 6 s))) ∧
  (∀ (k : Nat) (b : BootInput) (s : State), b.vin < 435 → (powerReset k b s).aon.mode = .off ∧ (powerReset k b s).rst.kind = k ∧
    (powerReset k b s).chan.rdy = false ∧ (powerReset k b s).power.domCore = false) ∧
  (∀ (b : BootInput) (s : State), b.testLow = true → s.chan.rdy = false → (bootUp b s).chan.rdy = false ∧
    (bootUp b s).pins.boot = b.boot.toNat ∧ (bootUp b s).pins.gpos = b.gpos.toNat ∧ (bootUp b s).pins.haddr = b.haddr.toNat ∧
    (bootUp b s).pins.hsm = b.hsm)

/-- R543, R546: what a reset keeps. A power-on reset keeps OTP and flash, another one also the timebase, the wall clock, the flags and
counters of the clamps and the numbering of the journal; sessions, contexts, contacts and configuration are lost. -/
def Obligations.ResetsKeep : Prop :=
  (∀ s : State, (wipe s).otp = s.otp ∧ (wipe s).mem.flash = s.mem.flash ∧ (wipe s).pending = s.pending ∧
    (wipe s).ctxs = State.reset.ctxs ∧ (wipe s).chan = State.reset.chan ∧ (wipe s).pipe = State.reset.pipe ∧
    (wipe s).fe = State.reset.fe ∧ (wipe s).span = State.reset.span ∧ (wipe s).jrn = State.reset.jrn ∧
    (wipe s).clk = { State.reset.clk with keepRail := decide (s.otp.trim = -128 ∨ s.otp.trim = 127) } ∧ (wipe s).cal = .reset s.otp.trim ∧
    (wipe s).power.domCore = false ∧ (wipe s).aon = State.reset.aon) ∧
  (∀ s : State,
    let t := wipeKept s
    t.clk.tb = s.clk.tb ∧ t.clk.frac = s.clk.frac ∧ t.clk.xtal = s.clk.xtal ∧ t.wc = s.wc ∧ t.shdn = s.shdn ∧
    t.clamp.flags = s.clamp.flags ∧ t.clamp.counters = s.clamp.counters ∧ t.clamp.opened = 0 ∧ t.jrn.shown = s.jrn.next ∧ t.jrn.next = s.jrn.next ∧ t.otp = s.otp ∧ t.mem.flash = s.mem.flash ∧
    t.pending = s.pending ∧ t.ctxs = State.reset.ctxs ∧ t.pipe = State.reset.pipe ∧ t.span = State.reset.span ∧
    t.chan.tw.session = false ∧ t.chan.hs.session = false ∧ t.chan.accepted = none)

/-! ## The machine -/

/-- R55, R98, R237, R463, R546: the machine right after a power-on reset: BOOT, no set accepted, no session, no fault, the
timebase at 0, every context CLOSED, the code store empty, no span formed. That the flash reads as erased is the model's choice
(log 2). -/
def Obligations.ResetState : Prop :=
  let s := State.reset
  s.pending = [] ∧ s.aon.mode = .boot ∧ s.chan.rdy = false ∧ s.chan.accepted = none ∧ s.chan.tw.session = false ∧
  s.chan.hs.session = false ∧ s.chan.faults = 0 ∧ s.chan.deferred = [] ∧ s.clk.tb = 0 ∧ s.wc.set = false ∧ s.ctxs.length = 32 ∧
  (∀ c ∈ s.ctxs, c.st = 0) ∧ s.pipe.contacts = [] ∧ s.pipe.cands = [] ∧ s.framesRun = false ∧ s.span.role = 0 ∧
  s.jrn.ring = [] ∧ s.mem.flash = [] ∧ s.grants = [] ∧ memoriesOk s

/-- No command and no time that passes brings the flash, the code store or a room out of canonical form. -/
def Obligations.MemoriesStayCanonical : Prop :=
  ∀ (s t : State), memoriesOk s → Machine.step s = .next t → memoriesOk t

/-- A command has its effect on everything but the queue, and time that passes puts nothing into it. -/
def Obligations.TheQueueOnlyShrinks : Prop :=
  ∀ (s t : State), Machine.step s = .next t → t.pending = s.pending.tail
end

