-- ==== Sys2Proof/Laws/Channel.lean ====
section
/-! SUPPORT. What a unit does that passes, and one that is accepted (R303). -/

namespace Sys2Proof.Machine
open Sys2Proof Sys2Proof.Safety

/-- A unit that passes steps 1 and 2 has its command judged and carried out in the state it was delivered to. -/
theorem hostUnit_passes (code : Nat) (resync : Bool) (c : Cmd) (u : HostUnit) (s : State)
    (h : passes code resync u s) :
    hostUnit code resync c u s = carry u.port c u.payload (delivered code resync u s) := by
  obtain ⟨hs, hf⟩ := h
  unfold hostUnit delivered
  cases hp : u.port with
  | tw =>
    rw [hp] at hf
    simp only at hf ⊢
    unfold twUnit
    simp only [hs, hf]
    rfl
  | hs =>
    rw [hp] at hf
    simp only at hf ⊢
    obtain ⟨hpres, hfate⟩ := hf
    unfold hsTransact
    simp only [hs, hpres]
    unfold hsUnit
    simp only [hfate]
    rfl

/-- An accepted unit carries its command out, and the port holds its reply. -/
theorem hostUnit_accepted (code : Nat) (resync : Bool) (c : Cmd) (u : HostUnit) (s : State)
    (h : accepted code resync c u s) :
    hostUnit code resync c u s =
      setReply u.port (c.run u.port u.payload (entry code resync u s)).1 (c.run u.port u.payload (entry code resync u s)).2 := by
  rw [hostUnit_passes code resync c u s h.1]
  have hv := h.2
  unfold judged reached at hv
  simp only at hv
  unfold carry
  simp only [hv]
  rfl

/-- A unit that passes and is refused at a later step: the verdict is the reply, and nothing else happens. -/
theorem hostUnit_refused (code : Nat) (resync : Bool) (c : Cmd) (u : HostUnit) (s : State) (v : Nat)
    (h : passes code resync u s) (hv : judged code resync c u s = v) (h0 : v ≠ 0) :
    hostUnit code resync c u s =
      (let d := (delivered code resync u s).modPort u.port (fun q => { q with badf := false })
       setReply u.port (.fixed (b8 v :: if v == 0x0D then (c.checks u.port u.payload d).data else []))
         (if v == 0x06 then d.modPort u.port (fun q => { q with qful := true }) else d)) := by
  rw [hostUnit_passes code resync c u s h]
  unfold judged reached at hv
  simp only at hv
  unfold carry
  simp only [hv]
  have : (v == 0) = false := by simpa using h0
  simp only [this]
  rfl

/-- The verdict is 0 exactly where every step of R303 from step 3 on passes. -/
theorem verdict_eq_zero (p : Port) (session : Bool) (k : Checks) (s : State) :
    verdict p session k s = 0 ↔
      k.served = true ∧ (k.free = true ∨ session = true) ∧ (k.early = true ∨ s.chan.accepted ≠ none) ∧
      k.feats.all s.feat = true ∧ (s.aon.mode ≠ .safe ∨ k.safe = true) ∧ k.locked = false ∧ k.lenOk = true ∧
      (p = .hs → s.pins.hsm = true → k.longest ≤ s.hs.wlen / 8 - 8) ∧
      (k.held = true → s.span.role ≠ 3 ∧ s.span.role ≠ 4) ∧ k.perm = true ∧ k.busy = false ∧ k.inRange = true ∧
      (k.flight = true → s.full k.ctx = false) := by
  unfold verdict
  split
  · simp_all
  split
  · rename_i h; simp at h; simp; intros; rcases h with h | h <;> simp_all
  split
  · simp_all
  split
  · rename_i h; simp at h; rcases h with h | h <;> simp_all
  split
  · rename_i h; simp at h; rcases h with h | ⟨⟨h, h'⟩, h''⟩ <;> simp_all
  split
  · rename_i h; simp at h; rcases h with ⟨h, h' | h'⟩ <;> simp_all
  split
  · simp_all
  split
  · simp_all
  split
  · simp_all
  split
  · simp_all
  · rename_i h1 h2 h3 h4 h5 h6 h7 h8 h9 h10
    simp at h1 h2 h3 h4 h5 h6 h7 h8 h9 h10
    simp only [true_iff]
    refine ⟨h1, ?_, ?_, by simpa using h3, ?_, h4.2, h5.1, ?_, ?_, h7, h8, h9, h10⟩
    · rcases h2 with ⟨h2, -⟩; cases hf : k.free <;> simp_all
    · rcases h2 with ⟨-, h2⟩; cases hf : k.early <;> simp_all
    · rcases h4 with ⟨h4, -⟩; by_cases hm : s.aon.mode = .safe <;> simp_all
    · intro hp hh; exact h5.2 hp hh
    · exact h6

/-- The outcome of a row whose command is accepted. -/
theorem hostRow_accepted (code : Nat) (c : Cmd) (u : HostUnit) (s : State) (h : accepted code false c u s) :
    hostRow code c u s =
      .next (setReply u.port (c.run u.port u.payload (entry code false u s)).1 (c.run u.port u.payload (entry code false u s)).2) := by
  unfold hostRow
  rw [hostUnit_accepted code false c u s h]

/-! ### Live replies -/

variable (p : Port) (pl : List Byte) (s : State)

theorem liveReply_ident : liveReply p 0x01 pl s = (0 :: identBytes p s, s) := rfl
theorem liveReply_featRead : liveReply p 0x02 pl s = (0 :: le 16 (if byteAt pl 0 == 0 then s.offered else s.chan.accepted.getD 0).toNat, s) := rfl
theorem liveReply_faultRead : liveReply p 0x05 pl s = (0 :: (faultRead p s).1, (faultRead p s).2) := rfl
theorem liveReply_tagRead : liveReply p 0x07 pl s = (0 :: (tagRead p (byteAt pl 0) s).1, (tagRead p (byteAt pl 0) s).2) := rfl
theorem liveReply_evtRead : liveReply p 0x30 pl s = (0 :: (evtRead p (byteAt pl 0) s).1, (evtRead p (byteAt pl 0) s).2) := rfl
theorem liveReply_feGet : liveReply p 0x41 pl s = (0 :: feGet (byteAt pl 0) s, s) := rfl
theorem liveReply_clampRead : liveReply p 0x46 pl s = (0 :: (clampRead (bit (byteAt pl 0) 0) s).1, (clampRead (bit (byteAt pl 0) 0) s).2) := rfl
theorem liveReply_memRead : liveReply p 0x92 pl s = (b8 (memRead (leAt pl 0 4) (leAt pl 4 2) s).1 :: (memRead (leAt pl 0 4) (leAt pl 4 2) s).2.1,
       (memRead (leAt pl 0 4) (leAt pl 4 2) s).2.2) := rfl
theorem liveReply_regRead : liveReply p 0xE0 pl s = (0 :: (regsRead (byteAt pl 2) (leAt pl 0 2) s).1, (regsRead (byteAt pl 2) (leAt pl 0 2) s).2) := rfl
theorem liveReply_journalRead : liveReply p 0x33 pl s =
    match journalRead p (byteAt pl 0) (leAt pl 1 4) (byteAt pl 5) s with
    | (some bs, t) => (0 :: bs, t)
    | (none, _) => ([0x0D], s) := by
  unfold liveReply
  rcases journalRead p (byteAt pl 0) (leAt pl 1 4) (byteAt pl 5) s with ⟨r, t⟩
  cases r <;> simp

/-- A bit of a number. -/
theorem bit_eq_testBit (n k : Nat) : bit n k = n.testBit k := by
  rw [bit, Nat.testBit_eq_decide_div_mod_eq, beq_eq_decide]

end Sys2Proof.Machine
end

