-- ==== Sys2Proof/Laws/Decode.lean ====
section
/-! SUPPORT. The bits and the fields of a word that a form's encoder makes (R240). -/

namespace Sys2Proof

/-! ### Bits of two fields side by side -/

theorem getLsbD_6_4 (x : BitVec 6) (y : BitVec 4) (i : Nat) :
    (x ++ y : BitVec 10).getLsbD i = if i < 4 then y.getLsbD i else x.getLsbD (i - 4) := by
  have := BitVec.getLsbD_append (x := x) (y := y) (i := i)
  simpa using this

theorem getLsbD_10_4 (x : BitVec 10) (y : BitVec 4) (i : Nat) :
    (x ++ y : BitVec 14).getLsbD i = if i < 4 then y.getLsbD i else x.getLsbD (i - 4) := by
  have := BitVec.getLsbD_append (x := x) (y := y) (i := i)
  simpa using this

theorem getLsbD_14_4 (x : BitVec 14) (y : BitVec 4) (i : Nat) :
    (x ++ y : BitVec 18).getLsbD i = if i < 4 then y.getLsbD i else x.getLsbD (i - 4) := by
  have := BitVec.getLsbD_append (x := x) (y := y) (i := i)
  simpa using this

theorem getLsbD_18_14 (x : BitVec 18) (y : BitVec 14) (i : Nat) :
    (x ++ y : BitVec 32).getLsbD i = if i < 14 then y.getLsbD i else x.getLsbD (i - 14) := by
  have := BitVec.getLsbD_append (x := x) (y := y) (i := i)
  simpa using this

theorem getLsbD_14_18 (x : BitVec 14) (y : BitVec 18) (i : Nat) :
    (x ++ y : BitVec 32).getLsbD i = if i < 18 then y.getLsbD i else x.getLsbD (i - 18) := by
  have := BitVec.getLsbD_append (x := x) (y := y) (i := i)
  simpa using this

theorem getLsbD_10_22 (x : BitVec 10) (y : BitVec 22) (i : Nat) :
    (x ++ y : BitVec 32).getLsbD i = if i < 22 then y.getLsbD i else x.getLsbD (i - 22) := by
  have := BitVec.getLsbD_append (x := x) (y := y) (i := i)
  simpa using this

theorem getLsbD_14_6 (x : BitVec 14) (y : BitVec 6) (i : Nat) :
    (x ++ y : BitVec 20).getLsbD i = if i < 6 then y.getLsbD i else x.getLsbD (i - 6) := by
  have := BitVec.getLsbD_append (x := x) (y := y) (i := i)
  simpa using this

theorem getLsbD_20_12 (x : BitVec 20) (y : BitVec 12) (i : Nat) :
    (x ++ y : BitVec 32).getLsbD i = if i < 12 then y.getLsbD i else x.getLsbD (i - 12) := by
  have := BitVec.getLsbD_append (x := x) (y := y) (i := i)
  simpa using this

theorem getLsbD_18_1 (x : BitVec 18) (y : BitVec 1) (i : Nat) :
    (x ++ y : BitVec 19).getLsbD i = if i < 1 then y.getLsbD i else x.getLsbD (i - 1) := by
  have := BitVec.getLsbD_append (x := x) (y := y) (i := i)
  simpa using this

theorem getLsbD_19_8 (x : BitVec 19) (y : BitVec 8) (i : Nat) :
    (x ++ y : BitVec 27).getLsbD i = if i < 8 then y.getLsbD i else x.getLsbD (i - 8) := by
  have := BitVec.getLsbD_append (x := x) (y := y) (i := i)
  simpa using this

theorem getLsbD_27_5 (x : BitVec 27) (y : BitVec 5) (i : Nat) :
    (x ++ y : BitVec 32).getLsbD i = if i < 5 then y.getLsbD i else x.getLsbD (i - 5) := by
  have := BitVec.getLsbD_append (x := x) (y := y) (i := i)
  simpa using this

theorem getLsbD_18_2 (x : BitVec 18) (y : BitVec 2) (i : Nat) :
    (x ++ y : BitVec 20).getLsbD i = if i < 2 then y.getLsbD i else x.getLsbD (i - 2) := by
  have := BitVec.getLsbD_append (x := x) (y := y) (i := i)
  simpa using this

theorem getLsbD_18_8 (x : BitVec 18) (y : BitVec 8) (i : Nat) :
    (x ++ y : BitVec 26).getLsbD i = if i < 8 then y.getLsbD i else x.getLsbD (i - 8) := by
  have := BitVec.getLsbD_append (x := x) (y := y) (i := i)
  simpa using this

theorem getLsbD_26_1 (x : BitVec 26) (y : BitVec 1) (i : Nat) :
    (x ++ y : BitVec 27).getLsbD i = if i < 1 then y.getLsbD i else x.getLsbD (i - 1) := by
  have := BitVec.getLsbD_append (x := x) (y := y) (i := i)
  simpa using this

theorem getLsbD_18_10 (x : BitVec 18) (y : BitVec 10) (i : Nat) :
    (x ++ y : BitVec 28).getLsbD i = if i < 10 then y.getLsbD i else x.getLsbD (i - 10) := by
  have := BitVec.getLsbD_append (x := x) (y := y) (i := i)
  simpa using this

theorem getLsbD_28_4 (x : BitVec 28) (y : BitVec 4) (i : Nat) :
    (x ++ y : BitVec 32).getLsbD i = if i < 4 then y.getLsbD i else x.getLsbD (i - 4) := by
  have := BitVec.getLsbD_append (x := x) (y := y) (i := i)
  simpa using this

theorem getLsbD_18_13 (x : BitVec 18) (y : BitVec 13) (i : Nat) :
    (x ++ y : BitVec 31).getLsbD i = if i < 13 then y.getLsbD i else x.getLsbD (i - 13) := by
  have := BitVec.getLsbD_append (x := x) (y := y) (i := i)
  simpa using this

theorem getLsbD_31_1 (x : BitVec 31) (y : BitVec 1) (i : Nat) :
    (x ++ y : BitVec 32).getLsbD i = if i < 1 then y.getLsbD i else x.getLsbD (i - 1) := by
  have := BitVec.getLsbD_append (x := x) (y := y) (i := i)
  simpa using this

theorem getLsbD_6_26 (x : BitVec 6) (y : BitVec 26) (i : Nat) :
    (x ++ y : BitVec 32).getLsbD i = if i < 26 then y.getLsbD i else x.getLsbD (i - 26) := by
  have := BitVec.getLsbD_append (x := x) (y := y) (i := i)
  simpa using this

/-! ### Bits of an encoded form -/

theorem bits_wordA (op : BitVec 6) (o : OpA) (j : Nat) : (wordA op o).getLsbD j =
    if j < 14 then o.fn.getLsbD j else
    if j - 14 < 4 then o.b.getLsbD (j - 14) else
    if j - 14 - 4 < 4 then o.a.getLsbD (j - 14 - 4) else
    if j - 14 - 4 - 4 < 4 then o.d.getLsbD (j - 14 - 4 - 4) else
    op.getLsbD (j - 14 - 4 - 4 - 4) := by
  refine (getLsbD_18_14 _ _ _).trans (if_congr Iff.rfl rfl ?_)
  refine (getLsbD_14_4 _ _ _).trans (if_congr Iff.rfl rfl ?_)
  refine (getLsbD_10_4 _ _ _).trans (if_congr Iff.rfl rfl ?_)
  exact getLsbD_6_4 _ _ _

theorem bits_wordI' (op : BitVec 6) (o : OpI) (j : Nat) : (wordI' op o).getLsbD j =
    if j < 18 then o.imm.getLsbD j else
    if j - 18 < 4 then o.a.getLsbD (j - 18) else
    if j - 18 - 4 < 4 then o.d.getLsbD (j - 18 - 4) else
    op.getLsbD (j - 18 - 4 - 4) := by
  refine (getLsbD_14_18 _ _ _).trans (if_congr Iff.rfl rfl ?_)
  refine (getLsbD_10_4 _ _ _).trans (if_congr Iff.rfl rfl ?_)
  exact getLsbD_6_4 _ _ _

theorem bits_wordB (op : BitVec 6) (o : OpB) (j : Nat) : (wordB op o).getLsbD j =
    if j < 22 then o.off.getLsbD j else
    if j - 22 < 4 then o.cond.getLsbD (j - 22) else
    op.getLsbD (j - 22 - 4) := by
  refine (getLsbD_10_22 _ _ _).trans (if_congr Iff.rfl rfl ?_)
  exact getLsbD_6_4 _ _ _

theorem bits_wordP (op : BitVec 6) (o : OpP) (j : Nat) : (wordP op o).getLsbD j =
    if j < 12 then o.fn.getLsbD j else
    if j - 12 < 6 then o.plane.getLsbD (j - 12) else
    if j - 12 - 6 < 4 then o.a.getLsbD (j - 12 - 6) else
    if j - 12 - 6 - 4 < 4 then o.d.getLsbD (j - 12 - 6 - 4) else
    op.getLsbD (j - 12 - 6 - 4 - 4) := by
  refine (getLsbD_20_12 _ _ _).trans (if_congr Iff.rfl rfl ?_)
  refine (getLsbD_14_6 _ _ _).trans (if_congr Iff.rfl rfl ?_)
  refine (getLsbD_10_4 _ _ _).trans (if_congr Iff.rfl rfl ?_)
  exact getLsbD_6_4 _ _ _

theorem bits_wordR (fn : BitVec 5) (o : OpR) (j : Nat) : (wordR fn o).getLsbD j =
    if j < 5 then fn.getLsbD j else
    if j - 5 < 8 then o.rsv.getLsbD (j - 5) else
    if j - 5 - 8 < 1 then (BitVec.ofBool o.s).getLsbD (j - 5 - 8) else
    if j - 5 - 8 - 1 < 4 then o.b.getLsbD (j - 5 - 8 - 1) else
    if j - 5 - 8 - 1 - 4 < 4 then o.a.getLsbD (j - 5 - 8 - 1 - 4) else
    if j - 5 - 8 - 1 - 4 - 4 < 4 then o.d.getLsbD (j - 5 - 8 - 1 - 4 - 4) else
    (0#6 : BitVec 6).getLsbD (j - 5 - 8 - 1 - 4 - 4 - 4) := by
  refine (getLsbD_27_5 _ _ _).trans (if_congr Iff.rfl rfl ?_)
  refine (getLsbD_19_8 _ _ _).trans (if_congr Iff.rfl rfl ?_)
  refine (getLsbD_18_1 _ _ _).trans (if_congr Iff.rfl rfl ?_)
  refine (getLsbD_14_4 _ _ _).trans (if_congr Iff.rfl rfl ?_)
  refine (getLsbD_10_4 _ _ _).trans (if_congr Iff.rfl rfl ?_)
  exact getLsbD_6_4 _ _ _

theorem bits_wordT (k : BitVec 2) (o : OpT) (j : Nat) : (wordT k o).getLsbD j =
    if j < 12 then o.off.getLsbD j else
    if j - 12 < 2 then k.getLsbD (j - 12) else
    if j - 12 - 2 < 4 then o.b.getLsbD (j - 12 - 2) else
    if j - 12 - 2 - 4 < 4 then o.a.getLsbD (j - 12 - 2 - 4) else
    if j - 12 - 2 - 4 - 4 < 4 then o.d.getLsbD (j - 12 - 2 - 4 - 4) else
    (0x15#6 : BitVec 6).getLsbD (j - 12 - 2 - 4 - 4 - 4) := by
  refine (getLsbD_20_12 _ _ _).trans (if_congr Iff.rfl rfl ?_)
  refine (getLsbD_18_2 _ _ _).trans (if_congr Iff.rfl rfl ?_)
  refine (getLsbD_14_4 _ _ _).trans (if_congr Iff.rfl rfl ?_)
  refine (getLsbD_10_4 _ _ _).trans (if_congr Iff.rfl rfl ?_)
  exact getLsbD_6_4 _ _ _

theorem bits_wordL (op : BitVec 6) (k : BitVec 1) (o : OpL) (j : Nat) : (wordL op k o).getLsbD j =
    if j < 5 then o.lo.getLsbD j else
    if j - 5 < 1 then k.getLsbD (j - 5) else
    if j - 5 - 1 < 8 then o.hi.getLsbD (j - 5 - 1) else
    if j - 5 - 1 - 8 < 4 then o.b.getLsbD (j - 5 - 1 - 8) else
    if j - 5 - 1 - 8 - 4 < 4 then o.a.getLsbD (j - 5 - 1 - 8 - 4) else
    if j - 5 - 1 - 8 - 4 - 4 < 4 then o.d.getLsbD (j - 5 - 1 - 8 - 4 - 4) else
    op.getLsbD (j - 5 - 1 - 8 - 4 - 4 - 4) := by
  refine (getLsbD_27_5 _ _ _).trans (if_congr Iff.rfl rfl ?_)
  refine (getLsbD_26_1 _ _ _).trans (if_congr Iff.rfl rfl ?_)
  refine (getLsbD_18_8 _ _ _).trans (if_congr Iff.rfl rfl ?_)
  refine (getLsbD_14_4 _ _ _).trans (if_congr Iff.rfl rfl ?_)
  refine (getLsbD_10_4 _ _ _).trans (if_congr Iff.rfl rfl ?_)
  exact getLsbD_6_4 _ _ _

theorem bits_wordS (k : BitVec 4) (o : OpS) (j : Nat) : (wordS k o).getLsbD j =
    if j < 4 then k.getLsbD j else
    if j - 4 < 10 then o.rsv.getLsbD (j - 4) else
    if j - 4 - 10 < 4 then o.b.getLsbD (j - 4 - 10) else
    if j - 4 - 10 - 4 < 4 then o.a.getLsbD (j - 4 - 10 - 4) else
    if j - 4 - 10 - 4 - 4 < 4 then o.d.getLsbD (j - 4 - 10 - 4 - 4) else
    (0x3C#6 : BitVec 6).getLsbD (j - 4 - 10 - 4 - 4 - 4) := by
  refine (getLsbD_28_4 _ _ _).trans (if_congr Iff.rfl rfl ?_)
  refine (getLsbD_18_10 _ _ _).trans (if_congr Iff.rfl rfl ?_)
  refine (getLsbD_14_4 _ _ _).trans (if_congr Iff.rfl rfl ?_)
  refine (getLsbD_10_4 _ _ _).trans (if_congr Iff.rfl rfl ?_)
  exact getLsbD_6_4 _ _ _

theorem bits_wordM (k : BitVec 1) (o : OpM) (j : Nat) : (wordM k o).getLsbD j =
    if j < 1 then k.getLsbD j else
    if j - 1 < 13 then o.rsv.getLsbD (j - 1) else
    if j - 1 - 13 < 4 then o.b.getLsbD (j - 1 - 13) else
    if j - 1 - 13 - 4 < 4 then o.a.getLsbD (j - 1 - 13 - 4) else
    if j - 1 - 13 - 4 - 4 < 4 then o.d.getLsbD (j - 1 - 13 - 4 - 4) else
    (0x3D#6 : BitVec 6).getLsbD (j - 1 - 13 - 4 - 4 - 4) := by
  refine (getLsbD_31_1 _ _ _).trans (if_congr Iff.rfl rfl ?_)
  refine (getLsbD_18_13 _ _ _).trans (if_congr Iff.rfl rfl ?_)
  refine (getLsbD_14_4 _ _ _).trans (if_congr Iff.rfl rfl ?_)
  refine (getLsbD_10_4 _ _ _).trans (if_congr Iff.rfl rfl ?_)
  exact getLsbD_6_4 _ _ _

/-! ### Fields of an encoded form -/

@[simp] theorem opField_wordA (op : BitVec 6) (o : OpA) : opField (wordA op o) = op := by
  apply BitVec.eq_of_getLsbD_eq
  intro i hi
  simp only [opField, BitVec.getLsbD_extractLsb', bits_wordA, hi, decide_true, Bool.true_and]
  rw [if_neg (by omega), if_neg (by omega), if_neg (by omega), if_neg (by omega)]
  congr 1
  omega

@[simp] theorem formA_wordA (op : BitVec 6) (o : OpA) : formA (wordA op o) = o := by
  rcases o with ⟨x0, x1, x2, x3⟩
  simp only [formA, dField, aField, bField, OpA.mk.injEq]
  refine ⟨?_, ?_, ?_, ?_⟩
  · apply BitVec.eq_of_getLsbD_eq
    intro i hi
    simp only [BitVec.getLsbD_extractLsb', bits_wordA, hi, decide_true, Bool.true_and]
    rw [if_neg (by omega), if_neg (by omega), if_neg (by omega), if_pos (by omega)]
    congr 1
    omega
  · apply BitVec.eq_of_getLsbD_eq
    intro i hi
    simp only [BitVec.getLsbD_extractLsb', bits_wordA, hi, decide_true, Bool.true_and]
    rw [if_neg (by omega), if_neg (by omega), if_pos (by omega)]
    congr 1
    omega
  · apply BitVec.eq_of_getLsbD_eq
    intro i hi
    simp only [BitVec.getLsbD_extractLsb', bits_wordA, hi, decide_true, Bool.true_and]
    rw [if_neg (by omega), if_pos (by omega)]
    congr 1
    omega
  · apply BitVec.eq_of_getLsbD_eq
    intro i hi
    simp only [BitVec.getLsbD_extractLsb', bits_wordA, hi, decide_true, Bool.true_and]
    rw [if_pos (by omega)]
    congr 1
    omega

@[simp] theorem opField_wordI' (op : BitVec 6) (o : OpI) : opField (wordI' op o) = op := by
  apply BitVec.eq_of_getLsbD_eq
  intro i hi
  simp only [opField, BitVec.getLsbD_extractLsb', bits_wordI', hi, decide_true, Bool.true_and]
  rw [if_neg (by omega), if_neg (by omega), if_neg (by omega)]
  congr 1
  omega

@[simp] theorem formI_wordI' (op : BitVec 6) (o : OpI) : formI (wordI' op o) = o := by
  rcases o with ⟨x0, x1, x2⟩
  simp only [formI, dField, aField, OpI.mk.injEq]
  refine ⟨?_, ?_, ?_⟩
  · apply BitVec.eq_of_getLsbD_eq
    intro i hi
    simp only [BitVec.getLsbD_extractLsb', bits_wordI', hi, decide_true, Bool.true_and]
    rw [if_neg (by omega), if_neg (by omega), if_pos (by omega)]
    congr 1
    omega
  · apply BitVec.eq_of_getLsbD_eq
    intro i hi
    simp only [BitVec.getLsbD_extractLsb', bits_wordI', hi, decide_true, Bool.true_and]
    rw [if_neg (by omega), if_pos (by omega)]
    congr 1
    omega
  · apply BitVec.eq_of_getLsbD_eq
    intro i hi
    simp only [BitVec.getLsbD_extractLsb', bits_wordI', hi, decide_true, Bool.true_and]
    rw [if_pos (by omega)]
    congr 1
    omega

@[simp] theorem opField_wordB (op : BitVec 6) (o : OpB) : opField (wordB op o) = op := by
  apply BitVec.eq_of_getLsbD_eq
  intro i hi
  simp only [opField, BitVec.getLsbD_extractLsb', bits_wordB, hi, decide_true, Bool.true_and]
  rw [if_neg (by omega), if_neg (by omega)]
  congr 1
  omega

@[simp] theorem formB_wordB (op : BitVec 6) (o : OpB) : formB (wordB op o) = o := by
  rcases o with ⟨x0, x1⟩
  simp only [formB, OpB.mk.injEq]
  refine ⟨?_, ?_⟩
  · apply BitVec.eq_of_getLsbD_eq
    intro i hi
    simp only [BitVec.getLsbD_extractLsb', bits_wordB, hi, decide_true, Bool.true_and]
    rw [if_neg (by omega), if_pos (by omega)]
    congr 1
    omega
  · apply BitVec.eq_of_getLsbD_eq
    intro i hi
    simp only [BitVec.getLsbD_extractLsb', bits_wordB, hi, decide_true, Bool.true_and]
    rw [if_pos (by omega)]
    congr 1
    omega

@[simp] theorem opField_wordP (op : BitVec 6) (o : OpP) : opField (wordP op o) = op := by
  apply BitVec.eq_of_getLsbD_eq
  intro i hi
  simp only [opField, BitVec.getLsbD_extractLsb', bits_wordP, hi, decide_true, Bool.true_and]
  rw [if_neg (by omega), if_neg (by omega), if_neg (by omega), if_neg (by omega)]
  congr 1
  omega

@[simp] theorem formP_wordP (op : BitVec 6) (o : OpP) : formP (wordP op o) = o := by
  rcases o with ⟨x0, x1, x2, x3⟩
  simp only [formP, dField, aField, OpP.mk.injEq]
  refine ⟨?_, ?_, ?_, ?_⟩
  · apply BitVec.eq_of_getLsbD_eq
    intro i hi
    simp only [BitVec.getLsbD_extractLsb', bits_wordP, hi, decide_true, Bool.true_and]
    rw [if_neg (by omega), if_neg (by omega), if_neg (by omega), if_pos (by omega)]
    congr 1
    omega
  · apply BitVec.eq_of_getLsbD_eq
    intro i hi
    simp only [BitVec.getLsbD_extractLsb', bits_wordP, hi, decide_true, Bool.true_and]
    rw [if_neg (by omega), if_neg (by omega), if_pos (by omega)]
    congr 1
    omega
  · apply BitVec.eq_of_getLsbD_eq
    intro i hi
    simp only [BitVec.getLsbD_extractLsb', bits_wordP, hi, decide_true, Bool.true_and]
    rw [if_neg (by omega), if_pos (by omega)]
    congr 1
    omega
  · apply BitVec.eq_of_getLsbD_eq
    intro i hi
    simp only [BitVec.getLsbD_extractLsb', bits_wordP, hi, decide_true, Bool.true_and]
    rw [if_pos (by omega)]
    congr 1
    omega

@[simp] theorem opField_wordR (fn : BitVec 5) (o : OpR) : opField (wordR fn o) = 0#6 := by
  apply BitVec.eq_of_getLsbD_eq
  intro i hi
  simp only [opField, BitVec.getLsbD_extractLsb', bits_wordR, hi, decide_true, Bool.true_and]
  rw [if_neg (by omega), if_neg (by omega), if_neg (by omega), if_neg (by omega), if_neg (by omega), if_neg (by omega)]
  congr 1
  omega

@[simp] theorem formR_wordR (fn : BitVec 5) (o : OpR) : formR (wordR fn o) = o := by
  rcases o with ⟨x0, x1, x2, x3, x4⟩
  simp only [formR, dField, aField, bField, OpR.mk.injEq]
  refine ⟨?_, ?_, ?_, ?_, ?_⟩
  · apply BitVec.eq_of_getLsbD_eq
    intro i hi
    simp only [BitVec.getLsbD_extractLsb', bits_wordR, hi, decide_true, Bool.true_and]
    rw [if_neg (by omega), if_neg (by omega), if_neg (by omega), if_neg (by omega), if_neg (by omega), if_pos (by omega)]
    congr 1
    omega
  · apply BitVec.eq_of_getLsbD_eq
    intro i hi
    simp only [BitVec.getLsbD_extractLsb', bits_wordR, hi, decide_true, Bool.true_and]
    rw [if_neg (by omega), if_neg (by omega), if_neg (by omega), if_neg (by omega), if_pos (by omega)]
    congr 1
    omega
  · apply BitVec.eq_of_getLsbD_eq
    intro i hi
    simp only [BitVec.getLsbD_extractLsb', bits_wordR, hi, decide_true, Bool.true_and]
    rw [if_neg (by omega), if_neg (by omega), if_neg (by omega), if_pos (by omega)]
    congr 1
    omega
  · simp only [bits_wordR]
    simp
  · apply BitVec.eq_of_getLsbD_eq
    intro i hi
    simp only [BitVec.getLsbD_extractLsb', bits_wordR, hi, decide_true, Bool.true_and]
    rw [if_neg (by omega), if_pos (by omega)]
    congr 1
    omega

@[simp] theorem opField_wordT (k : BitVec 2) (o : OpT) : opField (wordT k o) = 0x15#6 := by
  apply BitVec.eq_of_getLsbD_eq
  intro i hi
  simp only [opField, BitVec.getLsbD_extractLsb', bits_wordT, hi, decide_true, Bool.true_and]
  rw [if_neg (by omega), if_neg (by omega), if_neg (by omega), if_neg (by omega), if_neg (by omega)]
  congr 1
  omega

@[simp] theorem formT_wordT (k : BitVec 2) (o : OpT) : formT (wordT k o) = o := by
  rcases o with ⟨x0, x1, x2, x3⟩
  simp only [formT, dField, aField, bField, OpT.mk.injEq]
  refine ⟨?_, ?_, ?_, ?_⟩
  · apply BitVec.eq_of_getLsbD_eq
    intro i hi
    simp only [BitVec.getLsbD_extractLsb', bits_wordT, hi, decide_true, Bool.true_and]
    rw [if_neg (by omega), if_neg (by omega), if_neg (by omega), if_neg (by omega), if_pos (by omega)]
    congr 1
    omega
  · apply BitVec.eq_of_getLsbD_eq
    intro i hi
    simp only [BitVec.getLsbD_extractLsb', bits_wordT, hi, decide_true, Bool.true_and]
    rw [if_neg (by omega), if_neg (by omega), if_neg (by omega), if_pos (by omega)]
    congr 1
    omega
  · apply BitVec.eq_of_getLsbD_eq
    intro i hi
    simp only [BitVec.getLsbD_extractLsb', bits_wordT, hi, decide_true, Bool.true_and]
    rw [if_neg (by omega), if_neg (by omega), if_pos (by omega)]
    congr 1
    omega
  · apply BitVec.eq_of_getLsbD_eq
    intro i hi
    simp only [BitVec.getLsbD_extractLsb', bits_wordT, hi, decide_true, Bool.true_and]
    rw [if_pos (by omega)]
    congr 1
    omega

@[simp] theorem opField_wordL (op : BitVec 6) (k : BitVec 1) (o : OpL) : opField (wordL op k o) = op := by
  apply BitVec.eq_of_getLsbD_eq
  intro i hi
  simp only [opField, BitVec.getLsbD_extractLsb', bits_wordL, hi, decide_true, Bool.true_and]
  rw [if_neg (by omega), if_neg (by omega), if_neg (by omega), if_neg (by omega), if_neg (by omega), if_neg (by omega)]
  congr 1
  omega

@[simp] theorem formL_wordL (op : BitVec 6) (k : BitVec 1) (o : OpL) : formL (wordL op k o) = o := by
  rcases o with ⟨x0, x1, x2, x3, x4⟩
  simp only [formL, dField, aField, bField, OpL.mk.injEq]
  refine ⟨?_, ?_, ?_, ?_, ?_⟩
  · apply BitVec.eq_of_getLsbD_eq
    intro i hi
    simp only [BitVec.getLsbD_extractLsb', bits_wordL, hi, decide_true, Bool.true_and]
    rw [if_neg (by omega), if_neg (by omega), if_neg (by omega), if_neg (by omega), if_neg (by omega), if_pos (by omega)]
    congr 1
    omega
  · apply BitVec.eq_of_getLsbD_eq
    intro i hi
    simp only [BitVec.getLsbD_extractLsb', bits_wordL, hi, decide_true, Bool.true_and]
    rw [if_neg (by omega), if_neg (by omega), if_neg (by omega), if_neg (by omega), if_pos (by omega)]
    congr 1
    omega
  · apply BitVec.eq_of_getLsbD_eq
    intro i hi
    simp only [BitVec.getLsbD_extractLsb', bits_wordL, hi, decide_true, Bool.true_and]
    rw [if_neg (by omega), if_neg (by omega), if_neg (by omega), if_pos (by omega)]
    congr 1
    omega
  · apply BitVec.eq_of_getLsbD_eq
    intro i hi
    simp only [BitVec.getLsbD_extractLsb', bits_wordL, hi, decide_true, Bool.true_and]
    rw [if_neg (by omega), if_neg (by omega), if_pos (by omega)]
    congr 1
    omega
  · apply BitVec.eq_of_getLsbD_eq
    intro i hi
    simp only [BitVec.getLsbD_extractLsb', bits_wordL, hi, decide_true, Bool.true_and]
    rw [if_pos (by omega)]
    congr 1
    omega

@[simp] theorem opField_wordS (k : BitVec 4) (o : OpS) : opField (wordS k o) = 0x3C#6 := by
  apply BitVec.eq_of_getLsbD_eq
  intro i hi
  simp only [opField, BitVec.getLsbD_extractLsb', bits_wordS, hi, decide_true, Bool.true_and]
  rw [if_neg (by omega), if_neg (by omega), if_neg (by omega), if_neg (by omega), if_neg (by omega)]
  congr 1
  omega

@[simp] theorem formS_wordS (k : BitVec 4) (o : OpS) : formS (wordS k o) = o := by
  rcases o with ⟨x0, x1, x2, x3⟩
  simp only [formS, dField, aField, bField, OpS.mk.injEq]
  refine ⟨?_, ?_, ?_, ?_⟩
  · apply BitVec.eq_of_getLsbD_eq
    intro i hi
    simp only [BitVec.getLsbD_extractLsb', bits_wordS, hi, decide_true, Bool.true_and]
    rw [if_neg (by omega), if_neg (by omega), if_neg (by omega), if_neg (by omega), if_pos (by omega)]
    congr 1
    omega
  · apply BitVec.eq_of_getLsbD_eq
    intro i hi
    simp only [BitVec.getLsbD_extractLsb', bits_wordS, hi, decide_true, Bool.true_and]
    rw [if_neg (by omega), if_neg (by omega), if_neg (by omega), if_pos (by omega)]
    congr 1
    omega
  · apply BitVec.eq_of_getLsbD_eq
    intro i hi
    simp only [BitVec.getLsbD_extractLsb', bits_wordS, hi, decide_true, Bool.true_and]
    rw [if_neg (by omega), if_neg (by omega), if_pos (by omega)]
    congr 1
    omega
  · apply BitVec.eq_of_getLsbD_eq
    intro i hi
    simp only [BitVec.getLsbD_extractLsb', bits_wordS, hi, decide_true, Bool.true_and]
    rw [if_neg (by omega), if_pos (by omega)]
    congr 1
    omega

@[simp] theorem opField_wordM (k : BitVec 1) (o : OpM) : opField (wordM k o) = 0x3D#6 := by
  apply BitVec.eq_of_getLsbD_eq
  intro i hi
  simp only [opField, BitVec.getLsbD_extractLsb', bits_wordM, hi, decide_true, Bool.true_and]
  rw [if_neg (by omega), if_neg (by omega), if_neg (by omega), if_neg (by omega), if_neg (by omega)]
  congr 1
  omega

@[simp] theorem formM_wordM (k : BitVec 1) (o : OpM) : formM (wordM k o) = o := by
  rcases o with ⟨x0, x1, x2, x3⟩
  simp only [formM, dField, aField, bField, OpM.mk.injEq]
  refine ⟨?_, ?_, ?_, ?_⟩
  · apply BitVec.eq_of_getLsbD_eq
    intro i hi
    simp only [BitVec.getLsbD_extractLsb', bits_wordM, hi, decide_true, Bool.true_and]
    rw [if_neg (by omega), if_neg (by omega), if_neg (by omega), if_neg (by omega), if_pos (by omega)]
    congr 1
    omega
  · apply BitVec.eq_of_getLsbD_eq
    intro i hi
    simp only [BitVec.getLsbD_extractLsb', bits_wordM, hi, decide_true, Bool.true_and]
    rw [if_neg (by omega), if_neg (by omega), if_neg (by omega), if_pos (by omega)]
    congr 1
    omega
  · apply BitVec.eq_of_getLsbD_eq
    intro i hi
    simp only [BitVec.getLsbD_extractLsb', bits_wordM, hi, decide_true, Bool.true_and]
    rw [if_neg (by omega), if_neg (by omega), if_pos (by omega)]
    congr 1
    omega
  · apply BitVec.eq_of_getLsbD_eq
    intro i hi
    simp only [BitVec.getLsbD_extractLsb', bits_wordM, hi, decide_true, Bool.true_and]
    rw [if_neg (by omega), if_pos (by omega)]
    congr 1
    omega

@[simp] theorem aluField_wordR (fn : BitVec 5) (o : OpR) : (wordR fn o).extractLsb' 0 5 = fn := by
  apply BitVec.eq_of_getLsbD_eq
  intro i hi
  simp only [BitVec.getLsbD_extractLsb', bits_wordR, hi, decide_true, Bool.true_and]
  rw [if_pos (by omega)]
  congr 1
  omega

@[simp] theorem storeField_wordT (k : BitVec 2) (o : OpT) : (wordT k o).extractLsb' 12 2 = k := by
  apply BitVec.eq_of_getLsbD_eq
  intro i hi
  simp only [BitVec.getLsbD_extractLsb', bits_wordT, hi, decide_true, Bool.true_and]
  rw [if_neg (by omega), if_pos (by omega)]
  congr 1
  omega

@[simp] theorem sysField_wordS (k : BitVec 4) (o : OpS) : (wordS k o).extractLsb' 0 4 = k := by
  apply BitVec.eq_of_getLsbD_eq
  intro i hi
  simp only [BitVec.getLsbD_extractLsb', bits_wordS, hi, decide_true, Bool.true_and]
  rw [if_pos (by omega)]
  congr 1
  omega

theorem releaseBit_wordL (op : BitVec 6) (k : BitVec 1) (o : OpL) : (wordL op k o).getLsbD 5 = k.getLsbD 0 := by
  rw [bits_wordL]
  rfl

theorem pollBit_wordM (k : BitVec 1) (o : OpM) : (wordM k o).getLsbD 0 = k.getLsbD 0 := by
  rw [bits_wordM]
  rfl

theorem bits_brk (r : BitVec 26) (j : Nat) :
    (0x3E#6 ++ r : Word).getLsbD j = if j < 26 then r.getLsbD j else (0x3E#6 : BitVec 6).getLsbD (j - 26) := getLsbD_6_26 _ _ _

@[simp] theorem opField_brk (r : BitVec 26) : opField (0x3E#6 ++ r : Word) = 0x3E#6 := by
  apply BitVec.eq_of_getLsbD_eq
  intro i hi
  simp only [opField, BitVec.getLsbD_extractLsb', bits_brk, hi, decide_true, Bool.true_and]
  rw [if_neg (by omega)]
  congr 1
  omega

@[simp] theorem rest_brk (r : BitVec 26) : (0x3E#6 ++ r : Word).extractLsb' 0 26 = r := by
  apply BitVec.eq_of_getLsbD_eq
  intro i hi
  simp only [BitVec.getLsbD_extractLsb', bits_brk, hi, decide_true, Bool.true_and]
  rw [if_pos (by omega)]
  congr 1
  omega

end Sys2Proof
end

