-- ==== Sys2Proof/Laws/State.lean ====
section
/-! SUPPORT. The fields of the state after each named update: the one the update names, and every other one unchanged. -/

namespace Sys2Proof.Machine
open Sys2Proof

/-! ### State.modCtx -/

@[simp] theorem State.modCtx_pending (s : State) (i : Nat) (f : Ctx → Ctx) : (s.modCtx i f).pending = s.pending := rfl
@[simp] theorem State.modCtx_chan (s : State) (i : Nat) (f : Ctx → Ctx) : (s.modCtx i f).chan = s.chan := rfl
@[simp] theorem State.modCtx_aon (s : State) (i : Nat) (f : Ctx → Ctx) : (s.modCtx i f).aon = s.aon := rfl
@[simp] theorem State.modCtx_md (s : State) (i : Nat) (f : Ctx → Ctx) : (s.modCtx i f).md = s.md := rfl
@[simp] theorem State.modCtx_power (s : State) (i : Nat) (f : Ctx → Ctx) : (s.modCtx i f).power = s.power := rfl
@[simp] theorem State.modCtx_meter (s : State) (i : Nat) (f : Ctx → Ctx) : (s.modCtx i f).meter = s.meter := rfl
@[simp] theorem State.modCtx_clk (s : State) (i : Nat) (f : Ctx → Ctx) : (s.modCtx i f).clk = s.clk := rfl
@[simp] theorem State.modCtx_frame (s : State) (i : Nat) (f : Ctx → Ctx) : (s.modCtx i f).frame = s.frame := rfl
@[simp] theorem State.modCtx_fe (s : State) (i : Nat) (f : Ctx → Ctx) : (s.modCtx i f).fe = s.fe := rfl
@[simp] theorem State.modCtx_fc (s : State) (i : Nat) (f : Ctx → Ctx) : (s.modCtx i f).fc = s.fc := rfl
@[simp] theorem State.modCtx_census (s : State) (i : Nat) (f : Ctx → Ctx) : (s.modCtx i f).census = s.census := rfl
@[simp] theorem State.modCtx_chg (s : State) (i : Nat) (f : Ctx → Ctx) : (s.modCtx i f).chg = s.chg := rfl
@[simp] theorem State.modCtx_planes (s : State) (i : Nat) (f : Ctx → Ctx) : (s.modCtx i f).planes = s.planes := rfl
@[simp] theorem State.modCtx_clamp (s : State) (i : Nat) (f : Ctx → Ctx) : (s.modCtx i f).clamp = s.clamp := rfl
@[simp] theorem State.modCtx_bridges (s : State) (i : Nat) (f : Ctx → Ctx) : (s.modCtx i f).bridges = s.bridges := rfl
@[simp] theorem State.modCtx_therm (s : State) (i : Nat) (f : Ctx → Ctx) : (s.modCtx i f).therm = s.therm := rfl
@[simp] theorem State.modCtx_pipe (s : State) (i : Nat) (f : Ctx → Ctx) : (s.modCtx i f).pipe = s.pipe := rfl
@[simp] theorem State.modCtx_cal (s : State) (i : Nat) (f : Ctx → Ctx) : (s.modCtx i f).cal = s.cal := rfl
@[simp] theorem State.modCtx_ctxs (s : State) (i : Nat) (f : Ctx → Ctx) : (s.modCtx i f).ctxs = modAt f i s.ctxs := rfl
@[simp] theorem State.modCtx_runs (s : State) (i : Nat) (f : Ctx → Ctx) : (s.modCtx i f).runs = s.runs := rfl
@[simp] theorem State.modCtx_eng (s : State) (i : Nat) (f : Ctx → Ctx) : (s.modCtx i f).eng = s.eng := rfl
@[simp] theorem State.modCtx_otp (s : State) (i : Nat) (f : Ctx → Ctx) : (s.modCtx i f).otp = s.otp := rfl
@[simp] theorem State.modCtx_tw (s : State) (i : Nat) (f : Ctx → Ctx) : (s.modCtx i f).tw = s.tw := rfl
@[simp] theorem State.modCtx_hs (s : State) (i : Nat) (f : Ctx → Ctx) : (s.modCtx i f).hs = s.hs := rfl
@[simp] theorem State.modCtx_mem (s : State) (i : Nat) (f : Ctx → Ctx) : (s.modCtx i f).mem = s.mem := rfl
@[simp] theorem State.modCtx_span (s : State) (i : Nat) (f : Ctx → Ctx) : (s.modCtx i f).span = s.span := rfl
@[simp] theorem State.modCtx_spanx (s : State) (i : Nat) (f : Ctx → Ctx) : (s.modCtx i f).spanx = s.spanx := rfl
@[simp] theorem State.modCtx_thermal (s : State) (i : Nat) (f : Ctx → Ctx) : (s.modCtx i f).thermal = s.thermal := rfl
@[simp] theorem State.modCtx_shdn (s : State) (i : Nat) (f : Ctx → Ctx) : (s.modCtx i f).shdn = s.shdn := rfl
@[simp] theorem State.modCtx_jrn (s : State) (i : Nat) (f : Ctx → Ctx) : (s.modCtx i f).jrn = s.jrn := rfl
@[simp] theorem State.modCtx_wc (s : State) (i : Nat) (f : Ctx → Ctx) : (s.modCtx i f).wc = s.wc := rfl
@[simp] theorem State.modCtx_led (s : State) (i : Nat) (f : Ctx → Ctx) : (s.modCtx i f).led = s.led := rfl
@[simp] theorem State.modCtx_pins (s : State) (i : Nat) (f : Ctx → Ctx) : (s.modCtx i f).pins = s.pins := rfl
@[simp] theorem State.modCtx_rst (s : State) (i : Nat) (f : Ctx → Ctx) : (s.modCtx i f).rst = s.rst := rfl
@[simp] theorem State.modCtx_freeCtr (s : State) (i : Nat) (f : Ctx → Ctx) : (s.modCtx i f).freeCtr = s.freeCtr := rfl

/-! ### State.modRun -/

@[simp] theorem State.modRun_pending (s : State) (i : Nat) (f : CtxRun → CtxRun) :
    (s.modRun i f).pending = s.pending := rfl
@[simp] theorem State.modRun_chan (s : State) (i : Nat) (f : CtxRun → CtxRun) : (s.modRun i f).chan = s.chan := rfl
@[simp] theorem State.modRun_aon (s : State) (i : Nat) (f : CtxRun → CtxRun) : (s.modRun i f).aon = s.aon := rfl
@[simp] theorem State.modRun_md (s : State) (i : Nat) (f : CtxRun → CtxRun) : (s.modRun i f).md = s.md := rfl
@[simp] theorem State.modRun_power (s : State) (i : Nat) (f : CtxRun → CtxRun) : (s.modRun i f).power = s.power := rfl
@[simp] theorem State.modRun_meter (s : State) (i : Nat) (f : CtxRun → CtxRun) : (s.modRun i f).meter = s.meter := rfl
@[simp] theorem State.modRun_clk (s : State) (i : Nat) (f : CtxRun → CtxRun) : (s.modRun i f).clk = s.clk := rfl
@[simp] theorem State.modRun_frame (s : State) (i : Nat) (f : CtxRun → CtxRun) : (s.modRun i f).frame = s.frame := rfl
@[simp] theorem State.modRun_fe (s : State) (i : Nat) (f : CtxRun → CtxRun) : (s.modRun i f).fe = s.fe := rfl
@[simp] theorem State.modRun_fc (s : State) (i : Nat) (f : CtxRun → CtxRun) : (s.modRun i f).fc = s.fc := rfl
@[simp] theorem State.modRun_census (s : State) (i : Nat) (f : CtxRun → CtxRun) :
    (s.modRun i f).census = s.census := rfl
@[simp] theorem State.modRun_chg (s : State) (i : Nat) (f : CtxRun → CtxRun) : (s.modRun i f).chg = s.chg := rfl
@[simp] theorem State.modRun_planes (s : State) (i : Nat) (f : CtxRun → CtxRun) :
    (s.modRun i f).planes = s.planes := rfl
@[simp] theorem State.modRun_clamp (s : State) (i : Nat) (f : CtxRun → CtxRun) : (s.modRun i f).clamp = s.clamp := rfl
@[simp] theorem State.modRun_bridges (s : State) (i : Nat) (f : CtxRun → CtxRun) :
    (s.modRun i f).bridges = s.bridges := rfl
@[simp] theorem State.modRun_therm (s : State) (i : Nat) (f : CtxRun → CtxRun) : (s.modRun i f).therm = s.therm := rfl
@[simp] theorem State.modRun_pipe (s : State) (i : Nat) (f : CtxRun → CtxRun) : (s.modRun i f).pipe = s.pipe := rfl
@[simp] theorem State.modRun_cal (s : State) (i : Nat) (f : CtxRun → CtxRun) : (s.modRun i f).cal = s.cal := rfl
@[simp] theorem State.modRun_ctxs (s : State) (i : Nat) (f : CtxRun → CtxRun) : (s.modRun i f).ctxs = s.ctxs := rfl
@[simp] theorem State.modRun_runs (s : State) (i : Nat) (f : CtxRun → CtxRun) :
    (s.modRun i f).runs = modAt f i s.runs := rfl
@[simp] theorem State.modRun_eng (s : State) (i : Nat) (f : CtxRun → CtxRun) : (s.modRun i f).eng = s.eng := rfl
@[simp] theorem State.modRun_otp (s : State) (i : Nat) (f : CtxRun → CtxRun) : (s.modRun i f).otp = s.otp := rfl
@[simp] theorem State.modRun_tw (s : State) (i : Nat) (f : CtxRun → CtxRun) : (s.modRun i f).tw = s.tw := rfl
@[simp] theorem State.modRun_hs (s : State) (i : Nat) (f : CtxRun → CtxRun) : (s.modRun i f).hs = s.hs := rfl
@[simp] theorem State.modRun_mem (s : State) (i : Nat) (f : CtxRun → CtxRun) : (s.modRun i f).mem = s.mem := rfl
@[simp] theorem State.modRun_span (s : State) (i : Nat) (f : CtxRun → CtxRun) : (s.modRun i f).span = s.span := rfl
@[simp] theorem State.modRun_spanx (s : State) (i : Nat) (f : CtxRun → CtxRun) : (s.modRun i f).spanx = s.spanx := rfl
@[simp] theorem State.modRun_thermal (s : State) (i : Nat) (f : CtxRun → CtxRun) :
    (s.modRun i f).thermal = s.thermal := rfl
@[simp] theorem State.modRun_shdn (s : State) (i : Nat) (f : CtxRun → CtxRun) : (s.modRun i f).shdn = s.shdn := rfl
@[simp] theorem State.modRun_jrn (s : State) (i : Nat) (f : CtxRun → CtxRun) : (s.modRun i f).jrn = s.jrn := rfl
@[simp] theorem State.modRun_wc (s : State) (i : Nat) (f : CtxRun → CtxRun) : (s.modRun i f).wc = s.wc := rfl
@[simp] theorem State.modRun_led (s : State) (i : Nat) (f : CtxRun → CtxRun) : (s.modRun i f).led = s.led := rfl
@[simp] theorem State.modRun_pins (s : State) (i : Nat) (f : CtxRun → CtxRun) : (s.modRun i f).pins = s.pins := rfl
@[simp] theorem State.modRun_rst (s : State) (i : Nat) (f : CtxRun → CtxRun) : (s.modRun i f).rst = s.rst := rfl
@[simp] theorem State.modRun_freeCtr (s : State) (i : Nat) (f : CtxRun → CtxRun) :
    (s.modRun i f).freeCtr = s.freeCtr := rfl

/-! ### State.modBridge -/

@[simp] theorem State.modBridge_pending (s : State) (n : Nat) (f : Bridge → Bridge) :
    (s.modBridge n f).pending = s.pending := rfl
@[simp] theorem State.modBridge_chan (s : State) (n : Nat) (f : Bridge → Bridge) :
    (s.modBridge n f).chan = s.chan := rfl
@[simp] theorem State.modBridge_aon (s : State) (n : Nat) (f : Bridge → Bridge) : (s.modBridge n f).aon = s.aon := rfl
@[simp] theorem State.modBridge_md (s : State) (n : Nat) (f : Bridge → Bridge) : (s.modBridge n f).md = s.md := rfl
@[simp] theorem State.modBridge_power (s : State) (n : Nat) (f : Bridge → Bridge) :
    (s.modBridge n f).power = s.power := rfl
@[simp] theorem State.modBridge_meter (s : State) (n : Nat) (f : Bridge → Bridge) :
    (s.modBridge n f).meter = s.meter := rfl
@[simp] theorem State.modBridge_clk (s : State) (n : Nat) (f : Bridge → Bridge) : (s.modBridge n f).clk = s.clk := rfl
@[simp] theorem State.modBridge_frame (s : State) (n : Nat) (f : Bridge → Bridge) :
    (s.modBridge n f).frame = s.frame := rfl
@[simp] theorem State.modBridge_fe (s : State) (n : Nat) (f : Bridge → Bridge) : (s.modBridge n f).fe = s.fe := rfl
@[simp] theorem State.modBridge_fc (s : State) (n : Nat) (f : Bridge → Bridge) : (s.modBridge n f).fc = s.fc := rfl
@[simp] theorem State.modBridge_census (s : State) (n : Nat) (f : Bridge → Bridge) :
    (s.modBridge n f).census = s.census := rfl
@[simp] theorem State.modBridge_chg (s : State) (n : Nat) (f : Bridge → Bridge) : (s.modBridge n f).chg = s.chg := rfl
@[simp] theorem State.modBridge_planes (s : State) (n : Nat) (f : Bridge → Bridge) :
    (s.modBridge n f).planes = s.planes := rfl
@[simp] theorem State.modBridge_clamp (s : State) (n : Nat) (f : Bridge → Bridge) :
    (s.modBridge n f).clamp = s.clamp := rfl
@[simp] theorem State.modBridge_bridges (s : State) (n : Nat) (f : Bridge → Bridge) :
    (s.modBridge n f).bridges = modAt f n s.bridges := rfl
@[simp] theorem State.modBridge_therm (s : State) (n : Nat) (f : Bridge → Bridge) :
    (s.modBridge n f).therm = s.therm := rfl
@[simp] theorem State.modBridge_pipe (s : State) (n : Nat) (f : Bridge → Bridge) :
    (s.modBridge n f).pipe = s.pipe := rfl
@[simp] theorem State.modBridge_cal (s : State) (n : Nat) (f : Bridge → Bridge) : (s.modBridge n f).cal = s.cal := rfl
@[simp] theorem State.modBridge_ctxs (s : State) (n : Nat) (f : Bridge → Bridge) :
    (s.modBridge n f).ctxs = s.ctxs := rfl
@[simp] theorem State.modBridge_runs (s : State) (n : Nat) (f : Bridge → Bridge) :
    (s.modBridge n f).runs = s.runs := rfl
@[simp] theorem State.modBridge_eng (s : State) (n : Nat) (f : Bridge → Bridge) : (s.modBridge n f).eng = s.eng := rfl
@[simp] theorem State.modBridge_otp (s : State) (n : Nat) (f : Bridge → Bridge) : (s.modBridge n f).otp = s.otp := rfl
@[simp] theorem State.modBridge_tw (s : State) (n : Nat) (f : Bridge → Bridge) : (s.modBridge n f).tw = s.tw := rfl
@[simp] theorem State.modBridge_hs (s : State) (n : Nat) (f : Bridge → Bridge) : (s.modBridge n f).hs = s.hs := rfl
@[simp] theorem State.modBridge_mem (s : State) (n : Nat) (f : Bridge → Bridge) : (s.modBridge n f).mem = s.mem := rfl
@[simp] theorem State.modBridge_span (s : State) (n : Nat) (f : Bridge → Bridge) :
    (s.modBridge n f).span = s.span := rfl
@[simp] theorem State.modBridge_spanx (s : State) (n : Nat) (f : Bridge → Bridge) :
    (s.modBridge n f).spanx = s.spanx := rfl
@[simp] theorem State.modBridge_thermal (s : State) (n : Nat) (f : Bridge → Bridge) :
    (s.modBridge n f).thermal = s.thermal := rfl
@[simp] theorem State.modBridge_shdn (s : State) (n : Nat) (f : Bridge → Bridge) :
    (s.modBridge n f).shdn = s.shdn := rfl
@[simp] theorem State.modBridge_jrn (s : State) (n : Nat) (f : Bridge → Bridge) : (s.modBridge n f).jrn = s.jrn := rfl
@[simp] theorem State.modBridge_wc (s : State) (n : Nat) (f : Bridge → Bridge) : (s.modBridge n f).wc = s.wc := rfl
@[simp] theorem State.modBridge_led (s : State) (n : Nat) (f : Bridge → Bridge) : (s.modBridge n f).led = s.led := rfl
@[simp] theorem State.modBridge_pins (s : State) (n : Nat) (f : Bridge → Bridge) :
    (s.modBridge n f).pins = s.pins := rfl
@[simp] theorem State.modBridge_rst (s : State) (n : Nat) (f : Bridge → Bridge) : (s.modBridge n f).rst = s.rst := rfl
@[simp] theorem State.modBridge_freeCtr (s : State) (n : Nat) (f : Bridge → Bridge) :
    (s.modBridge n f).freeCtr = s.freeCtr := rfl

/-! ### State.modFan -/

@[simp] theorem State.modFan_pending (s : State) (n : Nat) (f : Fan → Fan) : (s.modFan n f).pending = s.pending := rfl
@[simp] theorem State.modFan_chan (s : State) (n : Nat) (f : Fan → Fan) : (s.modFan n f).chan = s.chan := rfl
@[simp] theorem State.modFan_aon (s : State) (n : Nat) (f : Fan → Fan) : (s.modFan n f).aon = s.aon := rfl
@[simp] theorem State.modFan_md (s : State) (n : Nat) (f : Fan → Fan) : (s.modFan n f).md = s.md := rfl
@[simp] theorem State.modFan_power (s : State) (n : Nat) (f : Fan → Fan) : (s.modFan n f).power = s.power := rfl
@[simp] theorem State.modFan_meter (s : State) (n : Nat) (f : Fan → Fan) : (s.modFan n f).meter = s.meter := rfl
@[simp] theorem State.modFan_clk (s : State) (n : Nat) (f : Fan → Fan) : (s.modFan n f).clk = s.clk := rfl
@[simp] theorem State.modFan_frame (s : State) (n : Nat) (f : Fan → Fan) : (s.modFan n f).frame = s.frame := rfl
@[simp] theorem State.modFan_fe (s : State) (n : Nat) (f : Fan → Fan) : (s.modFan n f).fe = s.fe := rfl
@[simp] theorem State.modFan_fc (s : State) (n : Nat) (f : Fan → Fan) : (s.modFan n f).fc = s.fc := rfl
@[simp] theorem State.modFan_census (s : State) (n : Nat) (f : Fan → Fan) : (s.modFan n f).census = s.census := rfl
@[simp] theorem State.modFan_chg (s : State) (n : Nat) (f : Fan → Fan) : (s.modFan n f).chg = s.chg := rfl
@[simp] theorem State.modFan_planes (s : State) (n : Nat) (f : Fan → Fan) : (s.modFan n f).planes = s.planes := rfl
@[simp] theorem State.modFan_clamp (s : State) (n : Nat) (f : Fan → Fan) : (s.modFan n f).clamp = s.clamp := rfl
@[simp] theorem State.modFan_bridges (s : State) (n : Nat) (f : Fan → Fan) : (s.modFan n f).bridges = s.bridges := rfl
@[simp] theorem State.modFan_therm (s : State) (n : Nat) (f : Fan → Fan) : (s.modFan n f).therm = s.therm := rfl
@[simp] theorem State.modFan_pipe (s : State) (n : Nat) (f : Fan → Fan) : (s.modFan n f).pipe = s.pipe := rfl
@[simp] theorem State.modFan_cal (s : State) (n : Nat) (f : Fan → Fan) : (s.modFan n f).cal = s.cal := rfl
@[simp] theorem State.modFan_ctxs (s : State) (n : Nat) (f : Fan → Fan) : (s.modFan n f).ctxs = s.ctxs := rfl
@[simp] theorem State.modFan_runs (s : State) (n : Nat) (f : Fan → Fan) : (s.modFan n f).runs = s.runs := rfl
@[simp] theorem State.modFan_eng (s : State) (n : Nat) (f : Fan → Fan) : (s.modFan n f).eng = s.eng := rfl
@[simp] theorem State.modFan_otp (s : State) (n : Nat) (f : Fan → Fan) : (s.modFan n f).otp = s.otp := rfl
@[simp] theorem State.modFan_tw (s : State) (n : Nat) (f : Fan → Fan) : (s.modFan n f).tw = s.tw := rfl
@[simp] theorem State.modFan_hs (s : State) (n : Nat) (f : Fan → Fan) : (s.modFan n f).hs = s.hs := rfl
@[simp] theorem State.modFan_mem (s : State) (n : Nat) (f : Fan → Fan) : (s.modFan n f).mem = s.mem := rfl
@[simp] theorem State.modFan_span (s : State) (n : Nat) (f : Fan → Fan) : (s.modFan n f).span = s.span := rfl
@[simp] theorem State.modFan_spanx (s : State) (n : Nat) (f : Fan → Fan) : (s.modFan n f).spanx = s.spanx := rfl
@[simp] theorem State.modFan_thermal (s : State) (n : Nat) (f : Fan → Fan) :
    (s.modFan n f).thermal = { s.thermal with fans := modAt f n s.thermal.fans } := rfl
@[simp] theorem State.modFan_shdn (s : State) (n : Nat) (f : Fan → Fan) : (s.modFan n f).shdn = s.shdn := rfl
@[simp] theorem State.modFan_jrn (s : State) (n : Nat) (f : Fan → Fan) : (s.modFan n f).jrn = s.jrn := rfl
@[simp] theorem State.modFan_wc (s : State) (n : Nat) (f : Fan → Fan) : (s.modFan n f).wc = s.wc := rfl
@[simp] theorem State.modFan_led (s : State) (n : Nat) (f : Fan → Fan) : (s.modFan n f).led = s.led := rfl
@[simp] theorem State.modFan_pins (s : State) (n : Nat) (f : Fan → Fan) : (s.modFan n f).pins = s.pins := rfl
@[simp] theorem State.modFan_rst (s : State) (n : Nat) (f : Fan → Fan) : (s.modFan n f).rst = s.rst := rfl
@[simp] theorem State.modFan_freeCtr (s : State) (n : Nat) (f : Fan → Fan) : (s.modFan n f).freeCtr = s.freeCtr := rfl

/-! ### State.modBl -/

@[simp] theorem State.modBl_pending (s : State) (n : Nat) (f : Bl → Bl) : (s.modBl n f).pending = s.pending := rfl
@[simp] theorem State.modBl_chan (s : State) (n : Nat) (f : Bl → Bl) : (s.modBl n f).chan = s.chan := rfl
@[simp] theorem State.modBl_aon (s : State) (n : Nat) (f : Bl → Bl) : (s.modBl n f).aon = s.aon := rfl
@[simp] theorem State.modBl_md (s : State) (n : Nat) (f : Bl → Bl) : (s.modBl n f).md = s.md := rfl
@[simp] theorem State.modBl_power (s : State) (n : Nat) (f : Bl → Bl) : (s.modBl n f).power = s.power := rfl
@[simp] theorem State.modBl_meter (s : State) (n : Nat) (f : Bl → Bl) : (s.modBl n f).meter = s.meter := rfl
@[simp] theorem State.modBl_clk (s : State) (n : Nat) (f : Bl → Bl) : (s.modBl n f).clk = s.clk := rfl
@[simp] theorem State.modBl_frame (s : State) (n : Nat) (f : Bl → Bl) : (s.modBl n f).frame = s.frame := rfl
@[simp] theorem State.modBl_fe (s : State) (n : Nat) (f : Bl → Bl) : (s.modBl n f).fe = s.fe := rfl
@[simp] theorem State.modBl_fc (s : State) (n : Nat) (f : Bl → Bl) : (s.modBl n f).fc = s.fc := rfl
@[simp] theorem State.modBl_census (s : State) (n : Nat) (f : Bl → Bl) : (s.modBl n f).census = s.census := rfl
@[simp] theorem State.modBl_chg (s : State) (n : Nat) (f : Bl → Bl) : (s.modBl n f).chg = s.chg := rfl
@[simp] theorem State.modBl_planes (s : State) (n : Nat) (f : Bl → Bl) : (s.modBl n f).planes = s.planes := rfl
@[simp] theorem State.modBl_clamp (s : State) (n : Nat) (f : Bl → Bl) : (s.modBl n f).clamp = s.clamp := rfl
@[simp] theorem State.modBl_bridges (s : State) (n : Nat) (f : Bl → Bl) : (s.modBl n f).bridges = s.bridges := rfl
@[simp] theorem State.modBl_therm (s : State) (n : Nat) (f : Bl → Bl) : (s.modBl n f).therm = s.therm := rfl
@[simp] theorem State.modBl_pipe (s : State) (n : Nat) (f : Bl → Bl) : (s.modBl n f).pipe = s.pipe := rfl
@[simp] theorem State.modBl_cal (s : State) (n : Nat) (f : Bl → Bl) : (s.modBl n f).cal = s.cal := rfl
@[simp] theorem State.modBl_ctxs (s : State) (n : Nat) (f : Bl → Bl) : (s.modBl n f).ctxs = s.ctxs := rfl
@[simp] theorem State.modBl_runs (s : State) (n : Nat) (f : Bl → Bl) : (s.modBl n f).runs = s.runs := rfl
@[simp] theorem State.modBl_eng (s : State) (n : Nat) (f : Bl → Bl) : (s.modBl n f).eng = s.eng := rfl
@[simp] theorem State.modBl_otp (s : State) (n : Nat) (f : Bl → Bl) : (s.modBl n f).otp = s.otp := rfl
@[simp] theorem State.modBl_tw (s : State) (n : Nat) (f : Bl → Bl) : (s.modBl n f).tw = s.tw := rfl
@[simp] theorem State.modBl_hs (s : State) (n : Nat) (f : Bl → Bl) : (s.modBl n f).hs = s.hs := rfl
@[simp] theorem State.modBl_mem (s : State) (n : Nat) (f : Bl → Bl) : (s.modBl n f).mem = s.mem := rfl
@[simp] theorem State.modBl_span (s : State) (n : Nat) (f : Bl → Bl) : (s.modBl n f).span = s.span := rfl
@[simp] theorem State.modBl_spanx (s : State) (n : Nat) (f : Bl → Bl) : (s.modBl n f).spanx = s.spanx := rfl
@[simp] theorem State.modBl_thermal (s : State) (n : Nat) (f : Bl → Bl) :
    (s.modBl n f).thermal = { s.thermal with bls := modAt f n s.thermal.bls } := rfl
@[simp] theorem State.modBl_shdn (s : State) (n : Nat) (f : Bl → Bl) : (s.modBl n f).shdn = s.shdn := rfl
@[simp] theorem State.modBl_jrn (s : State) (n : Nat) (f : Bl → Bl) : (s.modBl n f).jrn = s.jrn := rfl
@[simp] theorem State.modBl_wc (s : State) (n : Nat) (f : Bl → Bl) : (s.modBl n f).wc = s.wc := rfl
@[simp] theorem State.modBl_led (s : State) (n : Nat) (f : Bl → Bl) : (s.modBl n f).led = s.led := rfl
@[simp] theorem State.modBl_pins (s : State) (n : Nat) (f : Bl → Bl) : (s.modBl n f).pins = s.pins := rfl
@[simp] theorem State.modBl_rst (s : State) (n : Nat) (f : Bl → Bl) : (s.modBl n f).rst = s.rst := rfl
@[simp] theorem State.modBl_freeCtr (s : State) (n : Nat) (f : Bl → Bl) : (s.modBl n f).freeCtr = s.freeCtr := rfl

/-! ### State.modThm -/

@[simp] theorem State.modThm_pending (s : State) (i : Nat) (f : Thm → Thm) : (s.modThm i f).pending = s.pending := rfl
@[simp] theorem State.modThm_chan (s : State) (i : Nat) (f : Thm → Thm) : (s.modThm i f).chan = s.chan := rfl
@[simp] theorem State.modThm_aon (s : State) (i : Nat) (f : Thm → Thm) : (s.modThm i f).aon = s.aon := rfl
@[simp] theorem State.modThm_md (s : State) (i : Nat) (f : Thm → Thm) : (s.modThm i f).md = s.md := rfl
@[simp] theorem State.modThm_power (s : State) (i : Nat) (f : Thm → Thm) : (s.modThm i f).power = s.power := rfl
@[simp] theorem State.modThm_meter (s : State) (i : Nat) (f : Thm → Thm) : (s.modThm i f).meter = s.meter := rfl
@[simp] theorem State.modThm_clk (s : State) (i : Nat) (f : Thm → Thm) : (s.modThm i f).clk = s.clk := rfl
@[simp] theorem State.modThm_frame (s : State) (i : Nat) (f : Thm → Thm) : (s.modThm i f).frame = s.frame := rfl
@[simp] theorem State.modThm_fe (s : State) (i : Nat) (f : Thm → Thm) : (s.modThm i f).fe = s.fe := rfl
@[simp] theorem State.modThm_fc (s : State) (i : Nat) (f : Thm → Thm) : (s.modThm i f).fc = s.fc := rfl
@[simp] theorem State.modThm_census (s : State) (i : Nat) (f : Thm → Thm) : (s.modThm i f).census = s.census := rfl
@[simp] theorem State.modThm_chg (s : State) (i : Nat) (f : Thm → Thm) : (s.modThm i f).chg = s.chg := rfl
@[simp] theorem State.modThm_planes (s : State) (i : Nat) (f : Thm → Thm) : (s.modThm i f).planes = s.planes := rfl
@[simp] theorem State.modThm_clamp (s : State) (i : Nat) (f : Thm → Thm) : (s.modThm i f).clamp = s.clamp := rfl
@[simp] theorem State.modThm_bridges (s : State) (i : Nat) (f : Thm → Thm) : (s.modThm i f).bridges = s.bridges := rfl
@[simp] theorem State.modThm_therm (s : State) (i : Nat) (f : Thm → Thm) :
    (s.modThm i f).therm = { s.therm with inputs := modAt f i s.therm.inputs } := rfl
@[simp] theorem State.modThm_pipe (s : State) (i : Nat) (f : Thm → Thm) : (s.modThm i f).pipe = s.pipe := rfl
@[simp] theorem State.modThm_cal (s : State) (i : Nat) (f : Thm → Thm) : (s.modThm i f).cal = s.cal := rfl
@[simp] theorem State.modThm_ctxs (s : State) (i : Nat) (f : Thm → Thm) : (s.modThm i f).ctxs = s.ctxs := rfl
@[simp] theorem State.modThm_runs (s : State) (i : Nat) (f : Thm → Thm) : (s.modThm i f).runs = s.runs := rfl
@[simp] theorem State.modThm_eng (s : State) (i : Nat) (f : Thm → Thm) : (s.modThm i f).eng = s.eng := rfl
@[simp] theorem State.modThm_otp (s : State) (i : Nat) (f : Thm → Thm) : (s.modThm i f).otp = s.otp := rfl
@[simp] theorem State.modThm_tw (s : State) (i : Nat) (f : Thm → Thm) : (s.modThm i f).tw = s.tw := rfl
@[simp] theorem State.modThm_hs (s : State) (i : Nat) (f : Thm → Thm) : (s.modThm i f).hs = s.hs := rfl
@[simp] theorem State.modThm_mem (s : State) (i : Nat) (f : Thm → Thm) : (s.modThm i f).mem = s.mem := rfl
@[simp] theorem State.modThm_span (s : State) (i : Nat) (f : Thm → Thm) : (s.modThm i f).span = s.span := rfl
@[simp] theorem State.modThm_spanx (s : State) (i : Nat) (f : Thm → Thm) : (s.modThm i f).spanx = s.spanx := rfl
@[simp] theorem State.modThm_thermal (s : State) (i : Nat) (f : Thm → Thm) : (s.modThm i f).thermal = s.thermal := rfl
@[simp] theorem State.modThm_shdn (s : State) (i : Nat) (f : Thm → Thm) : (s.modThm i f).shdn = s.shdn := rfl
@[simp] theorem State.modThm_jrn (s : State) (i : Nat) (f : Thm → Thm) : (s.modThm i f).jrn = s.jrn := rfl
@[simp] theorem State.modThm_wc (s : State) (i : Nat) (f : Thm → Thm) : (s.modThm i f).wc = s.wc := rfl
@[simp] theorem State.modThm_led (s : State) (i : Nat) (f : Thm → Thm) : (s.modThm i f).led = s.led := rfl
@[simp] theorem State.modThm_pins (s : State) (i : Nat) (f : Thm → Thm) : (s.modThm i f).pins = s.pins := rfl
@[simp] theorem State.modThm_rst (s : State) (i : Nat) (f : Thm → Thm) : (s.modThm i f).rst = s.rst := rfl
@[simp] theorem State.modThm_freeCtr (s : State) (i : Nat) (f : Thm → Thm) : (s.modThm i f).freeCtr = s.freeCtr := rfl

/-! ### setReg -/

@[simp] theorem setReg_pending (i : Nat) (r : Reg) (v : Word) (s : State) : (setReg i r v s).pending = s.pending := rfl
@[simp] theorem setReg_chan (i : Nat) (r : Reg) (v : Word) (s : State) : (setReg i r v s).chan = s.chan := rfl
@[simp] theorem setReg_aon (i : Nat) (r : Reg) (v : Word) (s : State) : (setReg i r v s).aon = s.aon := rfl
@[simp] theorem setReg_md (i : Nat) (r : Reg) (v : Word) (s : State) : (setReg i r v s).md = s.md := rfl
@[simp] theorem setReg_power (i : Nat) (r : Reg) (v : Word) (s : State) : (setReg i r v s).power = s.power := rfl
@[simp] theorem setReg_meter (i : Nat) (r : Reg) (v : Word) (s : State) : (setReg i r v s).meter = s.meter := rfl
@[simp] theorem setReg_clk (i : Nat) (r : Reg) (v : Word) (s : State) : (setReg i r v s).clk = s.clk := rfl
@[simp] theorem setReg_frame (i : Nat) (r : Reg) (v : Word) (s : State) : (setReg i r v s).frame = s.frame := rfl
@[simp] theorem setReg_fe (i : Nat) (r : Reg) (v : Word) (s : State) : (setReg i r v s).fe = s.fe := rfl
@[simp] theorem setReg_fc (i : Nat) (r : Reg) (v : Word) (s : State) : (setReg i r v s).fc = s.fc := rfl
@[simp] theorem setReg_census (i : Nat) (r : Reg) (v : Word) (s : State) : (setReg i r v s).census = s.census := rfl
@[simp] theorem setReg_chg (i : Nat) (r : Reg) (v : Word) (s : State) : (setReg i r v s).chg = s.chg := rfl
@[simp] theorem setReg_planes (i : Nat) (r : Reg) (v : Word) (s : State) : (setReg i r v s).planes = s.planes := rfl
@[simp] theorem setReg_clamp (i : Nat) (r : Reg) (v : Word) (s : State) : (setReg i r v s).clamp = s.clamp := rfl
@[simp] theorem setReg_bridges (i : Nat) (r : Reg) (v : Word) (s : State) : (setReg i r v s).bridges = s.bridges := rfl
@[simp] theorem setReg_therm (i : Nat) (r : Reg) (v : Word) (s : State) : (setReg i r v s).therm = s.therm := rfl
@[simp] theorem setReg_pipe (i : Nat) (r : Reg) (v : Word) (s : State) : (setReg i r v s).pipe = s.pipe := rfl
@[simp] theorem setReg_cal (i : Nat) (r : Reg) (v : Word) (s : State) : (setReg i r v s).cal = s.cal := rfl
@[simp] theorem setReg_ctxs (i : Nat) (r : Reg) (v : Word) (s : State) :
    (setReg i r v s).ctxs = modAt (Ctx.setReg r v) i s.ctxs := rfl
@[simp] theorem setReg_runs (i : Nat) (r : Reg) (v : Word) (s : State) : (setReg i r v s).runs = s.runs := rfl
@[simp] theorem setReg_eng (i : Nat) (r : Reg) (v : Word) (s : State) : (setReg i r v s).eng = s.eng := rfl
@[simp] theorem setReg_otp (i : Nat) (r : Reg) (v : Word) (s : State) : (setReg i r v s).otp = s.otp := rfl
@[simp] theorem setReg_tw (i : Nat) (r : Reg) (v : Word) (s : State) : (setReg i r v s).tw = s.tw := rfl
@[simp] theorem setReg_hs (i : Nat) (r : Reg) (v : Word) (s : State) : (setReg i r v s).hs = s.hs := rfl
@[simp] theorem setReg_mem (i : Nat) (r : Reg) (v : Word) (s : State) : (setReg i r v s).mem = s.mem := rfl
@[simp] theorem setReg_span (i : Nat) (r : Reg) (v : Word) (s : State) : (setReg i r v s).span = s.span := rfl
@[simp] theorem setReg_spanx (i : Nat) (r : Reg) (v : Word) (s : State) : (setReg i r v s).spanx = s.spanx := rfl
@[simp] theorem setReg_thermal (i : Nat) (r : Reg) (v : Word) (s : State) : (setReg i r v s).thermal = s.thermal := rfl
@[simp] theorem setReg_shdn (i : Nat) (r : Reg) (v : Word) (s : State) : (setReg i r v s).shdn = s.shdn := rfl
@[simp] theorem setReg_jrn (i : Nat) (r : Reg) (v : Word) (s : State) : (setReg i r v s).jrn = s.jrn := rfl
@[simp] theorem setReg_wc (i : Nat) (r : Reg) (v : Word) (s : State) : (setReg i r v s).wc = s.wc := rfl
@[simp] theorem setReg_led (i : Nat) (r : Reg) (v : Word) (s : State) : (setReg i r v s).led = s.led := rfl
@[simp] theorem setReg_pins (i : Nat) (r : Reg) (v : Word) (s : State) : (setReg i r v s).pins = s.pins := rfl
@[simp] theorem setReg_rst (i : Nat) (r : Reg) (v : Word) (s : State) : (setReg i r v s).rst = s.rst := rfl
@[simp] theorem setReg_freeCtr (i : Nat) (r : Reg) (v : Word) (s : State) : (setReg i r v s).freeCtr = s.freeCtr := rfl

/-! ### setPc -/

@[simp] theorem setPc_pending (i pc : Nat) (s : State) : (setPc i pc s).pending = s.pending := rfl
@[simp] theorem setPc_chan (i pc : Nat) (s : State) : (setPc i pc s).chan = s.chan := rfl
@[simp] theorem setPc_aon (i pc : Nat) (s : State) : (setPc i pc s).aon = s.aon := rfl
@[simp] theorem setPc_md (i pc : Nat) (s : State) : (setPc i pc s).md = s.md := rfl
@[simp] theorem setPc_power (i pc : Nat) (s : State) : (setPc i pc s).power = s.power := rfl
@[simp] theorem setPc_meter (i pc : Nat) (s : State) : (setPc i pc s).meter = s.meter := rfl
@[simp] theorem setPc_clk (i pc : Nat) (s : State) : (setPc i pc s).clk = s.clk := rfl
@[simp] theorem setPc_frame (i pc : Nat) (s : State) : (setPc i pc s).frame = s.frame := rfl
@[simp] theorem setPc_fe (i pc : Nat) (s : State) : (setPc i pc s).fe = s.fe := rfl
@[simp] theorem setPc_fc (i pc : Nat) (s : State) : (setPc i pc s).fc = s.fc := rfl
@[simp] theorem setPc_census (i pc : Nat) (s : State) : (setPc i pc s).census = s.census := rfl
@[simp] theorem setPc_chg (i pc : Nat) (s : State) : (setPc i pc s).chg = s.chg := rfl
@[simp] theorem setPc_planes (i pc : Nat) (s : State) : (setPc i pc s).planes = s.planes := rfl
@[simp] theorem setPc_clamp (i pc : Nat) (s : State) : (setPc i pc s).clamp = s.clamp := rfl
@[simp] theorem setPc_bridges (i pc : Nat) (s : State) : (setPc i pc s).bridges = s.bridges := rfl
@[simp] theorem setPc_therm (i pc : Nat) (s : State) : (setPc i pc s).therm = s.therm := rfl
@[simp] theorem setPc_pipe (i pc : Nat) (s : State) : (setPc i pc s).pipe = s.pipe := rfl
@[simp] theorem setPc_cal (i pc : Nat) (s : State) : (setPc i pc s).cal = s.cal := rfl
@[simp] theorem setPc_ctxs (i pc : Nat) (s : State) :
    (setPc i pc s).ctxs = modAt (fun c => { c with pc := pc }) i s.ctxs := rfl
@[simp] theorem setPc_runs (i pc : Nat) (s : State) : (setPc i pc s).runs = s.runs := rfl
@[simp] theorem setPc_eng (i pc : Nat) (s : State) : (setPc i pc s).eng = s.eng := rfl
@[simp] theorem setPc_otp (i pc : Nat) (s : State) : (setPc i pc s).otp = s.otp := rfl
@[simp] theorem setPc_tw (i pc : Nat) (s : State) : (setPc i pc s).tw = s.tw := rfl
@[simp] theorem setPc_hs (i pc : Nat) (s : State) : (setPc i pc s).hs = s.hs := rfl
@[simp] theorem setPc_mem (i pc : Nat) (s : State) : (setPc i pc s).mem = s.mem := rfl
@[simp] theorem setPc_span (i pc : Nat) (s : State) : (setPc i pc s).span = s.span := rfl
@[simp] theorem setPc_spanx (i pc : Nat) (s : State) : (setPc i pc s).spanx = s.spanx := rfl
@[simp] theorem setPc_thermal (i pc : Nat) (s : State) : (setPc i pc s).thermal = s.thermal := rfl
@[simp] theorem setPc_shdn (i pc : Nat) (s : State) : (setPc i pc s).shdn = s.shdn := rfl
@[simp] theorem setPc_jrn (i pc : Nat) (s : State) : (setPc i pc s).jrn = s.jrn := rfl
@[simp] theorem setPc_wc (i pc : Nat) (s : State) : (setPc i pc s).wc = s.wc := rfl
@[simp] theorem setPc_led (i pc : Nat) (s : State) : (setPc i pc s).led = s.led := rfl
@[simp] theorem setPc_pins (i pc : Nat) (s : State) : (setPc i pc s).pins = s.pins := rfl
@[simp] theorem setPc_rst (i pc : Nat) (s : State) : (setPc i pc s).rst = s.rst := rfl
@[simp] theorem setPc_freeCtr (i pc : Nat) (s : State) : (setPc i pc s).freeCtr = s.freeCtr := rfl

/-! ### setRegZN -/

@[simp] theorem setRegZN_pending (i : Nat) (r : Reg) (v : Word) (s : State) :
    (setRegZN i r v s).pending = s.pending := rfl
@[simp] theorem setRegZN_chan (i : Nat) (r : Reg) (v : Word) (s : State) : (setRegZN i r v s).chan = s.chan := rfl
@[simp] theorem setRegZN_aon (i : Nat) (r : Reg) (v : Word) (s : State) : (setRegZN i r v s).aon = s.aon := rfl
@[simp] theorem setRegZN_md (i : Nat) (r : Reg) (v : Word) (s : State) : (setRegZN i r v s).md = s.md := rfl
@[simp] theorem setRegZN_power (i : Nat) (r : Reg) (v : Word) (s : State) : (setRegZN i r v s).power = s.power := rfl
@[simp] theorem setRegZN_meter (i : Nat) (r : Reg) (v : Word) (s : State) : (setRegZN i r v s).meter = s.meter := rfl
@[simp] theorem setRegZN_clk (i : Nat) (r : Reg) (v : Word) (s : State) : (setRegZN i r v s).clk = s.clk := rfl
@[simp] theorem setRegZN_frame (i : Nat) (r : Reg) (v : Word) (s : State) : (setRegZN i r v s).frame = s.frame := rfl
@[simp] theorem setRegZN_fe (i : Nat) (r : Reg) (v : Word) (s : State) : (setRegZN i r v s).fe = s.fe := rfl
@[simp] theorem setRegZN_fc (i : Nat) (r : Reg) (v : Word) (s : State) : (setRegZN i r v s).fc = s.fc := rfl
@[simp] theorem setRegZN_census (i : Nat) (r : Reg) (v : Word) (s : State) : (setRegZN i r v s).census = s.census := rfl
@[simp] theorem setRegZN_chg (i : Nat) (r : Reg) (v : Word) (s : State) : (setRegZN i r v s).chg = s.chg := rfl
@[simp] theorem setRegZN_planes (i : Nat) (r : Reg) (v : Word) (s : State) : (setRegZN i r v s).planes = s.planes := rfl
@[simp] theorem setRegZN_clamp (i : Nat) (r : Reg) (v : Word) (s : State) : (setRegZN i r v s).clamp = s.clamp := rfl
@[simp] theorem setRegZN_bridges (i : Nat) (r : Reg) (v : Word) (s : State) :
    (setRegZN i r v s).bridges = s.bridges := rfl
@[simp] theorem setRegZN_therm (i : Nat) (r : Reg) (v : Word) (s : State) : (setRegZN i r v s).therm = s.therm := rfl
@[simp] theorem setRegZN_pipe (i : Nat) (r : Reg) (v : Word) (s : State) : (setRegZN i r v s).pipe = s.pipe := rfl
@[simp] theorem setRegZN_cal (i : Nat) (r : Reg) (v : Word) (s : State) : (setRegZN i r v s).cal = s.cal := rfl
@[simp] theorem setRegZN_ctxs (i : Nat) (r : Reg) (v : Word) (s : State) :
    (setRegZN i r v s).ctxs = modAt (fun c => (c.setReg r v).setFlags (aluZN v)) i s.ctxs := rfl
@[simp] theorem setRegZN_runs (i : Nat) (r : Reg) (v : Word) (s : State) : (setRegZN i r v s).runs = s.runs := rfl
@[simp] theorem setRegZN_eng (i : Nat) (r : Reg) (v : Word) (s : State) : (setRegZN i r v s).eng = s.eng := rfl
@[simp] theorem setRegZN_otp (i : Nat) (r : Reg) (v : Word) (s : State) : (setRegZN i r v s).otp = s.otp := rfl
@[simp] theorem setRegZN_tw (i : Nat) (r : Reg) (v : Word) (s : State) : (setRegZN i r v s).tw = s.tw := rfl
@[simp] theorem setRegZN_hs (i : Nat) (r : Reg) (v : Word) (s : State) : (setRegZN i r v s).hs = s.hs := rfl
@[simp] theorem setRegZN_mem (i : Nat) (r : Reg) (v : Word) (s : State) : (setRegZN i r v s).mem = s.mem := rfl
@[simp] theorem setRegZN_span (i : Nat) (r : Reg) (v : Word) (s : State) : (setRegZN i r v s).span = s.span := rfl
@[simp] theorem setRegZN_spanx (i : Nat) (r : Reg) (v : Word) (s : State) : (setRegZN i r v s).spanx = s.spanx := rfl
@[simp] theorem setRegZN_thermal (i : Nat) (r : Reg) (v : Word) (s : State) :
    (setRegZN i r v s).thermal = s.thermal := rfl
@[simp] theorem setRegZN_shdn (i : Nat) (r : Reg) (v : Word) (s : State) : (setRegZN i r v s).shdn = s.shdn := rfl
@[simp] theorem setRegZN_jrn (i : Nat) (r : Reg) (v : Word) (s : State) : (setRegZN i r v s).jrn = s.jrn := rfl
@[simp] theorem setRegZN_wc (i : Nat) (r : Reg) (v : Word) (s : State) : (setRegZN i r v s).wc = s.wc := rfl
@[simp] theorem setRegZN_led (i : Nat) (r : Reg) (v : Word) (s : State) : (setRegZN i r v s).led = s.led := rfl
@[simp] theorem setRegZN_pins (i : Nat) (r : Reg) (v : Word) (s : State) : (setRegZN i r v s).pins = s.pins := rfl
@[simp] theorem setRegZN_rst (i : Nat) (r : Reg) (v : Word) (s : State) : (setRegZN i r v s).rst = s.rst := rfl
@[simp] theorem setRegZN_freeCtr (i : Nat) (r : Reg) (v : Word) (s : State) :
    (setRegZN i r v s).freeCtr = s.freeCtr := rfl

/-! ### setAlu -/

@[simp] theorem setAlu_pending (i : Nat) (r : Reg) (x : Alu) (b : Bool) (s : State) :
    (setAlu i r x b s).pending = s.pending := rfl
@[simp] theorem setAlu_chan (i : Nat) (r : Reg) (x : Alu) (b : Bool) (s : State) :
    (setAlu i r x b s).chan = s.chan := rfl
@[simp] theorem setAlu_aon (i : Nat) (r : Reg) (x : Alu) (b : Bool) (s : State) : (setAlu i r x b s).aon = s.aon := rfl
@[simp] theorem setAlu_md (i : Nat) (r : Reg) (x : Alu) (b : Bool) (s : State) : (setAlu i r x b s).md = s.md := rfl
@[simp] theorem setAlu_power (i : Nat) (r : Reg) (x : Alu) (b : Bool) (s : State) :
    (setAlu i r x b s).power = s.power := rfl
@[simp] theorem setAlu_meter (i : Nat) (r : Reg) (x : Alu) (b : Bool) (s : State) :
    (setAlu i r x b s).meter = s.meter := rfl
@[simp] theorem setAlu_clk (i : Nat) (r : Reg) (x : Alu) (b : Bool) (s : State) : (setAlu i r x b s).clk = s.clk := rfl
@[simp] theorem setAlu_frame (i : Nat) (r : Reg) (x : Alu) (b : Bool) (s : State) :
    (setAlu i r x b s).frame = s.frame := rfl
@[simp] theorem setAlu_fe (i : Nat) (r : Reg) (x : Alu) (b : Bool) (s : State) : (setAlu i r x b s).fe = s.fe := rfl
@[simp] theorem setAlu_fc (i : Nat) (r : Reg) (x : Alu) (b : Bool) (s : State) : (setAlu i r x b s).fc = s.fc := rfl
@[simp] theorem setAlu_census (i : Nat) (r : Reg) (x : Alu) (b : Bool) (s : State) :
    (setAlu i r x b s).census = s.census := rfl
@[simp] theorem setAlu_chg (i : Nat) (r : Reg) (x : Alu) (b : Bool) (s : State) : (setAlu i r x b s).chg = s.chg := rfl
@[simp] theorem setAlu_planes (i : Nat) (r : Reg) (x : Alu) (b : Bool) (s : State) :
    (setAlu i r x b s).planes = s.planes := rfl
@[simp] theorem setAlu_clamp (i : Nat) (r : Reg) (x : Alu) (b : Bool) (s : State) :
    (setAlu i r x b s).clamp = s.clamp := rfl
@[simp] theorem setAlu_bridges (i : Nat) (r : Reg) (x : Alu) (b : Bool) (s : State) :
    (setAlu i r x b s).bridges = s.bridges := rfl
@[simp] theorem setAlu_therm (i : Nat) (r : Reg) (x : Alu) (b : Bool) (s : State) :
    (setAlu i r x b s).therm = s.therm := rfl
@[simp] theorem setAlu_pipe (i : Nat) (r : Reg) (x : Alu) (b : Bool) (s : State) :
    (setAlu i r x b s).pipe = s.pipe := rfl
@[simp] theorem setAlu_cal (i : Nat) (r : Reg) (x : Alu) (b : Bool) (s : State) : (setAlu i r x b s).cal = s.cal := rfl
@[simp] theorem setAlu_ctxs (i : Nat) (r : Reg) (x : Alu) (b : Bool) (s : State) :
    (setAlu i r x b s).ctxs = modAt (fun c => if b then (c.setReg r x.val).setFlags x else c.setReg r x.val) i s.ctxs := rfl
@[simp] theorem setAlu_runs (i : Nat) (r : Reg) (x : Alu) (b : Bool) (s : State) :
    (setAlu i r x b s).runs = s.runs := rfl
@[simp] theorem setAlu_eng (i : Nat) (r : Reg) (x : Alu) (b : Bool) (s : State) : (setAlu i r x b s).eng = s.eng := rfl
@[simp] theorem setAlu_otp (i : Nat) (r : Reg) (x : Alu) (b : Bool) (s : State) : (setAlu i r x b s).otp = s.otp := rfl
@[simp] theorem setAlu_tw (i : Nat) (r : Reg) (x : Alu) (b : Bool) (s : State) : (setAlu i r x b s).tw = s.tw := rfl
@[simp] theorem setAlu_hs (i : Nat) (r : Reg) (x : Alu) (b : Bool) (s : State) : (setAlu i r x b s).hs = s.hs := rfl
@[simp] theorem setAlu_mem (i : Nat) (r : Reg) (x : Alu) (b : Bool) (s : State) : (setAlu i r x b s).mem = s.mem := rfl
@[simp] theorem setAlu_span (i : Nat) (r : Reg) (x : Alu) (b : Bool) (s : State) :
    (setAlu i r x b s).span = s.span := rfl
@[simp] theorem setAlu_spanx (i : Nat) (r : Reg) (x : Alu) (b : Bool) (s : State) :
    (setAlu i r x b s).spanx = s.spanx := rfl
@[simp] theorem setAlu_thermal (i : Nat) (r : Reg) (x : Alu) (b : Bool) (s : State) :
    (setAlu i r x b s).thermal = s.thermal := rfl
@[simp] theorem setAlu_shdn (i : Nat) (r : Reg) (x : Alu) (b : Bool) (s : State) :
    (setAlu i r x b s).shdn = s.shdn := rfl
@[simp] theorem setAlu_jrn (i : Nat) (r : Reg) (x : Alu) (b : Bool) (s : State) : (setAlu i r x b s).jrn = s.jrn := rfl
@[simp] theorem setAlu_wc (i : Nat) (r : Reg) (x : Alu) (b : Bool) (s : State) : (setAlu i r x b s).wc = s.wc := rfl
@[simp] theorem setAlu_led (i : Nat) (r : Reg) (x : Alu) (b : Bool) (s : State) : (setAlu i r x b s).led = s.led := rfl
@[simp] theorem setAlu_pins (i : Nat) (r : Reg) (x : Alu) (b : Bool) (s : State) :
    (setAlu i r x b s).pins = s.pins := rfl
@[simp] theorem setAlu_rst (i : Nat) (r : Reg) (x : Alu) (b : Bool) (s : State) : (setAlu i r x b s).rst = s.rst := rfl
@[simp] theorem setAlu_freeCtr (i : Nat) (r : Reg) (x : Alu) (b : Bool) (s : State) :
    (setAlu i r x b s).freeCtr = s.freeCtr := rfl

/-! ### writeRoom -/

@[simp] theorem writeRoom_pending (i a : Nat) (bs : List Byte) (s : State) :
    (writeRoom i a bs s).pending = s.pending := rfl
@[simp] theorem writeRoom_chan (i a : Nat) (bs : List Byte) (s : State) : (writeRoom i a bs s).chan = s.chan := rfl
@[simp] theorem writeRoom_aon (i a : Nat) (bs : List Byte) (s : State) : (writeRoom i a bs s).aon = s.aon := rfl
@[simp] theorem writeRoom_md (i a : Nat) (bs : List Byte) (s : State) : (writeRoom i a bs s).md = s.md := rfl
@[simp] theorem writeRoom_power (i a : Nat) (bs : List Byte) (s : State) : (writeRoom i a bs s).power = s.power := rfl
@[simp] theorem writeRoom_meter (i a : Nat) (bs : List Byte) (s : State) : (writeRoom i a bs s).meter = s.meter := rfl
@[simp] theorem writeRoom_clk (i a : Nat) (bs : List Byte) (s : State) : (writeRoom i a bs s).clk = s.clk := rfl
@[simp] theorem writeRoom_frame (i a : Nat) (bs : List Byte) (s : State) : (writeRoom i a bs s).frame = s.frame := rfl
@[simp] theorem writeRoom_fe (i a : Nat) (bs : List Byte) (s : State) : (writeRoom i a bs s).fe = s.fe := rfl
@[simp] theorem writeRoom_fc (i a : Nat) (bs : List Byte) (s : State) : (writeRoom i a bs s).fc = s.fc := rfl
@[simp] theorem writeRoom_census (i a : Nat) (bs : List Byte) (s : State) :
    (writeRoom i a bs s).census = s.census := rfl
@[simp] theorem writeRoom_chg (i a : Nat) (bs : List Byte) (s : State) : (writeRoom i a bs s).chg = s.chg := rfl
@[simp] theorem writeRoom_planes (i a : Nat) (bs : List Byte) (s : State) :
    (writeRoom i a bs s).planes = s.planes := rfl
@[simp] theorem writeRoom_clamp (i a : Nat) (bs : List Byte) (s : State) : (writeRoom i a bs s).clamp = s.clamp := rfl
@[simp] theorem writeRoom_bridges (i a : Nat) (bs : List Byte) (s : State) :
    (writeRoom i a bs s).bridges = s.bridges := rfl
@[simp] theorem writeRoom_therm (i a : Nat) (bs : List Byte) (s : State) : (writeRoom i a bs s).therm = s.therm := rfl
@[simp] theorem writeRoom_pipe (i a : Nat) (bs : List Byte) (s : State) : (writeRoom i a bs s).pipe = s.pipe := rfl
@[simp] theorem writeRoom_cal (i a : Nat) (bs : List Byte) (s : State) : (writeRoom i a bs s).cal = s.cal := rfl
@[simp] theorem writeRoom_ctxs (i a : Nat) (bs : List Byte) (s : State) :
    (writeRoom i a bs s).ctxs = modAt (fun c => { c with room := Memory.writeN 0 c.room (a - 0x10000000) bs }) i s.ctxs := rfl
@[simp] theorem writeRoom_runs (i a : Nat) (bs : List Byte) (s : State) : (writeRoom i a bs s).runs = s.runs := rfl
@[simp] theorem writeRoom_eng (i a : Nat) (bs : List Byte) (s : State) : (writeRoom i a bs s).eng = s.eng := rfl
@[simp] theorem writeRoom_otp (i a : Nat) (bs : List Byte) (s : State) : (writeRoom i a bs s).otp = s.otp := rfl
@[simp] theorem writeRoom_tw (i a : Nat) (bs : List Byte) (s : State) : (writeRoom i a bs s).tw = s.tw := rfl
@[simp] theorem writeRoom_hs (i a : Nat) (bs : List Byte) (s : State) : (writeRoom i a bs s).hs = s.hs := rfl
@[simp] theorem writeRoom_mem (i a : Nat) (bs : List Byte) (s : State) : (writeRoom i a bs s).mem = s.mem := rfl
@[simp] theorem writeRoom_span (i a : Nat) (bs : List Byte) (s : State) : (writeRoom i a bs s).span = s.span := rfl
@[simp] theorem writeRoom_spanx (i a : Nat) (bs : List Byte) (s : State) : (writeRoom i a bs s).spanx = s.spanx := rfl
@[simp] theorem writeRoom_thermal (i a : Nat) (bs : List Byte) (s : State) :
    (writeRoom i a bs s).thermal = s.thermal := rfl
@[simp] theorem writeRoom_shdn (i a : Nat) (bs : List Byte) (s : State) : (writeRoom i a bs s).shdn = s.shdn := rfl
@[simp] theorem writeRoom_jrn (i a : Nat) (bs : List Byte) (s : State) : (writeRoom i a bs s).jrn = s.jrn := rfl
@[simp] theorem writeRoom_wc (i a : Nat) (bs : List Byte) (s : State) : (writeRoom i a bs s).wc = s.wc := rfl
@[simp] theorem writeRoom_led (i a : Nat) (bs : List Byte) (s : State) : (writeRoom i a bs s).led = s.led := rfl
@[simp] theorem writeRoom_pins (i a : Nat) (bs : List Byte) (s : State) : (writeRoom i a bs s).pins = s.pins := rfl
@[simp] theorem writeRoom_rst (i a : Nat) (bs : List Byte) (s : State) : (writeRoom i a bs s).rst = s.rst := rfl
@[simp] theorem writeRoom_freeCtr (i a : Nat) (bs : List Byte) (s : State) :
    (writeRoom i a bs s).freeCtr = s.freeCtr := rfl

/-! ### State.modPort -/

@[simp] theorem State.modPort_pending (s : State) (p : Port) (f : PortSt → PortSt) : (s.modPort p f).pending = s.pending := by
  cases p <;> rfl
@[simp] theorem State.modPort_aon (s : State) (p : Port) (f : PortSt → PortSt) : (s.modPort p f).aon = s.aon := by
  cases p <;> rfl
@[simp] theorem State.modPort_md (s : State) (p : Port) (f : PortSt → PortSt) : (s.modPort p f).md = s.md := by
  cases p <;> rfl
@[simp] theorem State.modPort_power (s : State) (p : Port) (f : PortSt → PortSt) : (s.modPort p f).power = s.power := by
  cases p <;> rfl
@[simp] theorem State.modPort_meter (s : State) (p : Port) (f : PortSt → PortSt) : (s.modPort p f).meter = s.meter := by
  cases p <;> rfl
@[simp] theorem State.modPort_clk (s : State) (p : Port) (f : PortSt → PortSt) : (s.modPort p f).clk = s.clk := by
  cases p <;> rfl
@[simp] theorem State.modPort_frame (s : State) (p : Port) (f : PortSt → PortSt) : (s.modPort p f).frame = s.frame := by
  cases p <;> rfl
@[simp] theorem State.modPort_fe (s : State) (p : Port) (f : PortSt → PortSt) : (s.modPort p f).fe = s.fe := by
  cases p <;> rfl
@[simp] theorem State.modPort_fc (s : State) (p : Port) (f : PortSt → PortSt) : (s.modPort p f).fc = s.fc := by
  cases p <;> rfl
@[simp] theorem State.modPort_census (s : State) (p : Port) (f : PortSt → PortSt) : (s.modPort p f).census = s.census := by
  cases p <;> rfl
@[simp] theorem State.modPort_chg (s : State) (p : Port) (f : PortSt → PortSt) : (s.modPort p f).chg = s.chg := by
  cases p <;> rfl
@[simp] theorem State.modPort_planes (s : State) (p : Port) (f : PortSt → PortSt) : (s.modPort p f).planes = s.planes := by
  cases p <;> rfl
@[simp] theorem State.modPort_clamp (s : State) (p : Port) (f : PortSt → PortSt) : (s.modPort p f).clamp = s.clamp := by
  cases p <;> rfl
@[simp] theorem State.modPort_bridges (s : State) (p : Port) (f : PortSt → PortSt) : (s.modPort p f).bridges = s.bridges := by
  cases p <;> rfl
@[simp] theorem State.modPort_therm (s : State) (p : Port) (f : PortSt → PortSt) : (s.modPort p f).therm = s.therm := by
  cases p <;> rfl
@[simp] theorem State.modPort_pipe (s : State) (p : Port) (f : PortSt → PortSt) : (s.modPort p f).pipe = s.pipe := by
  cases p <;> rfl
@[simp] theorem State.modPort_cal (s : State) (p : Port) (f : PortSt → PortSt) : (s.modPort p f).cal = s.cal := by
  cases p <;> rfl
@[simp] theorem State.modPort_ctxs (s : State) (p : Port) (f : PortSt → PortSt) : (s.modPort p f).ctxs = s.ctxs := by
  cases p <;> rfl
@[simp] theorem State.modPort_runs (s : State) (p : Port) (f : PortSt → PortSt) : (s.modPort p f).runs = s.runs := by
  cases p <;> rfl
@[simp] theorem State.modPort_eng (s : State) (p : Port) (f : PortSt → PortSt) : (s.modPort p f).eng = s.eng := by
  cases p <;> rfl
@[simp] theorem State.modPort_otp (s : State) (p : Port) (f : PortSt → PortSt) : (s.modPort p f).otp = s.otp := by
  cases p <;> rfl
@[simp] theorem State.modPort_tw (s : State) (p : Port) (f : PortSt → PortSt) : (s.modPort p f).tw = s.tw := by
  cases p <;> rfl
@[simp] theorem State.modPort_hs (s : State) (p : Port) (f : PortSt → PortSt) : (s.modPort p f).hs = s.hs := by
  cases p <;> rfl
@[simp] theorem State.modPort_mem (s : State) (p : Port) (f : PortSt → PortSt) : (s.modPort p f).mem = s.mem := by
  cases p <;> rfl
@[simp] theorem State.modPort_span (s : State) (p : Port) (f : PortSt → PortSt) : (s.modPort p f).span = s.span := by
  cases p <;> rfl
@[simp] theorem State.modPort_spanx (s : State) (p : Port) (f : PortSt → PortSt) : (s.modPort p f).spanx = s.spanx := by
  cases p <;> rfl
@[simp] theorem State.modPort_thermal (s : State) (p : Port) (f : PortSt → PortSt) : (s.modPort p f).thermal = s.thermal := by
  cases p <;> rfl
@[simp] theorem State.modPort_shdn (s : State) (p : Port) (f : PortSt → PortSt) : (s.modPort p f).shdn = s.shdn := by
  cases p <;> rfl
@[simp] theorem State.modPort_jrn (s : State) (p : Port) (f : PortSt → PortSt) : (s.modPort p f).jrn = s.jrn := by
  cases p <;> rfl
@[simp] theorem State.modPort_wc (s : State) (p : Port) (f : PortSt → PortSt) : (s.modPort p f).wc = s.wc := by
  cases p <;> rfl
@[simp] theorem State.modPort_led (s : State) (p : Port) (f : PortSt → PortSt) : (s.modPort p f).led = s.led := by
  cases p <;> rfl
@[simp] theorem State.modPort_pins (s : State) (p : Port) (f : PortSt → PortSt) : (s.modPort p f).pins = s.pins := by
  cases p <;> rfl
@[simp] theorem State.modPort_rst (s : State) (p : Port) (f : PortSt → PortSt) : (s.modPort p f).rst = s.rst := by
  cases p <;> rfl
@[simp] theorem State.modPort_freeCtr (s : State) (p : Port) (f : PortSt → PortSt) : (s.modPort p f).freeCtr = s.freeCtr := by
  cases p <;> rfl

/-! ### setReply -/

@[simp] theorem setReply_pending (p : Port) (r : Reply) (s : State) : (setReply p r s).pending = s.pending := by
  cases p <;> rfl
@[simp] theorem setReply_aon (p : Port) (r : Reply) (s : State) : (setReply p r s).aon = s.aon := by
  cases p <;> rfl
@[simp] theorem setReply_md (p : Port) (r : Reply) (s : State) : (setReply p r s).md = s.md := by
  cases p <;> rfl
@[simp] theorem setReply_power (p : Port) (r : Reply) (s : State) : (setReply p r s).power = s.power := by
  cases p <;> rfl
@[simp] theorem setReply_meter (p : Port) (r : Reply) (s : State) : (setReply p r s).meter = s.meter := by
  cases p <;> rfl
@[simp] theorem setReply_clk (p : Port) (r : Reply) (s : State) : (setReply p r s).clk = s.clk := by
  cases p <;> rfl
@[simp] theorem setReply_frame (p : Port) (r : Reply) (s : State) : (setReply p r s).frame = s.frame := by
  cases p <;> rfl
@[simp] theorem setReply_fe (p : Port) (r : Reply) (s : State) : (setReply p r s).fe = s.fe := by
  cases p <;> rfl
@[simp] theorem setReply_fc (p : Port) (r : Reply) (s : State) : (setReply p r s).fc = s.fc := by
  cases p <;> rfl
@[simp] theorem setReply_census (p : Port) (r : Reply) (s : State) : (setReply p r s).census = s.census := by
  cases p <;> rfl
@[simp] theorem setReply_chg (p : Port) (r : Reply) (s : State) : (setReply p r s).chg = s.chg := by
  cases p <;> rfl
@[simp] theorem setReply_planes (p : Port) (r : Reply) (s : State) : (setReply p r s).planes = s.planes := by
  cases p <;> rfl
@[simp] theorem setReply_clamp (p : Port) (r : Reply) (s : State) : (setReply p r s).clamp = s.clamp := by
  cases p <;> rfl
@[simp] theorem setReply_bridges (p : Port) (r : Reply) (s : State) : (setReply p r s).bridges = s.bridges := by
  cases p <;> rfl
@[simp] theorem setReply_therm (p : Port) (r : Reply) (s : State) : (setReply p r s).therm = s.therm := by
  cases p <;> rfl
@[simp] theorem setReply_pipe (p : Port) (r : Reply) (s : State) : (setReply p r s).pipe = s.pipe := by
  cases p <;> rfl
@[simp] theorem setReply_cal (p : Port) (r : Reply) (s : State) : (setReply p r s).cal = s.cal := by
  cases p <;> rfl
@[simp] theorem setReply_ctxs (p : Port) (r : Reply) (s : State) : (setReply p r s).ctxs = s.ctxs := by
  cases p <;> rfl
@[simp] theorem setReply_runs (p : Port) (r : Reply) (s : State) : (setReply p r s).runs = s.runs := by
  cases p <;> rfl
@[simp] theorem setReply_eng (p : Port) (r : Reply) (s : State) : (setReply p r s).eng = s.eng := by
  cases p <;> rfl
@[simp] theorem setReply_otp (p : Port) (r : Reply) (s : State) : (setReply p r s).otp = s.otp := by
  cases p <;> rfl
@[simp] theorem setReply_tw (p : Port) (r : Reply) (s : State) : (setReply p r s).tw = s.tw := by
  cases p <;> rfl
@[simp] theorem setReply_hs (p : Port) (r : Reply) (s : State) : (setReply p r s).hs = s.hs := by
  cases p <;> rfl
@[simp] theorem setReply_mem (p : Port) (r : Reply) (s : State) : (setReply p r s).mem = s.mem := by
  cases p <;> rfl
@[simp] theorem setReply_span (p : Port) (r : Reply) (s : State) : (setReply p r s).span = s.span := by
  cases p <;> rfl
@[simp] theorem setReply_spanx (p : Port) (r : Reply) (s : State) : (setReply p r s).spanx = s.spanx := by
  cases p <;> rfl
@[simp] theorem setReply_thermal (p : Port) (r : Reply) (s : State) : (setReply p r s).thermal = s.thermal := by
  cases p <;> rfl
@[simp] theorem setReply_shdn (p : Port) (r : Reply) (s : State) : (setReply p r s).shdn = s.shdn := by
  cases p <;> rfl
@[simp] theorem setReply_jrn (p : Port) (r : Reply) (s : State) : (setReply p r s).jrn = s.jrn := by
  cases p <;> rfl
@[simp] theorem setReply_wc (p : Port) (r : Reply) (s : State) : (setReply p r s).wc = s.wc := by
  cases p <;> rfl
@[simp] theorem setReply_led (p : Port) (r : Reply) (s : State) : (setReply p r s).led = s.led := by
  cases p <;> rfl
@[simp] theorem setReply_pins (p : Port) (r : Reply) (s : State) : (setReply p r s).pins = s.pins := by
  cases p <;> rfl
@[simp] theorem setReply_rst (p : Port) (r : Reply) (s : State) : (setReply p r s).rst = s.rst := by
  cases p <;> rfl
@[simp] theorem setReply_freeCtr (p : Port) (r : Reply) (s : State) : (setReply p r s).freeCtr = s.freeCtr := by
  cases p <;> rfl

@[simp] theorem State.modPort_chan_rdy (s : State) (p : Port) (f : PortSt → PortSt) :
    (s.modPort p f).chan.rdy = s.chan.rdy := by cases p <;> rfl
@[simp] theorem setReply_chan_rdy (p : Port) (r : Reply) (s : State) : (setReply p r s).chan.rdy = s.chan.rdy := by cases p <;> rfl
@[simp] theorem State.modPort_chan_wake (s : State) (p : Port) (f : PortSt → PortSt) :
    (s.modPort p f).chan.wake = s.chan.wake := by cases p <;> rfl
@[simp] theorem setReply_chan_wake (p : Port) (r : Reply) (s : State) : (setReply p r s).chan.wake = s.chan.wake := by cases p <;> rfl
@[simp] theorem State.modPort_chan_accepted (s : State) (p : Port) (f : PortSt → PortSt) :
    (s.modPort p f).chan.accepted = s.chan.accepted := by cases p <;> rfl
@[simp] theorem setReply_chan_accepted (p : Port) (r : Reply) (s : State) : (setReply p r s).chan.accepted = s.chan.accepted := by cases p <;> rfl
@[simp] theorem State.modPort_chan_tags (s : State) (p : Port) (f : PortSt → PortSt) :
    (s.modPort p f).chan.tags = s.chan.tags := by cases p <;> rfl
@[simp] theorem setReply_chan_tags (p : Port) (r : Reply) (s : State) : (setReply p r s).chan.tags = s.chan.tags := by cases p <;> rfl
@[simp] theorem State.modPort_chan_deferred (s : State) (p : Port) (f : PortSt → PortSt) :
    (s.modPort p f).chan.deferred = s.chan.deferred := by cases p <;> rfl
@[simp] theorem setReply_chan_deferred (p : Port) (r : Reply) (s : State) : (setReply p r s).chan.deferred = s.chan.deferred := by cases p <;> rfl
@[simp] theorem State.modPort_chan_faults (s : State) (p : Port) (f : PortSt → PortSt) :
    (s.modPort p f).chan.faults = s.chan.faults := by cases p <;> rfl
@[simp] theorem setReply_chan_faults (p : Port) (r : Reply) (s : State) : (setReply p r s).chan.faults = s.chan.faults := by cases p <;> rfl
@[simp] theorem State.modPort_chan_faultFrame (s : State) (p : Port) (f : PortSt → PortSt) :
    (s.modPort p f).chan.faultFrame = s.chan.faultFrame := by cases p <;> rfl
@[simp] theorem setReply_chan_faultFrame (p : Port) (r : Reply) (s : State) : (setReply p r s).chan.faultFrame = s.chan.faultFrame := by cases p <;> rfl
@[simp] theorem State.modPort_chan_pubs (s : State) (p : Port) (f : PortSt → PortSt) :
    (s.modPort p f).chan.pubs = s.chan.pubs := by cases p <;> rfl
@[simp] theorem setReply_chan_pubs (p : Port) (r : Reply) (s : State) : (setReply p r s).chan.pubs = s.chan.pubs := by cases p <;> rfl
@[simp] theorem State.modPort_chan_ord (s : State) (p : Port) (f : PortSt → PortSt) :
    (s.modPort p f).chan.ord = s.chan.ord := by cases p <;> rfl
@[simp] theorem setReply_chan_ord (p : Port) (r : Reply) (s : State) : (setReply p r s).chan.ord = s.chan.ord := by cases p <;> rfl
@[simp] theorem State.modPort_chan_staged (s : State) (p : Port) (f : PortSt → PortSt) :
    (s.modPort p f).chan.staged = s.chan.staged := by cases p <;> rfl
@[simp] theorem setReply_chan_staged (p : Port) (r : Reply) (s : State) : (setReply p r s).chan.staged = s.chan.staged := by cases p <;> rfl

/-! ### wrote -/

@[simp] theorem wrote_pending (of : Nat → List Byte → Bool) (s : State) : (wrote of s).pending = s.pending := rfl
@[simp] theorem wrote_aon (of : Nat → List Byte → Bool) (s : State) : (wrote of s).aon = s.aon := rfl
@[simp] theorem wrote_md (of : Nat → List Byte → Bool) (s : State) : (wrote of s).md = s.md := rfl
@[simp] theorem wrote_power (of : Nat → List Byte → Bool) (s : State) : (wrote of s).power = s.power := rfl
@[simp] theorem wrote_meter (of : Nat → List Byte → Bool) (s : State) : (wrote of s).meter = s.meter := rfl
@[simp] theorem wrote_clk (of : Nat → List Byte → Bool) (s : State) : (wrote of s).clk = s.clk := rfl
@[simp] theorem wrote_frame (of : Nat → List Byte → Bool) (s : State) : (wrote of s).frame = s.frame := rfl
@[simp] theorem wrote_fe (of : Nat → List Byte → Bool) (s : State) : (wrote of s).fe = s.fe := rfl
@[simp] theorem wrote_fc (of : Nat → List Byte → Bool) (s : State) : (wrote of s).fc = s.fc := rfl
@[simp] theorem wrote_census (of : Nat → List Byte → Bool) (s : State) : (wrote of s).census = s.census := rfl
@[simp] theorem wrote_chg (of : Nat → List Byte → Bool) (s : State) : (wrote of s).chg = s.chg := rfl
@[simp] theorem wrote_planes (of : Nat → List Byte → Bool) (s : State) : (wrote of s).planes = s.planes := rfl
@[simp] theorem wrote_clamp (of : Nat → List Byte → Bool) (s : State) : (wrote of s).clamp = s.clamp := rfl
@[simp] theorem wrote_bridges (of : Nat → List Byte → Bool) (s : State) : (wrote of s).bridges = s.bridges := rfl
@[simp] theorem wrote_therm (of : Nat → List Byte → Bool) (s : State) : (wrote of s).therm = s.therm := rfl
@[simp] theorem wrote_pipe (of : Nat → List Byte → Bool) (s : State) : (wrote of s).pipe = s.pipe := rfl
@[simp] theorem wrote_cal (of : Nat → List Byte → Bool) (s : State) : (wrote of s).cal = s.cal := rfl
@[simp] theorem wrote_ctxs (of : Nat → List Byte → Bool) (s : State) : (wrote of s).ctxs = s.ctxs := rfl
@[simp] theorem wrote_runs (of : Nat → List Byte → Bool) (s : State) : (wrote of s).runs = s.runs := rfl
@[simp] theorem wrote_eng (of : Nat → List Byte → Bool) (s : State) : (wrote of s).eng = s.eng := rfl
@[simp] theorem wrote_otp (of : Nat → List Byte → Bool) (s : State) : (wrote of s).otp = s.otp := rfl
@[simp] theorem wrote_tw (of : Nat → List Byte → Bool) (s : State) : (wrote of s).tw = s.tw := rfl
@[simp] theorem wrote_hs (of : Nat → List Byte → Bool) (s : State) : (wrote of s).hs = s.hs := rfl
@[simp] theorem wrote_mem (of : Nat → List Byte → Bool) (s : State) : (wrote of s).mem = s.mem := rfl
@[simp] theorem wrote_span (of : Nat → List Byte → Bool) (s : State) : (wrote of s).span = s.span := rfl
@[simp] theorem wrote_spanx (of : Nat → List Byte → Bool) (s : State) : (wrote of s).spanx = s.spanx := rfl
@[simp] theorem wrote_thermal (of : Nat → List Byte → Bool) (s : State) : (wrote of s).thermal = s.thermal := rfl
@[simp] theorem wrote_shdn (of : Nat → List Byte → Bool) (s : State) : (wrote of s).shdn = s.shdn := rfl
@[simp] theorem wrote_jrn (of : Nat → List Byte → Bool) (s : State) : (wrote of s).jrn = s.jrn := rfl
@[simp] theorem wrote_wc (of : Nat → List Byte → Bool) (s : State) : (wrote of s).wc = s.wc := rfl
@[simp] theorem wrote_led (of : Nat → List Byte → Bool) (s : State) : (wrote of s).led = s.led := rfl
@[simp] theorem wrote_pins (of : Nat → List Byte → Bool) (s : State) : (wrote of s).pins = s.pins := rfl
@[simp] theorem wrote_rst (of : Nat → List Byte → Bool) (s : State) : (wrote of s).rst = s.rst := rfl
@[simp] theorem wrote_freeCtr (of : Nat → List Byte → Bool) (s : State) : (wrote of s).freeCtr = s.freeCtr := rfl
@[simp] theorem wrote_chan (of : Nat → List Byte → Bool) (s : State) : (wrote of s).chan = { s.chan with
    tw := (wrote of s).chan.tw, hs := (wrote of s).chan.hs } := rfl
@[simp] theorem wrote_reply (of : Nat → List Byte → Bool) (p : Port) (s : State) :
    ((wrote of s).port p).reply = (s.port p).reply := by cases p <;> rfl
@[simp] theorem wrote_session (of : Nat → List Byte → Bool) (p : Port) (s : State) :
    ((wrote of s).port p).session = (s.port p).session := by cases p <;> rfl

/-! ### Look-ups -/

@[simp] theorem State.modPort_port_same (s : State) (p : Port) (f : PortSt → PortSt) : (s.modPort p f).port p = f (s.port p) := by
  cases p <;> rfl
@[simp] theorem State.modPort_port_other (s : State) (p q : Port) (f : PortSt → PortSt) (h : q ≠ p) :
    (s.modPort p f).port q = s.port q := by
  cases p <;> cases q <;> first | rfl | exact absurd rfl h
@[simp] theorem setReply_port_same (p : Port) (r : Reply) (s : State) :
    (setReply p r s).port p = { s.port p with reply := r, copied := none } := by cases p <;> rfl
@[simp] theorem setReply_port_other (p q : Port) (r : Reply) (s : State) (h : q ≠ p) : (setReply p r s).port q = s.port q := by
  simp [setReply, h]

@[simp] theorem modAt_length {α : Type} (f : α → α) (i : Nat) (xs : List α) : (modAt f i xs).length = xs.length := by
  induction xs generalizing i with
  | nil => cases i <;> rfl
  | cons x xs ih => cases i <;> simp [modAt, ih]

theorem modAt_getD_same {α : Type} (f : α → α) (i : Nat) (xs : List α) (d : α) (h : i < xs.length) :
    (modAt f i xs).getD i d = f (xs.getD i d) := by
  induction xs generalizing i with
  | nil => simp at h
  | cons x xs ih =>
    cases i with
    | zero => rfl
    | succ n => simpa [modAt] using ih n (by simpa using h)

theorem modAt_getD_other {α : Type} (f : α → α) (i j : Nat) (xs : List α) (d : α) (h : j ≠ i) :
    (modAt f i xs).getD j d = xs.getD j d := by
  induction xs generalizing i j with
  | nil => cases i <;> rfl
  | cons x xs ih =>
    cases i with
    | zero =>
      cases j with
      | zero => exact absurd rfl h
      | succ m => rfl
    | succ n =>
      cases j with
      | zero => rfl
      | succ m => simpa [modAt] using ih n m (by omega)

theorem modAt_modAt {α : Type} (f g : α → α) (i : Nat) (xs : List α) : modAt f i (modAt g i xs) = modAt (f ∘ g) i xs := by
  induction xs generalizing i with
  | nil => cases i <;> rfl
  | cons x xs ih => cases i <;> simp [modAt, ih]

/-- A context that exists, after a change of it. -/
theorem State.ctx_modCtx_same (s : State) (i : Nat) (f : Ctx → Ctx) (h : i < s.ctxs.length) :
    (s.modCtx i f).ctx i = f (s.ctx i) := modAt_getD_same f i s.ctxs .closed h

/-- Another context is as it was. -/
theorem State.ctx_modCtx_other (s : State) (i j : Nat) (f : Ctx → Ctx) (h : j ≠ i) : (s.modCtx i f).ctx j = s.ctx j :=
  modAt_getD_other f i j s.ctxs .closed h

/-- Two changes of one context are one. -/
theorem State.modCtx_modCtx (s : State) (i : Nat) (f g : Ctx → Ctx) : (s.modCtx i f).modCtx i g = s.modCtx i (g ∘ f) := by
  simp [State.modCtx, modAt_modAt]

end Sys2Proof.Machine
end

