-- ==== Sys2Proof/Laws/Dyrel.lean ====
section
/-! SUPPORT. What an instruction of Dyrel can do: nothing while no entry runs, one of the four traps, or its effect in the
state in which it was issued (R234, R236, R245). -/

namespace Sys2Proof.Machine
open Sys2Proof Sys2Proof.Safety

variable {op i : Nat} {t : Turn} {s : State} {plan : Nat → State → Plan}

/-- While no entry runs an instruction has no effect. -/
theorem dyrel_idle (h : ∀ t, s.eng.turn = some t → t.inEntry = false) : dyrel op plan s = s := by
  unfold dyrel
  cases ht : s.eng.turn with
  | none => rfl
  | some t => simp [h t ht]

/-- An encoding that does not hold raises ILLEGAL with its major opcode. -/
theorem dyrel_illegal (h : inTurn i t s) (hl : (plan i s).legal = false) : dyrel op plan s = trap i 2 op s := by
  obtain ⟨h1, h2, h3, _⟩ := h
  simp [dyrel, h1, h2, h3, hl]

/-- A capability that is lacking raises CAPABILITY. -/
theorem dyrel_capability {k : Nat} (h : inTurn i t s) (hl : (plan i s).legal = true) (hc : (plan i s).cap = some k) :
    dyrel op plan s = trap i 4 k s := by
  obtain ⟨h1, h2, h3, _⟩ := h
  simp [dyrel, h1, h2, h3, hl, hc]

/-- An operand out of bounds raises BOUNDS. -/
theorem dyrel_bounds {d : Nat} (h : inTurn i t s) (hl : (plan i s).legal = true) (hc : (plan i s).cap = none)
    (hb : (plan i s).bounds = some d) : dyrel op plan s = trap i 3 d s := by
  obtain ⟨h1, h2, h3, _⟩ := h
  simp [dyrel, h1, h2, h3, hl, hc, hb]

/-- A cost beyond the budget raises OVERRUN. -/
theorem dyrel_overrun (h : inTurn i t s) (hl : (plan i s).legal = true) (hc : (plan i s).cap = none)
    (hb : (plan i s).bounds = none) (hu : (s.ctx i).budget < t.used + (plan i s).cost) : dyrel op plan s = trap i 1 0 s := by
  obtain ⟨h1, h2, h3, _⟩ := h
  simp [dyrel, h1, h2, h3, hl, hc, hb, hu]

/-- An instruction that passes the checks has its effect in the state in which it was issued. -/
theorem dyrel_runs (h : inTurn i t s) (hl : (plan i s).legal = true) (hc : (plan i s).cap = none)
    (hb : (plan i s).bounds = none) (hu : t.used + (plan i s).cost ≤ (s.ctx i).budget) :
    dyrel op plan s = after i ((plan i s).run (issued i (plan i s).cost s)) := by
  obtain ⟨h1, h2, h3, _⟩ := h
  have hu' : ¬ (s.ctx i).budget < t.used + (plan i s).cost := by omega
  simp only [dyrel, h1, h2, h3, hl, hc, hb, hu', Bool.not_true, Bool.false_eq_true, if_false, after, issued, endAddr]
  congr 1
  simp

/-! ### Charging -/

/-- Time that passes touches the clock, the wall clock and the flags of the open ledger period alone. -/
theorem advance_frame (k : Nat) (s : State) :
    advance k s = { s with
      clk := (advance k s).clk
      wc := (advance k s).wc
      led := { s.led with period := { s.led.period with flags := (advance k s).led.period.flags } } } := by
  unfold advance
  split
  · rfl
  · split
    · rfl
    · split
      · rfl
      · dsimp only
        split <;> rfl

@[simp] theorem advance_ctxs (k : Nat) (s : State) : (advance k s).ctxs = s.ctxs := by rw [advance_frame]
@[simp] theorem advance_eng (k : Nat) (s : State) : (advance k s).eng = s.eng := by rw [advance_frame]
@[simp] theorem advance_mem (k : Nat) (s : State) : (advance k s).mem = s.mem := by rw [advance_frame]

/-- Charged cycles are counted in the turn, and their time passes. -/
theorem charge_turn (n : Nat) (s : State) (h : s.eng.turn = some t) :
    (charge n s).eng = { s.eng with turn := some { t with used := t.used + n } } := by
  simp [charge, h, spend]

theorem charge_frame (n : Nat) (s : State) :
    charge n s = { s with
      clk := (charge n s).clk
      wc := (charge n s).wc
      led := { s.led with period := { s.led.period with flags := (charge n s).led.period.flags } }
      eng := { s.eng with turn := (charge n s).eng.turn } } := by
  unfold charge
  split
  · unfold spend
    rw [advance_frame]
  · rfl

@[simp] theorem charge_ctxs (n : Nat) (s : State) : (charge n s).ctxs = s.ctxs := by rw [charge_frame]
@[simp] theorem charge_runs (n : Nat) (s : State) : (charge n s).runs = s.runs := by rw [charge_frame]
@[simp] theorem charge_mem (n : Nat) (s : State) : (charge n s).mem = s.mem := by rw [charge_frame]

@[simp] theorem issued_ctxs (cost : Nat) (s : State) :
    (issued i cost s).ctxs = modAt (fun c => { c with pc := c.pc + 4 }) i s.ctxs := by simp [issued]

/-! ### The named results of Safety are the model's operations -/

theorem setReg_eq_put (r : Reg) (v : Word) (s : State) : setReg i r v s = put i r v s := by
  unfold setReg put
  congr 1
  funext c
  simp only [Ctx.setReg, beq_iff_eq]
  split <;> rfl

theorem setAlu_eq (r : Reg) (x : Alu) (b : Bool) (s : State) :
    setAlu i r x b s = if b then flags i (decide (x.val = 0)) x.val.msb x.c x.v (put i r x.val s) else put i r x.val s := by
  cases b
  · simp only [setAlu, Bool.false_eq_true, if_false]
    exact setReg_eq_put r x.val s
  · simp only [setAlu, if_true, flags, put, State.modCtx_modCtx]
    congr 1
    funext c
    simp only [Ctx.setReg, Ctx.setFlags, Function.comp, beq_iff_eq]
    split <;> rfl

theorem setRegZN_eq (r : Reg) (v : Word) (s : State) : setRegZN i r v s = putZN i r v s := by
  have := setAlu_eq (i := i) r (aluZN v) true s
  simp only [setAlu, if_true] at this
  exact this

/-- What an ALU row does, by its result. -/
theorem aluRow_means (unary : Bool) (f : Bool → Word → Word → Alu) (o : OpR) (h : runs i 1 t s) (hr : o.rsv = 0)
    (hb : unary = true → o.b = 0) :
    let r := f (s.ctx i).c (s.reg i o.a) (s.reg i o.b)
    aluRow unary f o s = .next (after i
      (if o.s then flags i (decide (r.val = 0)) r.val.msb r.c r.v (put i o.d r.val (issued i 1 s))
       else put i o.d r.val (issued i 1 s))) := by
  have hl : (o.rsv == 0 && (!unary || o.b == 0)) = true := by
    cases unary
    · simp [hr]
    · simp [hr, hb rfl]
  have := dyrel_runs (op := 0) (plan := aluPlan unary f o) h.1 (by simpa [aluPlan, plain] using hl) rfl rfl h.2
  simp only [aluRow, dyrelRow, this]
  simp only [aluPlan, plain, setAlu_eq]

/-- What an immediate row does. -/
theorem immRow_means (op : Nat) (legal : OpI → Bool) (f : Word → BitVec 18 → Word) (o : OpI) (h : runs i 1 t s)
    (hl : legal o = true) : immRow op legal f o s = .next (after i (put i o.d (f (s.reg i o.a) o.imm) (issued i 1 s))) := by
  have := dyrel_runs (op := op) (plan := fun i s => plain (legal o) 1 (setReg i o.d (f (s.reg i o.a) o.imm))) h.1 hl rfl rfl h.2
  simp only [immRow, dyrelRow, this]
  simp only [plain, setReg_eq_put]

end Sys2Proof.Machine
end

