-- ==== Sys2Proof/Laws/Memory.lean ====
section
/-! SUPPORT. Memories: reading after writing, and the canonical form that every operation keeps. -/

namespace Sys2Proof.Machine.Memory
open Sys2Proof

variable {d : Byte}

/-! ### The canonical form -/

theorem wfFrom_cons {lo : Nat} {c : Host.Cell} {cs : List Host.Cell} :
    wfFrom d lo (c :: cs) = true ↔ lo ≤ c.1 ∧ c.2 ≠ d ∧ wfFrom d (c.1 + 1) cs = true := by
  simp [wfFrom, and_assoc]

theorem wfFrom_mono {lo lo' : Nat} {m : List Host.Cell} (h : lo' ≤ lo) (hm : wfFrom d lo m = true) :
    wfFrom d lo' m = true := by
  cases m with
  | nil => rfl
  | cons c cs =>
    obtain ⟨h1, h2, h3⟩ := wfFrom_cons.1 hm
    exact wfFrom_cons.2 ⟨by omega, h2, h3⟩

/-- Every cell of a canonical memory lies at or above its bound. -/
theorem wfFrom_mem {lo : Nat} {m : List Host.Cell} (hm : wfFrom d lo m = true) :
    ∀ c ∈ m, lo ≤ c.1 := by
  induction m generalizing lo with
  | nil => simp
  | cons x xs ih =>
    obtain ⟨h1, _, h3⟩ := wfFrom_cons.1 hm
    intro c hc
    rcases List.mem_cons.1 hc with rfl | hc
    · exact h1
    · have := ih h3 c hc
      omega

/-- Two runs of cells of which the second lies above the first. -/
theorem wfFrom_append {lo mid : Nat} {xs ys : List Host.Cell} (hx : wfFrom d lo xs = true)
    (hb : ∀ c ∈ xs, c.1 < mid) (hl : lo ≤ mid) (hy : wfFrom d mid ys = true) : wfFrom d lo (xs ++ ys) = true := by
  induction xs generalizing lo with
  | nil => exact wfFrom_mono hl hy
  | cons x xs ih =>
    obtain ⟨h1, h2, h3⟩ := wfFrom_cons.1 hx
    refine wfFrom_cons.2 ⟨h1, h2, ih h3 (fun c hc => hb c (by simp [hc])) ?_⟩
    have := hb x (by simp)
    omega

theorem wfFrom_filter {lo : Nat} {m : List Host.Cell} (p : Host.Cell → Bool) (hm : wfFrom d lo m = true) :
    wfFrom d lo (m.filter p) = true := by
  induction m generalizing lo with
  | nil => rfl
  | cons x xs ih =>
    obtain ⟨h1, h2, h3⟩ := wfFrom_cons.1 hm
    by_cases hp : p x
    · simp only [List.filter_cons, hp, if_true]
      exact wfFrom_cons.2 ⟨h1, h2, ih h3⟩
    · simp only [List.filter_cons, hp]
      exact wfFrom_mono (by omega) (ih h3)

theorem wfFrom_below {lo a : Nat} {m : List Host.Cell} (hm : wfFrom d lo m = true) : wfFrom d lo (below a m) = true :=
  wfFrom_filter _ hm

theorem wfFrom_above {lo a : Nat} {m : List Host.Cell} (hm : wfFrom d lo m = true) : wfFrom d a (above a m) = true := by
  induction m generalizing lo with
  | nil => rfl
  | cons x xs ih =>
    obtain ⟨_, h2, h3⟩ := wfFrom_cons.1 hm
    by_cases hp : a ≤ x.1
    · simp only [above, List.filter_cons, hp, decide_true, if_true]
      exact wfFrom_cons.2 ⟨hp, h2, wfFrom_filter _ h3⟩
    · simpa [above, List.filter_cons, hp] using ih h3

theorem wfFrom_cells {a : Nat} (bs : List Byte) : wfFrom d a (cells d a bs) = true := by
  induction bs generalizing a with
  | nil => rfl
  | cons b bs ih =>
    simp only [cells]
    split
    · exact wfFrom_mono (by omega) ih
    · next h => exact wfFrom_cons.2 ⟨Nat.le_refl a, h, ih⟩

theorem cells_lt {a : Nat} (bs : List Byte) : ∀ c ∈ cells d a bs, c.1 < a + bs.length := by
  induction bs generalizing a with
  | nil => simp [cells]
  | cons b bs ih =>
    intro c hc
    simp only [cells] at hc
    split at hc
    · have := ih c hc
      simp only [List.length_cons]
      omega
    · rcases List.mem_cons.1 hc with rfl | hc
      · simp
      · have := ih c hc
        simp only [List.length_cons]
        omega

theorem below_lt {a : Nat} (m : List Host.Cell) : ∀ c ∈ below a m, c.1 < a := by
  intro c hc
  simpa using (List.mem_filter.1 hc).2

/-- Writing one byte keeps the canonical form above its bound. -/
theorem wfFrom_write {lo a : Nat} {b : Byte} {m : List Host.Cell} (hm : wfFrom d lo m = true) (h : lo ≤ a) :
    wfFrom d lo (write d m a b) = true := by
  induction m generalizing lo with
  | nil =>
    simp only [write]
    split
    · rfl
    · next hb => exact wfFrom_cons.2 ⟨h, hb, rfl⟩
  | cons x xs ih =>
    obtain ⟨h1, h2, h3⟩ := wfFrom_cons.1 hm
    simp only [write]
    split
    · next hlt =>
      split
      · exact hm
      · next hb => exact wfFrom_cons.2 ⟨h, hb, wfFrom_cons.2 ⟨by omega, h2, h3⟩⟩
    · next hge =>
      split
      · next heq =>
        split
        · exact wfFrom_mono (by omega) h3
        · next hb => exact wfFrom_cons.2 ⟨h, hb, by simpa [heq] using h3⟩
      · next hne => exact wfFrom_cons.2 ⟨h1, h2, ih h3 (by omega)⟩

/-- Writing one byte keeps the canonical form. -/
theorem wf_write {a : Nat} {b : Byte} {m : List Host.Cell} (hm : wf d m = true) : wf d (write d m a b) = true :=
  wfFrom_write hm (Nat.zero_le a)

/-- Writing a run of bytes keeps the canonical form. -/
theorem wf_writeN {a : Nat} {bs : List Byte} {m : List Host.Cell} (hm : wf d m = true) : wf d (writeN d m a bs) = true := by
  refine wfFrom_append (mid := a) (wfFrom_below hm) (below_lt m) (Nat.zero_le a) ?_
  exact wfFrom_append (wfFrom_cells bs) (cells_lt bs) (by omega) (wfFrom_above hm)

/-- Blanking a range keeps the canonical form. -/
theorem wf_blank {a n : Nat} {m : List Host.Cell} (hm : wf d m = true) : wf d (blank m a n) = true :=
  wfFrom_append (mid := a) (wfFrom_below hm) (below_lt m) (Nat.zero_le a)
    (wfFrom_mono (Nat.le_add_right a n) (wfFrom_above hm))

/-- The memory that lists nothing is canonical. -/
@[simp] theorem wf_nil : wf d [] = true := rfl

/-! ### Reading -/

@[simp] theorem read_nil (a : Nat) : read d [] a = d := rfl

/-- Below its bound a memory reads as unlisted. -/
theorem read_below {lo a : Nat} {m : List Host.Cell} (hm : wfFrom d lo m = true) (h : a < lo) : read d m a = d := by
  cases m with
  | nil => rfl
  | cons x xs =>
    have := (wfFrom_cons.1 hm).1
    simp only [read]
    rw [if_neg (by omega), if_pos (by omega)]

theorem read_append {lo mid a : Nat} {xs ys : List Host.Cell} (hx : wfFrom d lo xs = true) (hb : ∀ c ∈ xs, c.1 < mid)
    (hy : wfFrom d mid ys = true) : read d (xs ++ ys) a = if a < mid then read d xs a else read d ys a := by
  induction xs generalizing lo with
  | nil =>
    simp only [List.nil_append, read_nil]
    split
    · next h => exact read_below hy h
    · rfl
  | cons x xs ih =>
    obtain ⟨_, _, h3⟩ := wfFrom_cons.1 hx
    have hx1 := hb x (by simp)
    have ih := ih h3 (fun c hc => hb c (by simp [hc]))
    simp only [List.cons_append, read]
    by_cases h1 : x.1 = a
    · simp [h1, show a < mid by omega]
    · by_cases h2 : a < x.1
      · simp [h1, h2, show a < mid by omega]
      · simp only [h1, h2, if_false, ih]

theorem read_below_list {lo a x : Nat} {m : List Host.Cell} (hm : wfFrom d lo m = true) :
    read d (below a m) x = if x < a then read d m x else d := by
  induction m generalizing lo with
  | nil => simp [below]
  | cons c cs ih =>
    obtain ⟨_, _, h3⟩ := wfFrom_cons.1 hm
    have ih := ih h3
    by_cases hc : c.1 < a
    · have e : below a (c :: cs) = c :: below a cs := by simp [below, hc]
      rw [e]
      simp only [read]
      by_cases h1 : c.1 = x
      · simp [h1, show x < a by omega]
      · by_cases h2 : x < c.1
        · simp [h1, h2]
        · simp [h1, h2, ih]
    · have e : below a (c :: cs) = below a cs := by simp [below, hc]
      rw [e, ih]
      split
      · simp only [read]
        rw [if_neg (by omega), if_pos (by omega)]
        exact read_below h3 (by omega)
      · rfl

theorem read_above_list {lo a x : Nat} {m : List Host.Cell} (hm : wfFrom d lo m = true) :
    read d (above a m) x = if a ≤ x then read d m x else d := by
  induction m generalizing lo with
  | nil => simp [above]
  | cons c cs ih =>
    obtain ⟨_, _, h3⟩ := wfFrom_cons.1 hm
    have ih := ih h3
    by_cases hc : a ≤ c.1
    · have e : above a (c :: cs) = c :: above a cs := by simp [above, hc]
      rw [e]
      simp only [read]
      by_cases h1 : c.1 = x
      · simp [h1, show a ≤ x by omega]
      · by_cases h2 : x < c.1
        · simp [h1, h2]
        · simp [h1, h2, ih]
    · have e : above a (c :: cs) = above a cs := by simp [above, hc]
      rw [e, ih]
      split
      · next hx =>
        simp only [read]
        rw [if_neg (by omega), if_neg (by omega)]
      · rfl

theorem read_cells {a x : Nat} (bs : List Byte) :
    read d (cells d a bs) x = if a ≤ x then bs.getD (x - a) d else d := by
  induction bs generalizing a with
  | nil => simp [cells]
  | cons b bs ih =>
    have ih := ih (a := a + 1)
    simp only [cells]
    split
    · next hb =>
      rw [ih]
      by_cases h : a + 1 ≤ x
      · obtain ⟨k, rfl⟩ : ∃ k, x = a + 1 + k := ⟨x - (a + 1), by omega⟩
        simp [show a + 1 + k - a = k + 1 by omega, show a ≤ a + 1 + k by omega]
      · by_cases h2 : a = x
        · subst h2
          simp [hb]
        · simp [h, show ¬ a ≤ x by omega]
    · simp only [read]
      by_cases h1 : a = x
      · subst h1
        simp
      · by_cases h2 : x < a
        · simp [h1, h2, show ¬ a ≤ x by omega]
        · simp only [h1, h2, if_false, ih]
          obtain ⟨k, rfl⟩ : ∃ k, x = a + 1 + k := ⟨x - (a + 1), by omega⟩
          simp [show a + 1 + k - a = k + 1 by omega, show a ≤ a + 1 + k by omega]

/-- What a run of bytes written reads as: the bytes within it, the memory as before outside. -/
theorem read_writeN {a x : Nat} {bs : List Byte} {m : List Host.Cell} (hm : wf d m = true) :
    read d (writeN d m a bs) x = if a ≤ x ∧ x < a + bs.length then bs.getD (x - a) d else read d m x := by
  have hm0 : wfFrom d 0 m = true := hm
  have hc := wfFrom_cells (d := d) (a := a) bs
  have ha := wfFrom_above (a := a + bs.length) hm0
  have hca := wfFrom_append hc (cells_lt bs) (Nat.le_add_right _ _) ha
  rw [writeN, read_append (wfFrom_below hm0) (below_lt m) hca, read_append hc (cells_lt bs) ha,
    read_below_list hm0, read_above_list hm0, read_cells]
  by_cases h1 : x < a
  · simp [h1, show ¬ a ≤ x by omega]
  · by_cases h2 : x < a + bs.length
    · simp [h1, h2, show a ≤ x by omega]
    · simp [h1, h2, show a + bs.length ≤ x by omega]

/-- What a memory with a range blanked reads as. -/
theorem read_blank {a n x : Nat} {m : List Host.Cell} (hm : wf d m = true) :
    read d (blank m a n) x = if a ≤ x ∧ x < a + n then d else read d m x := by
  have hm0 : wfFrom d 0 m = true := hm
  have ha := wfFrom_above (a := a + n) hm0
  rw [blank, read_append (wfFrom_below hm0) (below_lt m) (wfFrom_mono (Nat.le_add_right a n) ha),
    read_below_list hm0, read_above_list hm0]
  by_cases h1 : x < a
  · simp [h1, show ¬ a ≤ x by omega]
  · by_cases h2 : x < a + n
    · simp [h1, h2, show a ≤ x by omega, show ¬ a + n ≤ x by omega]
    · simp [h1, h2, show a + n ≤ x by omega]

/-- What one byte written reads as. -/
theorem read_write {lo a x : Nat} {b : Byte} {m : List Host.Cell} (hm : wfFrom d lo m = true) :
    read d (write d m a b) x = if x = a then b else read d m x := by
  induction m generalizing lo with
  | nil =>
    simp only [write]
    split
    · next h => simp [h]
    · simp only [read]
      by_cases h : a = x
      · simp [h]
      · simp [h, Ne.symm h]
  | cons c cs ih =>
    obtain ⟨_, _, h3⟩ := wfFrom_cons.1 hm
    have ih := ih h3
    simp only [write]
    split
    · next hlt =>
      split
      · next hb =>
        by_cases hx : x = a
        · subst hx
          simp only [read]
          rw [if_neg (by omega), if_pos hlt]
          simp [hb]
        · simp [hx]
      · simp only [read]
        by_cases hx : a = x
        · simp [hx]
        · by_cases h2 : x < a
          · simp only [hx, h2, if_false, if_true, if_neg (Ne.symm hx)]
            rw [if_neg (by omega), if_pos (by omega)]
          · simp only [hx, h2, if_false, if_neg (Ne.symm hx)]
    · next hge =>
      split
      · next heq =>
        split
        · next hb =>
          by_cases hx : x = a
          · subst hx
            rw [if_pos rfl, read_below h3 (by omega), hb]
          · simp only [read, if_neg hx]
            by_cases h2 : x < c.1
            · rw [if_neg (by omega), if_pos h2, read_below h3 (by omega)]
            · rw [if_neg (by omega), if_neg h2]
        · simp only [read]
          by_cases hx : a = x
          · simp [hx]
          · simp only [hx, if_false, if_neg (Ne.symm hx), heq]
      · next hne =>
        simp only [read, ih]
        by_cases h1 : c.1 = x
        · simp [h1, show x ≠ a by omega]
        · by_cases h2 : x < c.1
          · simp [h1, h2, show x ≠ a by omega]
          · simp [h1, h2]

/-- Equal memories are equal lists: two canonical memories that read alike everywhere are one. -/
theorem ext_of_read {lo : Nat} {m m' : List Host.Cell} (hm : wfFrom d lo m = true) (hm' : wfFrom d lo m' = true)
    (h : ∀ a, read d m a = read d m' a) : m = m' := by
  induction m generalizing lo m' with
  | nil =>
    cases m' with
    | nil => rfl
    | cons c cs =>
      obtain ⟨_, h2, _⟩ := wfFrom_cons.1 hm'
      have := h c.1
      simp only [read, if_true] at this
      exact absurd this.symm h2
  | cons c cs ih =>
    obtain ⟨h1, h2, h3⟩ := wfFrom_cons.1 hm
    cases m' with
    | nil =>
      have := h c.1
      simp only [read, if_true] at this
      exact absurd this h2
    | cons e es =>
      obtain ⟨k1, k2, k3⟩ := wfFrom_cons.1 hm'
      have hce : c.1 = e.1 := by
        rcases Nat.lt_trichotomy c.1 e.1 with hl | he | hg
        · have := h c.1
          simp only [read, if_true] at this
          rw [if_neg (by omega), if_pos hl] at this
          exact absurd this h2
        · exact he
        · have := h e.1
          simp only [read, if_true] at this
          rw [if_neg (by omega), if_pos hg] at this
          exact absurd this.symm k2
      have hv : c.2 = e.2 := by
        have := h c.1
        simpa only [read, if_true, hce] using this
      have hp : c = e := Prod.ext hce hv
      subst hp
      refine congrArg _ (ih h3 k3 (fun a => ?_))
      have ha := h a
      by_cases h1 : a < c.1 + 1
      · rw [read_below h3 h1, read_below k3 h1]
      · simp only [read] at ha
        rwa [if_neg (by omega), if_neg (by omega), if_neg (by omega), if_neg (by omega)] at ha

@[simp] theorem readN_length (m : List Host.Cell) (a n : Nat) : (readN d m a n).length = n := by
  induction n generalizing a with
  | zero => rfl
  | succ n ih => simp [readN, ih]

theorem readN_getD (m : List Host.Cell) (a n k : Nat) (x : Byte) (h : k < n) : (readN d m a n).getD k x = read d m (a + k) := by
  induction n generalizing a k with
  | zero => omega
  | succ n ih =>
    cases k with
    | zero => rfl
    | succ k =>
      have := ih (a + 1) k (by omega)
      simp only [readN, List.getD_cons_succ, this]
      congr 1
      omega

end Sys2Proof.Machine.Memory
end

