-- ==== Sys2Proof/Tests/Slice0.lean ====
section
/-! SUPPORT. Small tests: forms that are refused, words that decode, and states that meet the hypotheses of the statements.
Expected results are worked out by hand from the rules that the docstrings name. -/

open Sys2Proof Sys2Proof.Machine Sys2Proof.Safety

namespace Sys2Proof.Tests

/-! ### States and units -/

/-- Both sessions open, every feature accepted, a part that serves. -/
def live : State := { State.reset with
  chan.rdy := true, chan.accepted := some (BitVec.allOnes 128), chan.tw.session := true, chan.hs.session := true
  aon.mode := .active, power.domCore := true }

/-- The same in SERVICE. -/
def bench : State := { live with aon.mode := .service }

/-- Context 0 in a state, with every capability, owned by the two-wire port. -/
def withCtx (st : Nat) (s : State) : State :=
  s.modCtx 0 (fun c => { c with st := st, caps := 0x7FF, budget := 16384 })

/-- A memory profile: 1 MiB in sectors of 4 KiB, intent log at 0x2000, image area of one sector at 0x4000 (R402). -/
def flashRecord : List Byte :=
  [0, 1, 0, 1, 1, 1] ++ le 2 256 ++ le 4 0x100000 ++ [12, 0, 0, 0] ++ [3, 0, 0, 0, 0, 0, 0, 0] ++ [6, 0, 0, 0, 0, 0, 0, 0] ++
    [2, 0, 0, 0, 0, 0, 0, 0] ++ [32, 0, 0, 0, 0, 0, 0, 0] ++ zeros 8 ++ [5, 0, 0, 0, 0, 0, 0, 0] ++ zeros 24 ++ le 4 0x2000 ++ zeros 20 ++
    le 4 0x4000 ++ le 4 0x1000 ++ zeros 8

/-- A part with that memory. -/
def stored : State := { live with mem.profile := some flashRecord }

/-- A two-wire unit without PEC. -/
def unit (pl : List Byte) : HostUnit :=
  { port := .tw, alive := 0, pos := 0, payload := pl, check := none, clocks := 0, mode3 := false }

/-- Whether such a unit is accepted. -/
def taken (code : Nat) (c : Cmd) (pl : List Byte) (s : State) : Bool :=
  s.serves && twFate code (unit pl) (twBegin s) == .passed && judged code false c (unit pl) s == 0

theorem accepted_of_taken {code : Nat} {c : Cmd} {pl : List Byte} {s : State} (h : taken code c pl s = true) :
    accepted code false c (unit pl) s := by
  simp only [taken, Bool.and_eq_true, beq_iff_eq] at h
  exact ⟨⟨h.1.1, h.1.2⟩, h.2⟩

/-! ### Forms that are refused -/

theorem test_wf_unit : (Instr.ident { unit [] with check := some 256 }).wf = false := by decide
theorem test_wf_unit_hs : (Instr.ident { unit [] with port := .hs }).wf = false := by decide
theorem test_wf_code : (Instr.unassignedCode (unit []) 256).wf = false := by decide
theorem test_wf_context : (Instr.imgVerifyDone 32).wf = false ∧ (Instr.imgSessionAbort 32).wf = false := by decide
theorem test_wf_address : (Instr.addressMatch 128).wf = false ∧ (Instr.lineFill (2 ^ 32)).wf = false := by decide
theorem test_wf_sense : (Instr.frameBoundary { listen := [], mutualS := [], charge := [], txLimit := 0, vhv := 0, gamma := [], gammaR := [] }).wf = false ∧
    (Instr.dozeSweep [] ⟨[], []⟩).wf = false := by decide
theorem test_wf_lines : (Instr.txLineOff 64).wf = false ∧ (Instr.channelClip 40).wf = false ∧ (Instr.clamp 177).wf = false ∧
    (Instr.pinOpen 177).wf = false ∧ (Instr.pinRestored 177).wf = false := by decide
theorem test_wf_leave : (Instr.leaveRerequest 9 0).wf = false := by decide
theorem test_wf_fan : (Instr.fanStall 3).wf = false ∧ (Instr.fgPulse 3 1 1).wf = false := by decide
theorem test_wf_bridge : (Instr.excFault 4).wf = false ∧ (Instr.sensorOk 4).wf = false ∧ (Instr.thermistorRound ⟨[], false⟩ 0).wf = false := by
  decide
theorem test_wf_shdn : (Instr.shdnComparison 0 65537 0).wf = false ∧ (Instr.shdnComparison 0 0 8).wf = false := by decide
theorem test_wf_packet : (Instr.beacon { typ := 2, src := 16, hops := 0, dst := 0, frame := 0, payload := [] }).wf = false ∧
    (Instr.late 16).wf = false := by decide
theorem test_wf_queue : (Instr.queueGap 32).wf = false ∧ (Instr.queueGap 0x40).wf = true := by decide
theorem test_wf_reserved : (Instr.reservedOpcode 0).wf = false ∧ (Instr.reservedOpcode 0xFFFFFFFF).wf = true := by decide

/-! ### Words, from the formats of R240 and the codes of R242 -/

/-- d2 = d3 × d4 with the flags; opcode 0x00, function 8. -/
theorem test_word_alu : decodeWord 0b000000_0010_0011_0100_1_00000000_01000#32 =
    .mul { d := 2, a := 3, b := 4, s := true, rsv := 0 } := by decide
/-- d1 = 5 by LUI, opcode 0x0A. -/
theorem test_word_imm : decodeWord 0b001010_0001_0000_000000000000000101#32 = .lui { d := 1, a := 0, imm := 5 } := by decide
/-- A byte from d3 − 1, zero-extended: opcode 0x14. -/
theorem test_word_load : decodeWord 0b010100_0111_0011_111111111111111111#32 = .ldbu { d := 7, a := 3, imm := -1 } := by decide
/-- CALL on carry, ten words on: opcode 0x17. -/
theorem test_word_flow : decodeWord 0b010111_0101_0000000000000000001010#32 = .callCond { cond := 5, off := 10 } := by decide
/-- PCOPY of 16 elements of plane 9: opcode 0x24. -/
theorem test_word_plane : decodeWord 0b100100_0001_0010_001001_000000010000#32 =
    .pcopy { d := 1, a := 2, plane := 9, fn := 16 } := by decide
/-- CGET of the age: opcode 0x2D, field 6. -/
theorem test_word_contact : decodeWord 0b101101_0001_0010_0000_00000000000110#32 = .cget { d := 1, a := 2, b := 0, fn := 6 } := by
  decide
/-- EMIT of type 0x80: opcode 0x34. -/
theorem test_word_event : decodeWord 0b110100_0001_0010_0011_00000010000000#32 = .emit { d := 1, a := 2, b := 3, fn := 128 } := by
  decide
/-- SYS FAN: opcode 0x3C, function 1. -/
theorem test_word_sys : decodeWord 0b111100_0001_0010_0011_0000000000_0001#32 = .sysFan { d := 1, a := 2, b := 3, rsv := 0 } := by
  decide
/-- A word of the operation table: its rows give no bits. -/
theorem test_table_word (n w : Nat) : decodeTableWord n w = none ∧ State.reset.withFetchWord n w = State.reset := ⟨rfl, rfl⟩

/-! ### Units that are accepted: the hypotheses of the statements on host commands -/

theorem test_taken_session :
    taken 0x00 cmdStatus [] live = true ∧ taken 0x01 cmdIdent [] live = true ∧ taken 0x02 cmdFeatRead [1] live = true ∧
    taken 0x03 cmdFeatAccept (le 16 (2 ^ 32)) { live with chan.accepted := none, aon.mode := .boot } = true ∧
    taken 0x04 cmdSessionOpen [1] State.reset = false ∧ taken 0x04 cmdSessionOpen [1] live = true ∧
    taken 0x05 cmdFaultRead [] live = true ∧ taken 0x06 cmdFaultClear (zeros 8) live = true ∧
    taken 0x07 cmdTagRead [0xFF] live = true := by decide

theorem test_taken_context :
    taken 0x10 cmdCtxOpen [0, 0xFF, 0x07, 3, 0, 4, 0, 0] live = true ∧ taken 0x11 cmdCtxClose [0] (withCtx 1 live) = true ∧
    taken 0x12 cmdCtxContract ([0] ++ le 2 19 ++ zeros 6) (withCtx 1 live) = true ∧
    taken 0x13 cmdCtxRegion ([0, 1] ++ zeros 4 ++ le 2 1 ++ le 2 1 ++ [1, 0]) (withCtx 1 live) = true ∧
    taken 0x14 cmdCtxStock ([0, 0] ++ zeros 16) (withCtx 1 live) = true ∧
    taken 0x15 cmdCtxStart [0, 1] (withCtx 4 live) = true ∧ taken 0x15 cmdCtxStart [0, 0] (withCtx 2 live) = true ∧
    taken 0x16 cmdCtxStop [0] (withCtx 3 live) = true ∧ taken 0x17 cmdCtxState [31] live = true ∧
    taken 0x18 cmdCtxMailWrite [0, 1] (withCtx 3 live) = true ∧ taken 0x19 cmdCtxMailRead [0] (withCtx 3 live) = true := by decide

/-- A load session of context 0 with `n` bytes of its 200 received. -/
def loading (n : Nat) : State :=
  let s := withCtx 1 live
  { s with eng.sessions := [{ ctx := 0, length := 200, bytes := zeros n, flash := none, headerOk := true, reserved := 1024,
                              place := some 0, verifying := none, short := false, bad := false }] }

theorem test_taken_image :
    taken 0x20 cmdImgBegin ([0] ++ le 4 100) (withCtx 1 live) = true ∧
    taken 0x21 cmdImgData ([0] ++ le 4 0 ++ [7]) (loading 0) = true ∧ taken 0x22 cmdImgEnd [0] (loading 200) = true ∧
    taken 0x23 cmdImgFromFlash ([0] ++ le 4 0x4000 ++ [0]) (withCtx 1 stored) = true ∧
    taken 0x24 cmdImgList [18, 14] live = true ∧ taken 0x25 cmdImgAbort [0] (loading 0) = true ∧
    taken 0x26 cmdImgKeyRead [] live = true ∧ taken 0x27 cmdImgKeyProg (le 32 1 ++ [0]) bench = true := by decide

theorem test_taken_event :
    taken 0x30 cmdEvtRead [14, 1] live = true ∧ taken 0x31 cmdEvtAck (zeros 4) live = true ∧
    taken 0x32 cmdEvtMask (le 2 511) live = true ∧ taken 0x33 cmdJournalRead [0, 0, 0, 0, 0, 1] live = true := by decide

theorem test_taken_front_end :
    taken 0x40 cmdFeProfile [0, 0] live = true ∧ taken 0x41 cmdFeGet [2] live = true ∧
    taken 0x42 cmdFeSet (0 :: stockProfile 0) live = true ∧ taken 0x43 cmdImageRead ([0] ++ le 2 0 ++ le 2 240) live = true ∧
    taken 0x44 cmdCensusRead [] live = true ∧ taken 0x45 cmdForceCfg [3, 15, 1, 0, 0] live = true ∧
    taken 0x46 cmdClampRead [1] live = true := by decide

theorem test_taken_calibration :
    taken 0x50 cmdCalState [] live = true ∧ taken 0x51 cmdCalFreeze (le 2 255) live = true ∧
    taken 0x53 cmdCalSnapshot [] live = true ∧ taken 0x54 cmdCalRestore [] { live with cal.save := some live.cal.d } = true := by
  decide

set_option maxRecDepth 40000 in
/-- The seed that CAL_SNAPSHOT reads is taken back (R210, R211). -/
theorem test_taken_seed : taken 0x52 cmdCalSeed (seedBytes { live with fe.wordA := 1 }) live = true := by decide

theorem test_taken_thermal :
    taken 0x60 cmdThermRead [] live = true ∧ taken 0x61 cmdThermPolicy [0xFE] live = true ∧
    taken 0x62 cmdFanSet (0 :: ([0, 1] ++ le 2 100 ++ le 2 20000 ++ le 2 50 ++ le 2 100 ++ le 2 100 ++ [0, 0, 1, 1])) live = true ∧
    taken 0x63 cmdFanSkip [2, 0] live = true ∧ taken 0x64 cmdFanState [2] live = true ∧
    taken 0x65 cmdBlSet ([1] ++ le 2 1000 ++ le 2 200 ++ [1]) live = true ∧
    taken 0x66 cmdBlCurve ([0, 0] ++ le 2 0 ++ le 2 1 ++ le 2 1000 ++ le 2 10) live = true := by decide

theorem test_taken_power :
    taken 0x70 cmdPowerCap (le 2 20) live = true ∧ taken 0x71 cmdPowerState [] live = true ∧
    taken 0x72 cmdPowerForce [0xFF, 0] live = true ∧ taken 0x73 cmdPowerGrants [] live = true := by decide

/-- A span of one tile at the origin, pitch 60. -/
def spanRecord : List Byte :=
  [0, 1, 1, 60] ++ le 2 3840 ++ le 2 2400 ++ [0, 0] ++ (1 :: zeros 15) ++ le 16 (2 ^ 48) ++ zeros 6

theorem test_taken_span :
    taken 0x80 cmdSpanConfig spanRecord live = true ∧ taken 0x81 cmdSpanState [] live = true ∧
    taken 0x82 cmdSpanMembers [2, 14] live = true ∧ taken 0x83 cmdSpanPull [] { live with span.role := 4 } = true ∧
    taken 0x84 cmdSpanRelay [15, 1] { live with span.role := 2 } = true := by decide

set_option maxRecDepth 4000 in
theorem test_taken_memory :
    taken 0x90 cmdMemProfile flashRecord live = true ∧ taken 0x91 cmdMemDiscover [15] live = true ∧
    taken 0x92 cmdMemRead (le 4 0xFFFFF ++ le 2 1) stored = true ∧ taken 0x93 cmdMemProgram (le 4 0x4FFF ++ [0]) stored = true ∧
    taken 0x94 cmdMemErase (le 4 0x4000 ++ [0]) stored = true ∧ taken 0x95 cmdMemState [] live = true ∧
    taken 0x96 cmdMemXip [0] stored = true := by decide

theorem test_taken_clock :
    taken 0xA0 cmdClockSet (le 8 946684800 ++ le 4 1023999) live = true ∧ taken 0xA1 cmdClockRead [] live = true ∧
    taken 0xA2 cmdLedgerConfig ([0] ++ le 4 3600 ++ zeros 4 ++ [2, 5]) live = true ∧ taken 0xA3 cmdLedgerState [] live = true ∧
    taken 0xA4 cmdLedgerRead (le 4 0xFFFFFFFF ++ [1]) live = true ∧ taken 0xB0 cmdDiagSelftest [63] bench = true ∧
    taken 0xB1 cmdDiagPins [5] bench = true ∧ taken 0xB2 cmdDiagLoopback [1, 1, 0] bench = true := by decide

theorem test_taken_register :
    taken 0xE0 cmdRegRead [0x10, 0x20, 60] live = true ∧ taken 0xE0 cmdRegRead [0x14, 0x10, 1] live = true ∧
    taken 0xE0 cmdRegRead [0x10, 0x70, 1] live = true ∧ taken 0xE0 cmdRegRead [0x20, 0xA0, 1] live = true ∧
    taken 0xE1 cmdRegWrite (le 2 0x0010 ++ zeros 4 ++ le 4 1) live = true ∧
    taken 0xE1 cmdRegWrite (le 2 0x4000 ++ zeros 4 ++ le 4 1) live = true ∧
    taken 0xE1 cmdRegWrite (le 2 0x5008 ++ zeros 4 ++ le 4 0xFFFFFFFF) live = true ∧
    taken 0xE1 cmdRegWrite (le 2 0x5024 ++ zeros 4 ++ le 4 0xFFFFFFFF) live = true ∧
    taken 0xE1 cmdRegWrite (le 2 0x7000 ++ zeros 4 ++ le 4 0xFFFFFFFF) live = true ∧
    taken 0xE1 cmdRegWrite (le 2 0x7400 ++ zeros 4 ++ le 4 0xFFFFFFFF) live = true ∧
    taken 0xE1 cmdRegWrite (le 2 0xA00C ++ zeros 4 ++ le 4 0xFFFFFFFF) live = true ∧
    taken 0xE1 cmdRegWrite (le 2 0x4080 ++ zeros 4 ++ le 4 0xFFFFFFFF) live = true ∧
    taken 0xE1 cmdRegWrite (le 2 0x001C ++ zeros 4 ++ le 4 0xFFFFFFFF) live = true ∧
    taken 0xF0 cmdReset [0x5A, 0xA5, 2] live = true := by decide

/-! ### The other ways of a unit: rejections, serial transactions, the resynchronisation of the alive counter -/

/-- A frame of the serial port in framed mode, with its CRC. -/
def frame (code alive : Nat) (pl : List Byte) : HostUnit :=
  let u : HostUnit := { port := .hs, alive := alive, pos := 0, payload := pl, check := none, clocks := 4096, mode3 := false }
  { u with check := some (crc32c (frameBytes code u)) }

/-- The serial port present, its alive counter known to be 7. -/
def wired : State := { live with hs.present := true, hs.eOpen := false, hs.e := 7 }

set_option maxRecDepth 8000 in
theorem test_met_serial : passes 0x00 false (frame 0x00 7 []) wired ∧ judged 0x00 false cmdStatus (frame 0x00 7 []) wired = 0 ∧
    passes 0x08 true (frame 0x08 200 []) wired ∧ judged 0x08 true cmdAliveResync (frame 0x08 200 []) wired = 0 := by
  have h : hsFate 0x00 false (frame 0x00 7 []) (hsReply (hsEdge 4096 false wired)) = .passed := by decide
  have h' : hsFate 0x08 true (frame 0x08 200 []) (hsReply (hsEdge 4096 false wired)) = .passed := by decide
  exact ⟨⟨rfl, rfl, h⟩, by decide, ⟨rfl, rfl, h'⟩, by decide⟩
set_option maxRecDepth 8000 in
theorem test_met_rejected : assignedCode 0x09 = false ∧ passes 0x09 false (unit []) live ∧
    twFate 0x01 { unit [] with check := some 0 } live = .badCheck ∧
    hsFate 0x01 false (frame 0x01 9 []) (hsEdge 4096 false wired) = .badAlive ∧
    hsFate 0x01 false (frame 0x01 9 []) (hsReply (hsEdge 4096 false wired)) = .badAlive ∧
    hsFate 0x01 false (frame 0x01 6 []) { wired with hs.lastCrc := (frame 0x01 6 []).check } = .repeated := by
  exact ⟨by decide, ⟨rfl, rfl⟩, by decide, by decide, by decide, by decide⟩
theorem test_met_refused : judged 0x10 false cmdCtxOpen (unit [0]) live = 0x02 ∧
    judged 0x10 false cmdCtxOpen (unit (32 :: zeros 7)) live = 0x0D := by decide
theorem test_met_edge : wired.serves = true ∧ (hsEdge 64 false wired).hs.present = true ∧ (hsEdge 64 true { live with hs.present := false }).hs.present = false ∧
    State.reset.chan.rdy = false := by decide
/-- A unit cut to the wrong length is answered with BAD_LEN and leaves the contexts as they were (R303). -/
theorem test_bad_length : (nextOf live (exec (.ctxOpen (unit [0])) live)).chan.tw.reply = .fixed [0x02#8] ∧
    ((nextOf live (exec (.ctxOpen (unit [0])) live)).ctx 0).st = 0 := by decide
/-- CTX_OPEN opens, with the budget of 0 read as 16 384 (R337). -/
theorem test_ctx_open : let t := nextOf live (exec (.ctxOpen (unit [0, 3, 0, 2, 0, 0, 0, 0])) live)
    (t.ctx 0).st = 1 ∧ (t.ctx 0).budget = 16384 ∧ (t.ctx 0).prio = 2 ∧ t.chan.tw.reply = .fixed [0, 3, 0] := by decide
/-- IDENT from the fresh part: the IDs of R328 and the two-wire port. -/
theorem test_ident : ((sendReply .tw (nextOf live (exec (.ident (unit [])) live))).1).take 7 =
    [0#8, 0x57#8, 0x50#8, 0x40#8, 0x86#8, 2#8, 0#8] := by decide
theorem test_met_replies : live.chan.tw.reply ≠ .live 0x05 [] ∧
    (nextOf live (exec (.faultRead (unit [])) live)).chan.tw.reply = .live 0x05 [] ∧ live.chan.accepted ≠ none ∧
    (∃ g, { live with chan.tags := live.chan.tags.set 3 (some
      { port := .tw, code := 0x22, ctx := none, done := true, err := 0, comp := [], discard := false }) }.chan.tags.getD 3 none = some g ∧
      g.done = true) ∧
    { live with mem.fences := [{ base := 0x4000, len := 0x1000, held := true, code := 0 }] }.fenced 0x4FFF 1 = true ∧
    live.fenced 0x4FFF 1 = false := by
  refine ⟨by decide, by decide, by decide, ⟨_, rfl, by decide⟩, by decide, by decide⟩
theorem test_met_deferred : 0 < ((withCtx 1 live).ctx 0).st ∧ ((withCtx 1 live).ctx 0).st ≠ 3 ∧ ((withCtx 3 live).ctx 0).st = 3 ∧
    0 < live.ctxs.length := by decide
set_option maxRecDepth 4000 in
theorem test_met_verify :
    let s := { loading 200 with eng.sessions := (loading 200).eng.sessions.map (fun x => { x with verifying := some 5 }) }
    (∃ x, s.session 0 = some x ∧ x.verifying = some 5 ∧ x.flash = none) ∧ finalResult s (s.ctx 0).caps 200 (zeros 200) ≠ 0 ∧
    (∃ x, (loading 7).session 0 = some x ∧ x.verifying = none) ∧ (loading 7).aon.mode ≠ .hibernate := by
  refine ⟨⟨_, rfl, by decide⟩, by decide, ⟨_, rfl, by decide⟩, by decide⟩
theorem test_met_otp_diag :
    (∃ w, { live with otp.write := some { ledger := false, slot := 0, hash := [], sigreq := false, tag := none } }.otp.write = some w ∧
      w.slot = 0 ∧ w.ledger = false) ∧
    { live with rst.diag := [(0xB0, [0], 4)] }.rst.diag = [(0xB0, [0], 4)] := ⟨⟨_, rfl, by decide⟩, rfl⟩

/-! ### An open turn: the hypotheses of the statements on Dyrel -/

/-- The turn of context 0, in its frame entry. -/
def turn : Turn :=
  { left := [0], entries := [], inEntry := true, used := 0, emits := 0, sends := 0, msg := none, entryKind := 3 }

/-- Context 0 runs with the given registers from d0 up; flash stands under its window. -/
def running (regs : List Word) : State :=
  let s := withCtx 3 { live with mem.profile := some flashRecord, mem.xipEn := true, eng.turn := some turn }
  s.modCtx 0 (fun c => { c with regs := regs ++ List.replicate (16 - regs.length) 0, prog := .image
                                img := { c.img with size := 1024, frame := 8, init := 0xFFFFFFFF, mail := 0xFFFFFFFF
                                                    event := 0xFFFFFFFF } })

/-- The state after a command. -/
def ran (x : Instr) (s : State) : State := nextOf s (exec x s)

theorem runs_of (regs : List Word) (cost : Nat) (h : cost ≤ 16384) : runs 0 cost turn (running regs) := by
  refine ⟨⟨rfl, rfl, rfl, by
    have h : (running regs).ctxs.length = 32 := rfl
    omega⟩, ?_⟩
  show 0 + cost ≤ _
  have : ((running regs).ctx 0).budget = 16384 := rfl
  omega

theorem test_met_turn : runs 0 16384 turn (running []) ∧ inTurn 0 turn (running []) := ⟨runs_of [] _ (by decide), (runs_of [] 0 (by decide)).1⟩

theorem test_met_access :
    loadBounds (running []) 0 0x10001FFC 4 = none ∧ loadCap (running []) 0 0x10001FFC = none ∧
    loadBounds (running []) 0 0x40000000 4 = none ∧ loadCap (running []) 0 0x40000000 = none ∧
    loadBounds (running []) 0 0x20000000 1 = none ∧ loadBounds (running []) 0 0x10001FFE 4 = some 3 ∧
    loadBounds (running []) 0 0x10002000 4 = some 0 ∧ shelfByte (running []) 0 0x10002000 = none ∧
    (running []).holds 0 7 = true ∧ (withCtx 1 live).holds 1 7 = false ∧ (running []).feat 35 = true ∧ live.feat 99 = true ∧
    0x0FFFFC ≤ (running []).window := by decide

theorem test_met_planes : (running []).feat 33 = true ∧ planeShape 9 = some (2560, 1) ∧ planeCap (running []) 0 9 = none ∧
    boxOf 9 0#32 = some [0] ∧ (2559 + 1 ≤ 2560) := by decide

theorem test_met_rights : (running []).holds 0 0 = true ∧ (running []).holds 0 9 = true ∧ (running []).holds 0 5 = true ∧
    (running []).holds 0 10 = true ∧ (running []).holds 0 8 = true ∧ (running []).feat 34 = true ∧ (running []).holds 0 6 = true ∧
    (running []).holds 0 4 = true ∧ (running []).holds 0 2 = true ∧ (running []).holds 0 3 = true ∧ (running []).holds 0 1 = true := by
  decide

theorem test_met_entry : (running []).eng.turn = some turn ∧ ((running []).ctx 0).regs.length = 16 ∧ 0 < (running []).runs.length ∧
    (running []).pending = [] ∧ live.eng.turn = none := by decide

theorem test_met_fetch : (({ running [] with pending := [] }.modCtx 0 (fun c => { c with pc := 2 })).ctx 0).pc % 4 ≠ 0 ∧
    ((running []).ctx 0).pc % 4 = 0 ∧ ((running []).ctx 0).pc + 4 ≤ ((running []).ctx 0).img.size ∧
    ((running []).ctx 0).img.xip = false ∧
    ((running []).modCtx 0 (fun c => { c with pc := 0xFFFFFFFC })).ctx 0 = { (running []).ctx 0 with pc := 0xFFFFFFFC } := by
  decide

theorem test_met_extremes : ([(3, 5), (4, -2)] : List (Nat × Int)) ≠ [] ∧
    ([(3, 5), (4, -2)] : List (Nat × Int)).Pairwise (fun a b => a.1 < b.1) := by decide

/-- 0x7FFF_FFFF + 1 overflows: Z clear, N set, C clear, V set (R244, R247); one cycle, pc on by 4. -/
theorem test_add : let t := ran (.add { d := 3, a := 1, b := 2, s := true, rsv := 0 }) (running [0, 0x7FFFFFFF, 1])
    t.reg 0 3 = 0x80000000#32 ∧ ((t.ctx 0).z, (t.ctx 0).n, (t.ctx 0).c, (t.ctx 0).v) = (false, true, false, true) ∧
    (t.ctx 0).pc = 4 ∧ t.eng.turn = some { turn with used := 1 } := by decide
/-- 1 − 2 borrows: C clear, N set (R244). -/
theorem test_sub : let t := ran (.sub { d := 3, a := 1, b := 2, s := true, rsv := 0 }) (running [0, 1, 2])
    t.reg 0 3 = 0xFFFFFFFF#32 ∧ ((t.ctx 0).n, (t.ctx 0).c, (t.ctx 0).v) = (true, false, false) := by decide
/-- d0 takes no value (R225). -/
theorem test_d0 : (ran (.addi { d := 0, a := 1, imm := 5 }) (running [0, 9])).reg 0 0 = 0 := by decide
/-- MULH of −1 × 2 is −1 (R247). -/
theorem test_mulh : (ran (.mulh { d := 3, a := 1, b := 2, s := false, rsv := 0 }) (running [0, 0xFFFFFFFF, 2])).reg 0 3 =
    0xFFFFFFFF#32 := by decide
/-- LUI puts imm18 at bit 14 (R248). -/
theorem test_lui : (ran (.lui { d := 1, a := 0, imm := 1 }) (running [])).reg 0 1 = 0x4000#32 := by decide
/-- A halfword stored is read back sign-extended (R249, R250). -/
theorem test_store_load :
    let s := ran (.sth { d := 1, a := 2, b := 0, off := -2 }) (running [0, 0x1FFFE, 0x10000004])
    let t := ran (.ldh { d := 3, a := 2, imm := -2 }) s
    t.reg 0 3 = 0xFFFFFFFE#32 ∧ (t.ctx 0).room = [(2, 0xFE#8), (3, 0xFF#8)] := by decide
set_option maxRecDepth 40000 in
/-- A store outside the room raises BOUNDS 1, and the context is FAULTED (R236, R250). -/
theorem test_store_trap : let t := ran (.stw { d := 1, a := 2, b := 0, off := 0 }) (running [0, 7, 0x20000000])
    (t.ctx 0).st = 5 ∧ (t.run 0).cause = 3 ∧ (t.run 0).detail = 1 ∧ t.eng.turn = none := by decide
/-- BZ back by one word from address 0 of a taken branch wraps to the end of the space (R252). -/
theorem test_bz : ((ran (.bz { d := 0, a := 1, imm := 3 }) (running [])).ctx 0).pc = 12 := by decide
/-- CALL leaves the return address in d15 (R252). -/
theorem test_call : let t := ran (.callCond { cond := 12, off := 10 }) (running [])
    (t.ctx 0).pc = 40 ∧ t.reg 0 15 = 4 := by decide
/-- YIELD ends the last entry, the turn and with it the pass (R262). -/
theorem test_yield : (ran (.yield { d := 0, a := 0, b := 0, fn := 0 }) (running [])).eng.turn = none := by decide
set_option maxRecDepth 40000 in
/-- EMIT of a program's own record enters the context's queue and answers 1 (R258). -/
theorem test_emit : let t := ran (.emit { d := 3, a := 1, b := 2, fn := 0x80 }) (running [0, 5, 6])
    t.reg 0 3 = 1 ∧ ((t.ctx 0).queue.recs.map (fun q => (q.r.typ, q.r.payload))) = [(0x80, [5, 0, 0, 0, 6, 0, 0, 0])] := by decide
/-- LEAVE enters a request of class 2 and answers 0 (R261). -/
theorem test_leave : let t := ran (.leave { d := 3, a := 1, b := 0, hi := 0, lo := 4 }) (running [0, 9])
    t.reg 0 3 = 0 ∧ (t.reqOf 4 0).map (·.cost) = some 9 := by decide
/-- SYS FREEZE keeps its mask for the next K (R265). -/
theorem test_freeze : (ran (.sysFreeze { d := 3, a := 1, b := 0, rsv := 0 }) (running [0, 0x81])).eng.freezeNext = some 0x81 := by decide
set_option maxRecDepth 40000 in
/-- BRK raises ILLEGAL with 0x3E (R267). -/
theorem test_brk : ((ran (.brk 0) (running [])).run 0).cause = 2 ∧ ((ran (.brk 0) (running [])).run 0).detail = 0x3E := by decide
/-- Outside an entry an instruction has no effect. -/
theorem test_no_turn : ran (.addi { d := 1, a := 0, imm := 1 }) live = live := rfl
/-- The engine fetches the word at the pc, least significant byte first (R239). -/
theorem test_fetch : let s := { running [] with eng.code := Memory.writeN 0 [] 0 [5, 0, 0x40, 0x04] }
    (engineStep s).reg 0 1 = 5 := by decide

/-! ### Rows of events: states that meet their conditions, at the boundary of a range -/

/-- A fan of the given state, fitted, at speed `v`. -/
def fanned (st v : Nat) : State :=
  live.modFan 0 (fun f => { f with st := st, startStage := 2, inst := v, record := 0x01 :: f.record.drop 1 })

/-- A grant held in the first slot. -/
def granted (cls who cost : Nat) (s : State) : State :=
  { s with power.slots := [some { cls := cls, who := who, cost := cost, revocable := true, order := 0 }] }

/-- A bridge with excitation on. -/
def excited (f : Bridge → Bridge) : State := live.modBridge 0 (fun b => f { b with excited := true })

/-- An operation that runs on the flash. -/
def working (kind who : Nat) : State :=
  { stored with mem.op := some { kind := kind, who := who, addr := 0x4000, len := 1, data := [0], tag := none, ctx := 0, granted := true,
                                 running := true, eraseCode := 0, seq := 0 } }

theorem test_met_two_wire :
    live.serves = true ∧ (twBegin live).chan.tw.reply = .none ∧
    (twBegin (ran (.status { (unit []) with port := .tw }) live)).chan.tw.reply = .none ∧
    (∃ bs, (twBegin (ran (.ctxOpen (unit [])) live)).chan.tw.reply = .fixed bs) ∧
    { live with tw.ibr := true }.tw.ibr = true ∧
    ({ live with chan.tw.signal := true }.chan.tw.signal = true ∧ live.feat 17 = true ∧ live.feat 18 = true) ∧
    { live with tw.ibrPend := true }.tw.ibr = false ∧
    ({ live with tw.hnPend := true, tw.hnRun := 7 }.serves = true ∧ live.feat 19 = true ∧ live.tw.hnOff = false) ∧
    8 ≤ { live with tw.hnRun := 8 }.tw.hnRun := by
  refine ⟨by decide, by decide, by decide, ⟨_, rfl⟩, by decide, by decide, by decide, by decide, by decide⟩

theorem test_met_clock :
    ({ live with clk.xtal := true, clk.onKeeper := false }.clk.xtal = true) ∧
    ({ live with clk.xtal := true, clk.gateCount := 16 }.framesRun = false) ∧ (120 ≤ 120 ∧ 136 ≤ 136 ∧ 119 < 120 ∧ 136 < 137) ∧
    live.power.domCore = true ∧ ({ live with clk.xtal := true, clk.badRun := 2 }.clk.xtalFail = false) ∧
    ({ live with clk.lock := true }.clk.coreStopped = false) ∧ ({ live with clk.xtal := false }.clk.xtal = false) ∧
    ({ live with clk.xtalFail := true, clk.goodRun := 8 }.clk.xtalFail = true) := by decide

theorem test_met_power :
    ({ live with frame.running := true }.framesRun = true) ∧ live.framesRun = false ∧
    (∃ r ∈ { live with power.rereq := [{ cls := 8, who := 0, frames := some 0, dip := false }] }.power.rereq,
      r.cls = 8 ∧ r.who = 0 ∧ r.dip = false ∧ (r.frames = none ∨ r.frames = some 0)) ∧
    (439 < 440 ∧ live.power.dip = false) ∧ ({ live with power.dip := true }.power.dip = true ∧ 450 ≤ 450) ∧
    (live.feat 67 = true ∧ 5 * { live with power.cap := 20, meter.avg := 101 }.power.cap < 101) ∧
    (granted 8 0 5 { live with power.guard := true }).revocables.head?.isSome = true ∧
    ({ live with power.cap := 20, meter.avg := 100 }.meter.avg ≤ 5 * 20) ∧
    (live.power.vmotUv = false ∧ { live with power.vmotUv := true }.power.vmotUv = true) ∧
    ((fanned 4 0).fan 0).st ∈ [1, 2, 4] ∧ 0 < live.thermal.fans.length ∧ ((fanned 5 0).fan 0).failed = false ∧
    { live with meter.boostStarting := true }.meter.boostStarting = true := by decide

theorem test_met_mode :
    ({ live with aon.mode := .safe }.aon.mode = .safe) ∧ (429 < 430 ∧ live.md.vinLow = false) ∧
    ({ live with meter.boostOn := true }.meter.boostStarting = false) ∧ (8 ≤ { live with eng.slipRun := 8 }.eng.slipRun) ∧
    live.aon.mode ≠ .safe ∧
    ({ live with aon.mode := .safe, chan.accepted := none }.safeCause = false ∧ live.md.forced = none) ∧
    ({ live with aon.mode := .safe, md.wdogNow := true }.safeCause = true) ∧
    ({ live with aon.mode := .hibernate, clk.coreStopped := true, aon.enTw := true, aon.enHs := true }.clk.coreStopped = true) ∧
    ({ live with tw.stretch := true }.power.domCore = true) ∧
    ({ live with aon.mode := .doze, aon.enGpio := true, aon.gpioMask := 0x8000, aon.gpioLevel := 0x8000 }.aon.gpioMask.getLsbD 15 = true) ∧
    ({ live with aon.mode := .hibernate }.md.hostService = false) ∧
    ({ live with md.floor := true }.pipe.cands = [] ∧ live.pipe.contacts = []) ∧
    ({ live with aon.mode := .doze }.clk.coreStopped = false) ∧ ({ live with aon.mode := .boot }.aon.mode = .boot) ∧
    ({ live with md.pending := some (⟨.hibernate, 0, 0⟩, 0), md.hibEntry := true }.mem.op = none ∧ live.tw.stretch = false ∧
      getBit live.aon.wakeSrc 1 = false) ∧
    { live with chan.tw.causeReset := true }.stands .tw = true := by decide

set_option maxRecDepth 40000 in
/-- A record that is readable on the two-wire port and carries no number yet. -/
theorem test_met_lapse :
    let s := record 0x40 [] { live with chan.tw.evtMask := 0x1FF }
    ∃ r ∈ s.readable .tw, r.seq = none := by decide

theorem test_met_front_end :
    16 ≤ { live with fc.txRuns := (List.replicate 63 0) ++ [16] }.fc.txRuns.getD 63 0 ∧ getBit live.fc.txoff 63 = false ∧
    1 ≤ { live with fc.clipRuns := (List.replicate 39 0) ++ [1] }.fc.clipRuns.getD 39 0 ∧ getBit live.fc.clip 39 = false ∧
    { live with power.domDrive := true }.power.domDrive = true ∧ live.power.domDrive = false ∧
    { live with clamp.lastClamp := live.clamp.lastClamp.set 176 (some 1) }.clamp.lastClamp.getD 176 none ≠ none ∧
    live.clamp.lastClamp.getD 176 none = none ∧ getBit live.clamp.opened 176 = false ∧
    getBit { live with clamp.opened := setBit 0 176 true }.clamp.opened 176 = true ∧
    getBit { live with clamp.opened := setBit 0 104 true }.clamp.opened 104 = true ∧
    0 < (bridgeDue 0 live).bridges.length ∧ ((bridgeDue 0 (excited id)).bridge 0).excited = true ∧
    4 ≤ ((excited (fun b => { b with badRun := 4 })).bridge 0).badRun ∧
    ((excited (fun b => { b with fault := true, goodRun := 4 })).bridge 0).fault = true ∧
    16 ≤ ((excited (fun b => { b with satRun := 16 })).bridge 0).satRun ∧ live.aon.mode ≠ .hibernate ∧ live.aon.mode ≠ .off ∧
    ((live.modThm 3 (fun t => { t with en := true, fail := true, good := 16 })).thm 3).good = 16 ∧
    10 ≤ { live with shdn.assertRun := 10 }.shdn.assertRun ∧ 10 ≤ { live with shdn.asserted := true, shdn.relRun := 10 }.shdn.relRun ∧
    live.shdn.asserted = false ∧ live.census.urgent < 4 := by decide

theorem test_met_frame :
    live.mayFrame = false ∧ { live with span.role := 2 }.mayFrame = true ∧ live.rst.diag = [] ∧ live.md.hibEntry = false ∧
    live.md.pending = none ∧ framesIn { live with aon.rate := 5 }.sel = true ∧ live.nextBeacon = none ∧ live.frame.started = false ∧
    ({ live with frame.running := true, frame.sensed := true, frame.phase := 2 }.framesRun = true) ∧
    ({ live with frame.phase := 3 }.cal.endDone.getD 5 ≠ epochsThrough live.frame.comp) ∧ live.eng.turn = none ∧
    { live with aon.mode := .doze }.aon.mode = .doze := by decide

set_option maxRecDepth 40000 in
theorem test_met_pipeline :
    ({ live with pipe.surface.wetRun := 2 }.pipe.surface.nextWet = false) ∧
    ({ live with pipe.surface.nextWet := true, pipe.surface.dryRun := 256 }.pipe.surface.nextWet = true) ∧
    ({ live with pipe.surface.swampRun := 8 }.pipe.surface.swamped = false) ∧
    ({ live with pipe.surface.swamped := true, pipe.surface.clearRun := 8 }.pipe.surface.swamped = true) ∧
    (live.span.joined = false ∧ live.pipe.surface.swampHold = false ∧ { live with pipe.counted := true }.pipe.counted = true) ∧
    { live with pipe.approachDue := true }.pipe.approachDue = true ∧ (∃ x, live.cal.d.nus[39]? = some x ∧ x.fresh < 16) ∧
    getBit { live with cal.freeze := 1 }.cal.freeze 0 = true ∧ live.cal.tarns.ia.length = live.cal.d.bia.length ∧
    live.cal.railRuns.getD 93 0 < 4 := by
  refine ⟨by decide, by decide, by decide, by decide, by decide, by decide, ⟨_, rfl, by decide⟩, by decide, by decide, by decide⟩

theorem test_met_flash :
    ({ stored with mem.filling := some 64 }.mem.filling = some (127 / 64 * 64)) ∧
    (∃ o, (working 1 0).mem.op = some o ∧ o.running = true ∧ o.kind = 1 ∧ o.who ≠ 6) ∧
    (∃ o, (working 2 0).mem.op = some o ∧ o.running = true ∧ o.kind = 2 ∧ o.who ≠ 6) ∧ (working 2 0).mem.waiting = [] ∧
    (∃ x, { stored with mem.xfer := some { ctx := 0, write := false, flash := 0, room := 0, len := 1 } }.mem.xfer = some x ∧
      x.write = false) ∧
    (byteAt (templ { live with mem.profile := some (splice flashRecord 23 [4]) }.flashProfile 0) 7).testBit 2 = true ∧
    { stored with aon.mode := .boot, mem.mapValid := true }.flashBusy = false ∧ Memory.wf 0xFF stored.mem.flash = true := by
  refine ⟨by decide, ⟨_, rfl, by decide⟩, ⟨_, rfl, by decide⟩, by decide, ⟨_, rfl, by decide⟩, by decide, by decide, by decide⟩

/-- A record that waits for spill, and an area for it. -/
def spilling : State :=
  { stored with jrn.force := true, clk.tb := 10240000
                mem.map := some { seq := 0, copy := 0, intent := none, ledger := none, spill := some (0x8000, 0x4000), image := none, seed := none }
                jrn.waiting := [{ time := 0, origin := 0x40, typ := 0x40, payload := zeros 8 }] }

theorem test_met_journal :
    0 < ((live.modCtx 31 (fun c => { c with queue.lost := 1 })).ctx 31).queue.lost ∧ (live.ctx 31).queue.recs.length < 64 ∧
    0 < ({ live with chan.hs.house.lost := 1 }.port .hs).house.lost ∧ spilling.spillOn = true ∧ (∀ o ∈ spilling.mem.waiting, o.who ≠ 1) ∧
    (∃ r rs, spilling.jrn.waiting = r :: rs ∧ r.time + 10240000 ≤ spilling.clk.tb) ∧ live.spillOn = false ∧
    ({ live with led.running := true, wc.set := true, led.nbHeld := some 7, wc.secs := 7 }.nb ≤ 7) ∧ live.led.running = false := by
  refine ⟨by decide, by decide, by decide, by decide, by decide, ⟨_, _, rfl, by decide⟩, by decide, by decide, by decide⟩

theorem test_met_fan :
    ((granted 0 0x40 5 (fanned 1 0)).grantOf 0 0x40).isSome = true ∧ ((fanned 1 0).fan 0).driven = true ∧
    ((granted 1 0x40 5 live).grantOf 1 0x40).isSome = true ∧ max 1 (ceilDiv (11 * 1) 500) ≤ (granted 1 0x40 5 live).grantCost 1 0x40 ∧
    (2 < live.thermal.fans.length) ∧ (20 ≤ 20) ∧ (((fanned 1 0).modFan 0 (fun f => { f with startStage := 0 })).fan 0).startStage = 0 ∧
    (fanned 1 0).fitted 0 = true ∧ fanMin ((fanned 1 0).fan 0) ≤ (((fanned 1 0).modFan 0 (fun f => { f with target := 5000, setMil := 1000 * 5000 })).fan 0).rpm ∧
    10 * ((fanned 2 0).fan 0).inst < (((fanned 2 0).modFan 0 (fun f => { f with target := 5000, setMil := 1000 * 5000 })).fan 0).rpm ∧
    ((fanned 3 0).fan 0).hot = false ∧ (fanned 3 0).reqOf 0 0x40 = none ∧ fanMin ((fanned 4 5000).fan 0) ≤ ((fanned 4 5000).fan 0).inst ∧
    (1300 ≤ (1499 : Int) ∧ (1499 : Int) < 1500) ∧ ((fanned 0 0).fan 0).driven = false := by decide

theorem test_met_ring :
    ({ live with clk.lock := true }.clk.xtalFail = false) ∧ ({ live with span.lock := true }.spanOn = true ∧ live.span.role = 0) ∧
    ({ live with span.role := 3, span.joined := true }.span.joined = true) ∧ ({ live with span.split := true, span.lock := true }.spanOn = true) ∧
    live.span.lock = false ∧ live.span.split = false ∧ (17 % 16 = { live with pins.gpos := 1 }.pins.gpos) ∧
    (100 < { live with spanx.crcRun := 101 }.spanx.crcRun ∧ live.spanx.crcDone = false ∧ live.spanx.crcRun ≤ 100) ∧
    heard { typ := 1, src := 1, hops := 0, dst := 0xFF, frame := 0, payload := zeros 33 } { live with span.lock := true, span.role := 1 } = true ∧
    (claimOf { typ := 1, src := 1, hops := 0, dst := 0xFF, frame := 0, payload := zeros 33 }).pos < { live with pins.gpos := 1 }.pins.gpos ∧
    ((claimOf { typ := 1, src := 1, hops := 0, dst := 0xFF, frame := 0, payload := zeros 33 }).pos = live.pins.gpos ∧
      (claimOf { typ := 1, src := 1, hops := 0, dst := 0xFF, frame := 0, payload := zeros 33 }).uid < { live with otp.uid := 1 }.otp.uid) ∧
    live.otp.uid < (claimOf { typ := 1, src := 1, hops := 0, dst := 0xFF, frame := 0, payload := 0 :: (le 8 (2 ^ 63) ++ zeros 24) }).uid ∧
    getBit live.span.members 0 = false ∧ atLeastSince 10240 none 0 = true ∧
    firstMissing live.required (live.chan.accepted.getD 0) = none := by decide

theorem test_met_packets :
    let p (typ n : Nat) (first : Byte) : Packet := { typ := typ, src := 1, hops := 0, dst := 0, frame := 0, payload := first :: zeros (n - 1) }
    let lead : State := { live with span.lock := true, span.role := 2, span.members := 3, span.joined := true }
    let follow : State := { live with span.lock := true, span.role := 3, span.members := 3, span.joined := true }
    (lead.spanx.beaconSent = false ∧ { lead with frame.running := true }.framesRun = true) ∧
    heard (p 2 64 0) follow = true ∧ (p 2 64 0).payload.length = 64 ∧ (p 2 64 0).src % 16 ≠ follow.pins.gpos ∧
    (firstMissing follow.required (follow.chan.accepted.getD 0)).isSome = false ∧
    farTime (tickDiff (beaconPlace (p 2 64 0) { follow with clk.tb := 0 }) (leAt (p 2 64 0).payload 4 6)) = false ∧
    farTime (tickDiff (beaconPlace (p 2 64 0) { follow with clk.tb := 20000 }) (leAt (p 2 64 0).payload 4 6)) = true ∧
    (heard (p 6 6 3) lead = true ∧ byteAt (p 6 6 3).payload 0 = 3 ∧ byteAt (p 6 6 0).payload 0 = 0 ∧ byteAt (p 6 6 1).payload 0 = 1) ∧
    getBit lead.span.heldMask 1 = false ∧ getBit lead.span.members 1 = true ∧ heard (p 8 1 0) lead = true ∧
    (heard (p 7 9 0) follow = true ∧ leAt (p 7 9 0).payload 1 4 = 0) ∧
    (heard (p 3 68 0) lead = true ∧ (p 3 68 0).frame = lead.frame.n % 256) ∧
    (heard (p 9 17 31) lead = true ∧ byteAt (p 9 17 31).payload 0 < 32) ∧ (heard (p 10 9 31) follow = true ∧ follow.inSpan = true) ∧
    (heard (p 11 3 0) follow = true ∧ heard (p 11 3 1) lead = true ∧ byteAt (p 11 3 1).payload 0 ≠ 0) := by decide

theorem test_met_stitch :
    let lead : State := { live with span.lock := true, span.role := 2, span.members := 3, span.joined := true, frame.phase := 1 }
    let p : Packet := { typ := 4, src := 1, hops := 0, dst := 0, frame := 0, payload := zeros 18 }
    (lead.inSpan = true ∧ lead.spanx.stitchSent = false) ∧
    (heard p lead = true ∧ getBit lead.span.members (p.src % 16) = true ∧ p.src % 16 ≠ lead.pins.gpos ∧
      p.frame = lead.frame.comp % 256 ∧ lead.member (p.src % 16) = none) ∧ lead.spanx.stitches = [] ∧
    { lead with spanx.stitchSent := true }.spanx.stitchSent = true ∧
    (32 ≤ { lead with spanx.lateRuns := lead.spanx.lateRuns.set 15 32 }.spanx.lateRuns.getD 15 0 ∧
      lead.spanx.lateDone.getD 15 false = false) := by decide

/-- Straps at 0, VIN of 5 V. -/
def input : BootInput := { boot := 0, gpos := 0, haddr := 0, hsm := false, tcrit := 0, xtal := true, vin := 500, testLow := false }

theorem test_met_reset :
    (State.reset.chan.rdy = false ∧ State.reset.pins.testMode = false ∧ 435 ≤ 435 ∧ State.reset.pins.resetLow = false) ∧
    live.aon.mode ≠ .off ∧ live.pins.resetLow = false ∧ { live with pins.resetLow := true }.pins.resetLow = true ∧
    ({ live with aon.mode := .safe, aon.scWdog := true, chan.tw.session := false, chan.hs.session := false }.clk.xtalFail = false) ∧
    434 < 435 ∧ { input with testLow := true }.testLow = true ∧ memoriesOk State.reset := by
  refine ⟨by decide, by decide, by decide, by decide, by decide, by decide, by decide, by unfold memoriesOk; decide⟩

/-! ### Single steps -/

/-- A pin reset holds the part, and closes the sessions (R542). -/
theorem test_pin_reset : let t := ran (.pinReset true input) live
    t.chan.tw.session = false ∧ t.chan.accepted = none ∧ t.rst.kind = 3 ∧ t.pins.resetLow = true := by decide
set_option maxRecDepth 40000 in
/-- A dip below 4.40 V latches fault 13 (R70, R336). -/
theorem test_dip : let t := ran (.dip 439) live
    t.power.dip = true ∧ t.chan.faults = 0x2000 := by decide
/-- The part in SAFE refuses what R52 does not serve, with LOCKED. -/
theorem test_safe_locks : (ran (.ctxOpen (unit [0, 0, 0, 0, 0, 0, 0, 0])) { live with aon.mode := .safe }).chan.tw.reply =
    .fixed [0x0F#8] := by decide
set_option maxRecDepth 40000 in
/-- A clamp counts on its pin alone (R151). -/
theorem test_clamp : let t := ran (.clamp 5) { live with power.domSense := true }
    t.clamp.counters.getD 5 0 = 1 ∧ t.clamp.counters.getD 6 0 = 0 ∧ getBit t.clamp.flags 5 = true := by decide
/-- A packet of another part goes on with one more hop (R431). -/
theorem test_forward : ((ran (.packetForward { typ := 9, src := 3, hops := 4, dst := 0xFF, frame := 0, payload := [] } true 0)
    { live with span.lock := true }).spanx.sent.map (·.hops)) = [5] := by decide
/-- A program clears bits and sets none (R411). -/
theorem test_program : let s := programFlash 16 [0x0F] (programFlash 16 [0xF3] live)
    readFlash s 15 3 = [0xFF, 0x03, 0xFF] := by decide
theorem test_met_step : memoriesOk live ∧ step live = .next (advance 1 live) ∧ live.pending = [] := by
  exact ⟨by unfold memoriesOk; decide, rfl, rfl⟩
theorem test_met_words : (Instr.add { d := 1, a := 2, b := 3, s := false, rsv := 0 }).wf = true ∧
    encodeWord (.add { d := 1, a := 2, b := 3, s := false, rsv := 0 }) = some 0x0048C000#32 ∧
    (0xFFFFFFFF#32).toNat / 2 ^ 26 = 0x3F ∧ (0x16#32).toNat / 2 ^ 26 = 0 ∧ 22 ≤ (0x16#32).toNat % 32 := by decide

/-! ### Further states: every case of the widened statements -/

/-- What most commands need, on a part with both sessions; a context, and room within the bounds. -/
theorem test_met_served : served [3, 48, 64, 80, 83] 240 (unit []) (reached 0x30 false (unit []) live) ∧
    notFollower (reached 0x30 false (unit []) live) ∧ ofCtx [3] (unit [0]) (reached 0x19 false (unit [0]) (withCtx 3 live)) ∧
    spare (some 0) (reached 0x16 false (unit [0]) (withCtx 3 live)) ∧ served [] 4096 (frame 0x30 7 [0, 0]) wired := by
  refine ⟨⟨by unfold inSession; decide, by decide, by decide, by decide, fun h => by cases h⟩, ⟨by decide, by decide⟩,
    ⟨by decide, by decide, by decide⟩, ⟨by decide, ?_⟩,
    ⟨by unfold inSession; decide, by decide, by decide, by decide, fun _ h => by cases h⟩⟩
  intro i h; cases h; decide

theorem test_taken_leader :
    taken 0x10 cmdCtxOpen [0, 0xFF, 0x07, 3, 0, 4, 0, 0] { live with span.role := 2 } = true ∧
    taken 0x11 cmdCtxClose [0] { withCtx 1 live with span.role := 2 } = true ∧
    taken 0x11 cmdCtxClose [0] (withCtx 3 live) = true ∧
    taken 0x80 cmdSpanConfig spanRecord { live with span.role := 2 } = true ∧
    taken 0x83 cmdSpanPull [] { live with span.role := 5 } = true := by decide

/-- An image of one word of code, entered at 0 for the frame, with no room. -/
def image : List Byte :=
  let h := le 4 0x4E594C56 ++ le 2 1 ++ le 2 0 ++ zeros 16 ++ le 4 4 ++ le 4 0 ++ le 4 0xFFFFFFFF ++ le 4 0 ++ le 4 0xFFFFFFFF ++
    le 4 0xFFFFFFFF ++ zeros 12
  let b := h ++ le 4 (crc32c h) ++ zeros 4
  b ++ sha256 b

/-- The same in flash at 0x4000, under the window. -/
def imageInFlash : State := { withCtx 1 stored with mem.flash := Memory.writeN 0xFF [] 0x4000 (zeros 64), mem.xipEn := true }

set_option maxRecDepth 100000 in
theorem test_met_header : headerResult (loading 0) ((loading 0).ctx 0).caps (some 100) (image.take 64) = 0 ∧
    headerResult (loading 0) ((loading 0).ctx 0).caps (some 100) (zeros 64) ≠ 0 ∧
    (reserve false 0 4 (loading 0)).isSome = true ∧ ((loading 63).session 0).map (·.bytes.length) = some 63 := by decide +kernel

set_option maxRecDepth 100000 in
theorem test_met_verified :
    finalResult (loading 0) ((loading 0).ctx 0).caps 100 image = 0 ∧ ((loading 0).fut 0).st = 1 ∧ ((withCtx 3 live).fut 0).st = 3 ∧
    (flashImage { withCtx 1 stored with mem.flash := Memory.writeN 0xFF [] 0x4000 image } 0 0x4000).1 = 0 ∧
    (flashImage imageInFlash 0 0x4000).1 ≠ 0 ∧ (flashImage imageInFlash 0 0x100000).1 = 0x0F := by decide +kernel

theorem test_met_binding : ((withCtx 1 live).ctx 0).st ≠ 3 ∧ ((withCtx 1 live).ctx 0).st ≠ 0 ∧ 0 < (withCtx 1 live).ctxs.length ∧
    ((withCtx 3 live).ctx 0).st = 3 ∧ (live.ctx 0).st = 0 ∧ ((withCtx 5 live).ctx 0).st = 5 ∧
    dueAtK live { port := .tw, code := 0x16, payload := [0] } = true ∧
    startWaits { port := .tw, code := 0x15, payload := [0, 0] } (withCtx 2 live) = false ∧
    (∃ w, { live with otp.write := some { ledger := false, slot := 2, hash := [], sigreq := true, tag := some 0 } }.otp.write = some w ∧
      w.slot = 2) ∧ live.otp.write = none := by
  refine ⟨by decide, by decide, by decide, by decide, by decide, by decide, by decide, by decide, ⟨_, rfl, by decide⟩, by decide⟩

set_option maxRecDepth 40000 in
theorem test_met_settings : ({ live with cal.save := some live.cal.d }.cal.save = some live.cal.d) ∧ live.cal.save = none ∧
    ({ live with aon.mode := .safe }.aon.mode = .safe) ∧ (live.aon.mode ≠ .safe ∧ live.span.role ≠ 3 ∧ live.span.role ≠ 4) ∧
    { live with spanx.relays := [(3, 7)] }.spanx.relays = (3, 7) :: [] ∧ live.spanx.relays = [] ∧
    (live.fe.sets[2]?).isSome = true := by decide

theorem test_met_gates :
    ({ live with clk.held := false }.clk.onKeeper = false ∧ { live with clk.held := false }.clk.held = false) ∧
    (live.clk.gates.length < 8 ∧ getBit { live with cal.freeze := 0x80 }.cal.freeze 7 = true) ∧
    (live.clk.spare = true ∧ live.power.domCore = true ∧ live.clk.xtalFail = false) ∧
    ({ live with clk.spare := false }.clk.spare = false) ∧ ({ live with power.domCore := false }.power.domCore = false) ∧
    (live.clk.xtalFail = false ∧ live.clk.goodRun < 8) ∧ live.meter.boostOn = false ∧ { live with meter.boostOn := true }.meter.boostOn = true ∧
    (((fanned 3 0).modFan 0 (fun f => { f with failed := true })).fan 0).failed = true ∧ (0 < ((fanned 5 0).modFan 0 (fun f =>
      { f with target := 700 })).thermal.fans.length) := by decide

theorem test_met_choice :
    ({ live with md.forced := some ⟨.active, 6, 0⟩ }.md.forced = some ⟨.active, 6, 0⟩ ∧ live.md.hibEntry = false) ∧
    ({ live with aon.mode := .boot, chan.accepted := none }.md.forced = none) ∧ live.span.role = 0 ∧
    ({ live with aon.mode := .safe, md.pending := some (⟨.active, 4, 0⟩, 6) }.md.pending ≠ none) ∧ live.md.pending = none ∧
    ({ live with aon.mode := .safe }.safeCause = false ∧ live.chan.accepted ≠ none) ∧
    (0x28 = 0x28 + live.pins.haddr ∧ { live with aon.mode := .doze, clk.coreStopped := true }.clk.coreStopped = true) ∧
    ({ live with md.hibEntry := true, aon.enTw := true, aon.enHs := true }.md.hibEntry = true ∧ live.aon.mode ≠ .hibernate ∧
      live.aon.mode ≠ .doze) ∧ (live.aon.mode ≠ .service ∧ live.aon.mode ≠ .boot) ∧
    (¬ { live with aon.enGpio := true, aon.gpioMask := 1 }.aon.gpioMask.getLsbD 1 = true ∧
      { live with aon.enGpio := true, aon.gpioMask := 1 }.aon.gpioMask.getLsbD 0 = true) ∧
    ({ live with aon.mode := .hibernate, md.hostService := true }.md.hostService = true ∧
      { live with aon.mode := .hibernate, md.houseRun := true }.md.houseRun = true) ∧
    ({ live with md.hibEntry := true, md.pending := some (⟨.hibernate, 0, 0⟩, 0) }.mem.op = none) := by decide

theorem test_met_pins :
    ({ live with power.domSense := true, clamp.runAt := live.clamp.runAt.set 9 (some 0), clamp.skipped := 0, clk.tb := 2000000
                 clamp.offAt := none }.clamp.runAt.getD 9 none = some 0) ∧
    0 + 1024000 ≤ { live with clk.tb := 2000000, clamp.offAt := none }.monitored ∧
    getBit { live with clamp.opened := setBit 0 147 true }.clamp.opened 147 = true ∧ live.fc.clip = 0 ∧
    live.clamp.lastClamp.getD 148 none = none ∧ getBit live.clamp.opened 5 = false ∧
    live.clamp.lastClamp.set 5 (some 9) ≠ live.clamp.lastClamp := by decide

set_option maxRecDepth 40000 in
theorem test_met_computation :
    let run : State := { live with frame.running := true, frame.sensed := true, clk.spare := false, span.role := 2, aon.rate := 5 }
    (run.framesRun = true ∧ run.frame.sensed = true ∧ run.frame.phase = 0 ∧ { run with frame.phase := 1 }.frame.phase = 1) ∧
    (run.clk.spare = false ∧ live.clk.spare = true ∧ framesIn run.sel = true ∧ run.aon.rate < 6 ∧ run.mayFrame = true) ∧
    ({ run with frame.started := true }.frame.started = true ∧ run.nextBeacon = none ∧ run.frame.started = false) ∧ run.span.role = 2 ∧
    live.span.role ≠ 2 ∧ live.clk.slew = 0 ∧
    (toSweep { live with aon.mode := .doze, aon.dozeHz := 4, clk.held := false }).clk.tb =
      (0 + 125 * ((65536 + 4) / (2 * max 1 4))) % 2 ^ 50 / 4 := by decide

theorem test_met_unit_ends :
    ((working 1 0).mem.susp = false ∧ (working 1 0).barred (opSlots (mkOp 1 0 0x4000 1 [0] none 0)) = false) ∧
    (working 2 0).barred (opSlots (mkOp 2 0 0x4000 1 [] none 0)) = false ∧ live.mem.xfer = none ∧
    { live with mem.susp := true }.mem.susp = true ∧ live.mem.op = none ∧
    { live with led.running := true }.led.running = true ∧ 0 < ((live.modCtx 31 (fun c => { c with queue.lost := 1 })).ctx 31).queue.lost ∧
    ((fanned 2 0).fan 0).hot = false ∧ ((fanned 2 0).modFan 0 (fun f => { f with hot := true })).fitted 0 = true := by decide

theorem test_met_ring_cases :
    let ring : State := { live with span.lock := true, span.members := 3, span.joined := true }
    let p : Packet := { typ := 1, src := 1, hops := 0, dst := 0xFF, frame := 0, payload := 1 :: zeros 32 }
    let m : Member := { pos := 1, uid := 1, feats := BitVec.allOnes 128, hash := 0, st := 1, hops := 1, latch := 0 }
    ({ ring with span.role := 1 }.span.role = 1 ∧ { ring with span.role := 3, span.joined := false }.span.joined = false) ∧
    (heard p { ring with span.role := 2 } = true ∧ (claimOf p).pos ≠ ring.pins.gpos ∧ getBit ring.span.members (claimOf p).pos = true ∧
      getBit ring.span.members 2 = false) ∧ { ring with span.role := 3 }.span.role = 3 ∧ ring.aon.mode ≠ .safe ∧
    (firstMissing ring.required 0).isSome = true ∧ (firstMissing ring.required m.feats).isSome = false ∧
    getBit ring.span.heldMask 1 = false := by decide

set_option maxRecDepth 100000 in
/-- A claim with this part's configuration, and one with another. -/
theorem test_met_hashes : leAt (spanHash live) 0 8 = leAt (spanHash live) 0 8 ∧ leAt (spanHash live) 0 8 ≠ 0 := by
  exact ⟨rfl, by decide +kernel⟩

theorem test_met_span_packets :
    let lead : State := { live with span.lock := true, span.role := 2, span.members := 3, span.joined := true }
    let p (typ : Nat) (b : List Byte) : Packet := { typ := typ, src := 1, hops := 0, dst := 0, frame := 0, payload := b }
    (heard (p 6 (4 :: zeros 5)) lead = true ∧ byteAt (p 6 (4 :: zeros 5)).payload 0 = 4) ∧
    (byteAt (p 6 (2 :: zeros 5)).payload 0 ∉ [0, 3, 4]) ∧
    (heard (p 9 [0xFF]) lead = true ∧ (p 9 [0xFF]).frame = lead.frame.comp % 256) ∧
    (heard (p 10 [31]) lead = true ∧ lead.inSpan = true ∧ byteAt (p 10 [31]).payload 0 < 32) ∧
    { lead with spanx.relays := [(1, 9)] }.spanx.relays = ((p 11 [1, 0, 0]).src % 16, 9) :: [] ∧
    (∀ r ∈ { lead with spanx.relays := [(2, 9)] }.spanx.relays, r.1 ≠ (p 11 [1, 0, 0]).src % 16) ∧
    (byteAt ([0, 0] ++ zeros 49 ++ [1] ++ zeros 12) 51 = 1) ∧
    { lead with spanx.proposal := some { kind := 1, phase := 1, effect := 2, subject := zeros 8, ready := 0, refused := false }
      }.spanx.proposal.isSome = true := by decide

theorem test_met_decisions :
    let lead : State := { live with span.lock := true, span.role := 2, span.members := 3, span.joined := true, frame.phase := 1 }
    let c : Cand := { key := 1, peak := 7, amp := 100, cls := 1, count := 4, onset := 0, areaOk := true, nodes := 4, x := 0, y := 0,
                      axis := 0, matched := true, waiting := true, byForce := false, held := false, isNew := false }
    let e : Entry := { pos := 0, peak := 7, kind := 3, id := 0, owner := 0, gx := 0, gy := 0, cls := 1, count := 4, onset := 0 }
    (seamFrags lead).length ≤ 6 ∧ { lead with spanx.stitchSent := true }.spanx.stitchSent = true ∧
    ({ lead with spanx.table := [{ pos := 1, uid := 1, feats := 0, hash := 0, st := 2, hops := 1, latch := 0 }] }.member 1).isSome = true ∧
    (e.kind = 3 ∧ { live with pipe.cands := [c] }.pipe.cands.find? (fun c => c.peak == e.peak) = some c ∧
      { live with pipe.cands := [c] }.places ≠ 0) ∧ { e with kind := 2 }.kind = 2 ∧ lead.span.role = 2 ∧
    ({ live with frame.phase := 1 }.inSpan = false) := by decide

end Sys2Proof.Tests
end

/-! Units that are rejected at step 1 or 2 of R303, and codes that name no command (R9, R325, R379). -/

namespace Sys2Proof.Machine
open Sys2Proof Sys2Proof.Safety

/-- Step 3 of R303 refuses a code that is not assigned before any other check. -/
theorem judged_unassigned (code : Nat) (resync : Bool) (u : HostUnit) (s : State) :
    judged code resync unassigned u s = 0x01 := rfl

theorem exec_unassignedCode (u : HostUnit) (code : Nat) (s : State) (h : assignedCode code = false) :
    exec (.unassignedCode u code) s = .next (hostUnit code false unassigned u s) := by
  change execUnassignedCode u code s = _
  simp [execUnassignedCode, h]

/-- On a port that serves and is present a serial transaction sends the held reply, then takes what came in. -/
theorem hsTransact_present (clocks : Nat) (mode3 : Bool) (inward : State → State) (s : State)
    (hs : s.serves = true) (hp : (hsEdge clocks mode3 s).hs.present = true) :
    hsTransact clocks mode3 inward s = inward (hsReply (hsEdge clocks mode3 s)) := by
  simp [hsTransact, hs, hp]

theorem exec_unitRejected_tw (u : HostUnit) (code : Nat) (cut : Bool) (s : State) (hu : u.port = .tw)
    (hs : s.serves = true) (h : cut = true ∨ twFate code u s = .badCheck) :
    exec (.unitRejected u code cut) s = .next (twReject (twBegin s)) := by
  have hbad : (cut || twFate code u s == .badCheck) = true := by simpa using h
  change execUnitRejected u code cut s = _
  simp [execUnitRejected, hu, hs, hbad]

/-- Both fates are needed: the row asks the first, and the rejection takes its cause from the second. -/
theorem exec_unitRejected_hs_badAlive (u : HostUnit) (code : Nat) (s : State) (hu : u.port = .hs)
    (hs : s.serves = true) (hp : (hsEdge u.clocks u.mode3 s).hs.present = true)
    (ht : hsFate code (code == 0x08) u (hsEdge u.clocks u.mode3 s) = .badAlive)
    (hr : hsFate code (code == 0x08) u (hsReply (hsEdge u.clocks u.mode3 s)) = .badAlive) :
    exec (.unitRejected u code false) s =
      .next (hsReject code u .badAlive (hsReply (hsEdge u.clocks u.mode3 s))) := by
  change execUnitRejected u code false s = _
  simp [execUnitRejected, hu, hs, ht, hsTransact_present, hp, hr]

theorem exec_repeatFrame (u : HostUnit) (code : Nat) (s : State) (hu : u.port = .hs) (hs : s.serves = true)
    (hp : (hsEdge u.clocks u.mode3 s).hs.present = true) (h : hsFate code (code == 0x08) u s = .repeated) :
    exec (.repeatFrame u code) s = .next (hsReply (hsEdge u.clocks u.mode3 s)) := by
  change execRepeatFrame u code s = _
  simp [execRepeatFrame, hu, h, hsTransact_present, hs, hp]

/-- What a rejection of a command write changes: the counter, BADF and the held reply. -/
theorem twReject_eq (s : State) : twReject s = { s with
    tw.check := min 65535 (s.tw.check + 1)
    chan.tw := { s.chan.tw with badf := true, reply := .fixed [0x03#8], copied := none } } := rfl

/-- What a wrong alive counter changes: the alive byte of replies, the counter, BADF and the held reply. -/
theorem hsReject_badAlive (code : Nat) (u : HostUnit) (s : State) : hsReject code u .badAlive s = { s with
    hs.replyAlive := u.alive % 256
    hs.alive := min 65535 (s.hs.alive + 1)
    chan.hs := { s.chan.hs with badf := true, reply := .fixed [0x04#8], copied := none } } := rfl

/-- Settles O30: an unassigned code is refused at step 3; the other rows are rejections at steps 1 and 2, and a repeated
frame brings nothing in. -/
theorem rejectedUnits : Obligations.RejectedUnits := by
  refine ⟨?unassigned, ?badCheck, ?badAlive, ?repeated⟩
  case unassigned =>
    intro u code s hcode hpass
    rw [exec_unassignedCode u code s hcode,
      hostUnit_refused code false unassigned u s 0x01 hpass (judged_unassigned code false u s) (by decide)]
    rfl
  case badCheck =>
    intro u code cut s hu hs hbad
    rw [exec_unitRejected_tw u code cut s hu hs hbad, twReject_eq]
  case badAlive =>
    intro u code s hu hs t r hp ht hr
    rw [exec_unitRejected_hs_badAlive u code s hu hs hp ht hr, hsReject_badAlive]
  case repeated =>
    intro u code s hu hs hp h
    exact exec_repeatFrame u code s hu hs hp h

end Sys2Proof.Machine

/-! Rows of the contact pipeline and of calibration: surface, shadows, contacts, noise units and baselines. -/

namespace Sys2Proof.Machine
open Sys2Proof Sys2Proof.Safety

/-- A row that answers `g` acts where `g` is the effect under the condition and leaves the state elsewhere. -/
theorem actsWhen_of {x : Instr} {cond : State → Prop} {f g : State → State} (hrow : ∀ s, exec x s = .next (g s))
    (hon : ∀ s, cond s → g s = f s) (hoff : ∀ s, ¬ cond s → g s = s) : actsWhen x cond f := by
  intro s
  rw [hrow]
  exact ⟨fun h => by rw [hon s h], fun h => by rw [hoff s h]⟩

/-- A row whose function opens with a test that leaves the state acts where the test fails. -/
theorem actsWhen_unless {x : Instr} {cond : State → Prop} {f : State → State} (stop : State → Bool)
    (hrow : ∀ s, exec x s = .next (if stop s then s else f s)) (hstop : ∀ s, stop s = false ↔ cond s) :
    actsWhen x cond f := by
  refine actsWhen_of hrow (fun s h => ?_) (fun s h => ?_)
  · simp [(hstop s).2 h]
  · have : stop s = true := by
      by_contra hf
      exact h ((hstop s).1 (by simpa using hf))
    simp [this]

/-! ### Candidates -/

/-- No candidate is due while the surface is swamped or the frame is not counted (R180, R184). -/
theorem dueCands_of_not_counted (s : State)
    (h : s.pipe.surface.swamped = true ∨ s.pipe.surface.swampHold = true ∨ s.pipe.counted = false) : dueCands s = [] := by
  rcases h with h | h | h <;> simp [dueCands, h]

/-! ### Noise units -/

/-- A noise unit moves only once 16 values came in since its last move (R190). -/
theorem nuUpdate_nus_of_not_fresh (s : State) (r : Nat) (x : NuSt) (hx : s.cal.d.nus[r]? = some x) (hf : x.fresh < 16) :
    (nuUpdate s).cal.d.nus[r]? = some x := by
  have : ¬ 16 ≤ x.fresh := by omega
  simp [nuUpdate, State.modCal, hx, this]

theorem nuUpdate_nus_length (s : State) : (nuUpdate s).cal.d.nus.length = s.cal.d.nus.length := by
  simp [nuUpdate, State.modCal]

/-! ### Baselines -/

theorem tarnMove_frozen (up : Bool) (step : Int) (t : Tarn) (b : Int) : (tarnMove true up step t b).2.1 = b := by
  unfold tarnMove
  split <;> rfl

/-- A frozen plane keeps its baselines. -/
theorem movePlane_frozen (up : Bool) (step : Nat → Int) (ts : List Tarn) (bs : List Int) (h : ts.length = bs.length) :
    (movePlane true up step ts bs).2.1 = bs := by
  apply List.ext_getElem
  · simp [movePlane, h]
  · intro i _ _
    simp [movePlane, tarnMove_frozen]

/-! ### Reports of calibration -/

/-- Where every rail is either short of four moves or reported, nothing is written. -/
theorem railReport_of_none_due (s : State)
    (h : ∀ i < 94, s.cal.railRuns.getD i 0 < 4 ∨ s.cal.railDone.getD i false = true) : railReport s = s := by
  have hnone : filterIdx 94 (fun i => 4 ≤ s.cal.railRuns.getD i 0 && !s.cal.railDone.getD i false) = [] := by
    rw [filterIdx, List.filter_eq_nil_iff]
    intro i hi
    have := h i (List.mem_range.1 hi)
    grind
  rw [railReport, hnone]
  rfl

/-- Settles O49: each row is its function of the pipeline or of calibration; the rows with a condition are taken apart
into the case where it holds and the case where the function leaves the state. -/
theorem pipelineRows : Obligations.PipelineRows := by
  refine ⟨?wetEnter, ?wetLeave, ?swamped, ?swampEnd, ?shadow, ?contactEnd, ?confirm, ?approach, ?noise, ?baseline, ?rail⟩
  case wetEnter =>
    exact actsWhen_unless (fun s => s.pipe.surface.nextWet || s.pipe.surface.wetRun < 2) (fun s => rfl) (fun s => by grind)
  case wetLeave =>
    exact actsWhen_unless (fun s => !s.pipe.surface.nextWet || s.pipe.surface.dryRun < 256) (fun s => rfl) (fun s => by simp)
  case swamped =>
    exact actsWhen_unless (fun s => s.pipe.surface.swamped || s.pipe.surface.swampRun < 8) (fun s => rfl) (fun s => by simp)
  case swampEnd =>
    exact actsWhen_unless (fun s => !s.pipe.surface.swamped || s.pipe.surface.clearRun < 8) (fun s => rfl) (fun s => by simp)
  case shadow => exact fun s => rfl
  case contactEnd => exact fun s => rfl
  case confirm =>
    refine actsWhen_of (fun _ => rfl) ?_ ?_
    · rintro s ⟨hspan, hswamp, hhold, hcount⟩
      simp [confirmCands, dueCands, hspan, hswamp, hhold, hcount]
    · intro s h
      by_cases hspan : s.inSpan = true
      · simp [confirmCands, hspan]
      · have hdue := dueCands_of_not_counted s (by grind)
        simp [confirmCands, hdue]
  case approach => exact actsWhen_of (fun s => rfl) (fun s h => if_pos h) (fun s h => if_neg h)
  case noise =>
    exact fun s => ⟨nuUpdate s, rfl, rfl, nuUpdate_nus_length s, nuUpdate_nus_of_not_fresh s⟩
  case baseline =>
    refine fun s => ⟨baselineStep s, rfl, rfl, rfl, rfl, rfl, ?_⟩
    intro hfreeze hlen
    have hfz : s.frozen 0 = true := hfreeze
    change (movePlane (s.frozen 0) true (nodeStep s) s.cal.tarns.ia s.cal.d.bia).2.1 = s.cal.d.bia
    rw [hfz, movePlane_frozen true _ _ _ hlen]
  case rail => exact fun s => ⟨rfl, railReport_of_none_due s⟩

end Sys2Proof.Machine

/-! What writing a record can change: the channel, the journal, the contexts' queues and the two-wire port (R19, R314-R322). -/

namespace Sys2Proof.Machine
open Sys2Proof Sys2Proof.Safety

/-- A signal touches the signals of a port and the two-wire port's requests. -/
theorem raise_frame (p : Port) (s : State) : raise p s = { s with
    chan.tw := (raise p s).chan.tw
    chan.hs := (raise p s).chan.hs
    tw := (raise p s).tw } := by
  unfold raise
  split
  · rfl
  · cases p with
    | tw => dsimp only; split <;> split <;> rfl
    | hs => rfl

/-- Only the channel, the journal, the contexts and the two-wire port differ: what records are kept in and signalled by. -/
def reportsOnly (s t : State) : Prop := t = { s with chan := t.chan, jrn := t.jrn, ctxs := t.ctxs, tw := t.tw }

theorem reportsOnly.refl (s : State) : reportsOnly s s := rfl

theorem reportsOnly.trans {s t u : State} (h : reportsOnly s t) (h' : reportsOnly t u) : reportsOnly s u := by
  unfold reportsOnly at *
  rw [h', h]

theorem reportsOnly.foldl {α : Type} {f : State → α → State} (hf : ∀ s a, reportsOnly s (f s a)) (xs : List α) (s : State) :
    reportsOnly s (xs.foldl f s) :=
  xs.foldlRecOn f (reportsOnly.refl s) (fun t ht a _ => ht.trans (hf t a))

theorem reportsOnly_raise (p : Port) (s : State) : reportsOnly s (raise p s) := by
  rw [raise_frame]
  rfl

theorem reportsOnly_modPort (p : Port) (f : PortSt → PortSt) (s : State) : reportsOnly s (s.modPort p f) := by
  cases p <;> rfl

theorem reportsOnly_modCtx (i : Nat) (f : Ctx → Ctx) (s : State) : reportsOnly s (s.modCtx i f) := rfl

theorem reportsOnly_deliver (p : Port) (rs : List QRec) (s : State) : reportsOnly s (deliver p rs s) := by
  refine reportsOnly.foldl (fun t r => ?_) rs s
  split
  · exact reportsOnly_modPort p _ t
  · rfl

theorem reportsOnly_dropped (i n : Nat) (s : State) : reportsOnly s (dropped i n s) := by
  unfold dropped
  split
  · rfl
  · exact (reportsOnly_modCtx i _ s).trans (reportsOnly_modPort _ _ _)

theorem reportsOnly_pubCtx (pub i : Nat) (s : State) : reportsOnly s (pubCtx pub i s) :=
  (reportsOnly_modCtx i _ s).trans (reportsOnly_dropped i _ _)

theorem reportsOnly_raiseIf (b : Bool) (p : Port) (s : State) : reportsOnly s (if b then raise p s else s) := by
  split
  · exact reportsOnly_raise p s
  · rfl

theorem reportsOnly_publish (s : State) : reportsOnly s (publish s) := by
  have hopen : reportsOnly s { s with chan.pubs := s.chan.pubs + 1, chan.staged := [], jrn.shown := s.jrn.next } := rfl
  exact hopen.trans <| (reportsOnly_deliver .tw _ _).trans <| (reportsOnly_deliver .hs _ _).trans <|
    (reportsOnly.foldl (fun t i => reportsOnly_pubCtx _ i t) _ _).trans <|
    (reportsOnly_raiseIf _ .tw _).trans (reportsOnly_raiseIf _ .hs _)

theorem reportsOnly_pubIdle (s : State) : reportsOnly s (pubIdle s) := by
  unfold pubIdle
  split
  · rfl
  · exact reportsOnly_publish s

theorem reportsOnly_putHouse (time typ : Nat) (payload : List Byte) (s : State) :
    reportsOnly s (putHouse time typ payload s) := by
  refine reportsOnly.trans ?_ (reportsOnly_pubIdle _)
  rfl

theorem reportsOnly_putQueue (i o : Nat) (r : Rec) (s : State) : reportsOnly s (putQueue i o r s) :=
  (reportsOnly_modCtx i _ s).trans (reportsOnly_dropped i _ _)

theorem reportsOnly_putCtx (i : Nat) (r : Rec) (s : State) : reportsOnly s (putCtx i r s) := by
  have hj : reportsOnly s (journal r s) := rfl
  exact hj.trans <| (reportsOnly_putQueue i _ r _).trans (reportsOnly_pubIdle _)

section
variable {s t : State} (h : reportsOnly s t)
include h

theorem reportsOnly.cal : t.cal = s.cal := by rw [h]
theorem reportsOnly.fe : t.fe = s.fe := by rw [h]
theorem reportsOnly.planes : t.planes = s.planes := by rw [h]
theorem reportsOnly.frame : t.frame = s.frame := by rw [h]

end

/-! ### Publication -/

/-- Every record of a context's queue has been published (R19). -/
def queuePublished (i : Nat) (s : State) : Prop := ∀ r ∈ (s.ctx i).queue.recs, r.pub.isSome = true

theorem modAt_of_length_le {α : Type} (f : α → α) (i : Nat) (xs : List α) (h : xs.length ≤ i) : modAt f i xs = xs := by
  induction xs generalizing i with
  | nil => cases i <;> rfl
  | cons x xs ih =>
    cases i with
    | zero => simp at h
    | succ n => simp [modAt, ih n (by simpa using h)]

/-- A context after a change of context `i`: the change is seen where `i` is one of the contexts, and nowhere else. -/
theorem State.ctx_modCtx (s : State) (i j : Nat) (f : Ctx → Ctx) :
    (s.modCtx i f).ctx j = if j = i ∧ i < s.ctxs.length then f (s.ctx i) else s.ctx j := by
  by_cases hj : j = i
  · subst hj
    by_cases hlen : j < s.ctxs.length
    · simp [State.ctx_modCtx_same s j f hlen, hlen]
    · simp [State.modCtx, State.ctx, modAt_of_length_le f j s.ctxs (Nat.not_lt.1 hlen), hlen]
  · simp [State.ctx_modCtx_other s i j f hj, hj]

@[simp] theorem State.ctx_modPort (s : State) (p : Port) (f : PortSt → PortSt) (j : Nat) : (s.modPort p f).ctx j = s.ctx j := by
  simp [State.ctx]

theorem dropped_recs (i n j : Nat) (s : State) : ((dropped i n s).ctx j).queue.recs = (s.ctx j).queue.recs := by
  unfold dropped
  split
  · rfl
  · rw [State.ctx_modPort, State.ctx_modCtx]
    split
    · rename_i h
      rw [h.1]
    · rfl

/-- The records of a queue after a publication of context `i`: those of `i` carry a number, the others stay. -/
theorem queuePublished_pubCtx (pub i j : Nat) (s : State) (h : j = i ∨ queuePublished j s) :
    queuePublished j (pubCtx pub i s) := by
  intro r hr
  rw [pubCtx, dropped_recs, State.ctx_modCtx] at hr
  split at hr
  · obtain ⟨q, -, rfl⟩ := List.mem_map.1 hr
    split <;> simp_all
  · rename_i hctx
    rcases h with rfl | h
    · have hlen : s.ctxs.length ≤ j := by omega
      have hclosed : s.ctx j = .closed := by simp [State.ctx, hlen]
      rw [hclosed] at hr
      cases hr
    · exact h r hr

/-- Once each of a list of contexts is published, the queue of each has published records only. -/
theorem queuePublished_foldl (pub j : Nat) (is : List Nat) (s : State) (h : j ∈ is ∨ queuePublished j s) :
    queuePublished j (is.foldl (fun s i => pubCtx pub i s) s) := by
  induction is generalizing s with
  | nil => simpa using h
  | cons i is ih =>
    refine ih _ ?_
    rcases h with h | h
    · rcases List.mem_cons.1 h with h | h
      · exact .inr (queuePublished_pubCtx pub i j s (.inl h))
      · exact .inl h
    · exact .inr (queuePublished_pubCtx pub i j s (.inr h))

/-- What a publication sets beside the queues: the staged records, the count of publications and the journal. -/
def publicationOf (s : State) : List QRec × Nat × Jrn := (s.chan.staged, s.chan.pubs, s.jrn)

theorem publicationOf_modPort (p : Port) (f : PortSt → PortSt) (s : State) :
    publicationOf (s.modPort p f) = publicationOf s := by
  cases p <;> rfl

theorem publicationOf_raise (p : Port) (s : State) : publicationOf (raise p s) = publicationOf s := by
  rw [raise_frame]
  rfl

theorem publicationOf_deliver (p : Port) (rs : List QRec) (s : State) : publicationOf (deliver p rs s) = publicationOf s := by
  refine rs.foldlRecOn (motive := fun t => publicationOf t = publicationOf s) _ rfl (fun t ht r _ => ?_)
  split
  · rw [publicationOf_modPort, ht]
  · exact ht

theorem publicationOf_dropped (i n : Nat) (s : State) : publicationOf (dropped i n s) = publicationOf s := by
  unfold dropped
  split
  · rfl
  · exact publicationOf_modPort _ _ _

theorem publicationOf_pubCtxs (pub : Nat) (is : List Nat) (s : State) :
    publicationOf (is.foldl (fun s i => pubCtx pub i s) s) = publicationOf s :=
  is.foldlRecOn (motive := fun t => publicationOf t = publicationOf s) _ rfl
    (fun _ ht i _ => (publicationOf_dropped i _ _).trans ht)

theorem raise_ctxs (p : Port) (s : State) : (raise p s).ctxs = s.ctxs := by rw [raise_frame]

/-- The signals at the end of a publication touch neither a queue nor what it has set. -/
theorem raiseIf_keeps (b : Bool) (p : Port) (s : State) :
    publicationOf (if b then raise p s else s) = publicationOf s ∧ (if b then raise p s else s).ctxs = s.ctxs := by
  split
  · exact ⟨publicationOf_raise p s, raise_ctxs p s⟩
  · exact ⟨rfl, rfl⟩

theorem publicationOf_publish (s : State) :
    publicationOf (publish s) = ([], s.chan.pubs + 1, { s.jrn with shown := s.jrn.next }) := by
  simp only [publish, raiseIf_keeps, publicationOf_pubCtxs, publicationOf_deliver]
  rfl

theorem queuePublished_raiseIf (b : Bool) (p : Port) (i : Nat) (s : State) :
    queuePublished i (if b then raise p s else s) ↔ queuePublished i s := by
  unfold queuePublished State.ctx
  rw [(raiseIf_keeps b p s).2]

theorem queuePublished_publish (s : State) (i : Nat) (hi : i < 32) : queuePublished i (publish s) := by
  rw [publish, queuePublished_raiseIf, queuePublished_raiseIf]
  exact queuePublished_foldl _ i _ _ (.inl (List.mem_range.2 hi))

end Sys2Proof.Machine

/-! Commands that set the front end, the bridges, calibration, the cap and the mode (R24, R76, R78, R123, R124, R158,
R210-R213). -/

namespace Sys2Proof.Machine
open Sys2Proof Sys2Proof.Safety

/-! ### Acceptance of a command -/

/-- The bounds of R304 have room exactly where they are not full. -/
theorem full_eq_false_iff_spare (ctx : Option Nat) (d : State) : d.full ctx = false ↔ spare ctx d := by
  cases ctx <;> simp [State.full, spare]

/-- A command that is served on both ports, needs a session and an accepted set, and is neither served in SAFE nor locked. -/
def Checks.ordinary (k : Checks) : Prop :=
  k.served = true ∧ k.free = false ∧ k.early = false ∧ k.safe = false ∧ k.locked = false

/-- The steps of R303 that a command's own layout and rules decide. -/
def Checks.ownSteps (k : Checks) (d : State) : Prop :=
  k.lenOk = true ∧ (k.held = true → notFollower d) ∧ k.perm = true ∧ k.busy = false ∧ k.inRange = true ∧
    (k.flight = true → spare k.ctx d)

theorem verdict_ordinary (u : HostUnit) (k : Checks) (d : State) (h : k.ordinary) :
    verdict u.port (d.port u.port).session k d = 0 ↔ served k.feats k.longest u d ∧ k.ownSteps d := by
  obtain ⟨hs, hf, he, hsafe, hl⟩ := h
  simp only [verdict_eq_zero, hs, hf, he, hsafe, hl, served, inSession, fits, notFollower, full_eq_false_iff_spare,
    Checks.ownSteps, Bool.false_eq_true, or_false, false_or, true_and]
  tauto

/-- The row of an ordinary command carries it out under the condition that the command's own steps come to. -/
theorem carries_ordinary {mk : HostUnit → Instr} {code : Nat} {c : Cmd} {cond : HostUnit → State → Prop}
    {f : HostUnit → State → Reply × State} (hrow : ∀ u s, exec (mk u) s = hostRow code c u s)
    (hord : ∀ (u : HostUnit) (d : State), (c.checks u.port u.payload d).ordinary)
    (hcond : ∀ (u : HostUnit) (d : State),
      served (c.checks u.port u.payload d).feats (c.checks u.port u.payload d).longest u d ∧
        (c.checks u.port u.payload d).ownSteps d ↔ cond u d)
    (hrun : ∀ (u : HostUnit) (e : State), c.run u.port u.payload e = f u e) : carries mk code c cond f := by
  intro u s hp
  have hj : judged code false c u s = 0 ↔ cond u (reached code false u s) :=
    (verdict_ordinary u _ _ (hord u _)).trans (hcond u _)
  refine ⟨hj, fun hc => ?_⟩
  have hacc : accepted code false c u s := ⟨hp, hj.2 hc⟩
  have hnext : exec (mk u) s = _ := (hrow u s).trans (hostRow_accepted code c u s hacc)
  rw [hrun] at hnext
  exact hnext

/-! ### Seeds and the save point -/

@[simp] theorem calRec_cal (sub item value frame : Nat) (s : State) : (calRec sub item value frame s).cal = s.cal :=
  (reportsOnly_putHouse _ _ _ s).cal

@[simp] theorem calRec_fe (sub item value frame : Nat) (s : State) : (calRec sub item value frame s).fe = s.fe :=
  (reportsOnly_putHouse _ _ _ s).fe

/-- The end of a fast settle changes of calibration only that the settle is over. -/
theorem endFast_cal (s : State) :
    (endFast s).cal = { s.cal with fastOn := (endFast s).cal.fastOn, fast := (endFast s).cal.fast } := by
  unfold endFast
  split
  · simp
  · rfl

@[simp] theorem endFast_cal_d (s : State) : (endFast s).cal.d = s.cal.d := by rw [endFast_cal]
@[simp] theorem endFast_cal_save (s : State) : (endFast s).cal.save = s.cal.save := by rw [endFast_cal]
@[simp] theorem endFast_cal_seeded (s : State) : (endFast s).cal.seeded = s.cal.seeded := by rw [endFast_cal]
@[simp] theorem endFast_fe (s : State) : (endFast s).fe = s.fe := by
  unfold endFast
  split
  · simp
  · rfl

/-- A value that is converted from a tuning word to the same word stays. -/
theorem roundDiv_mul_self (t n : Nat) (hn : n ≠ 0) : roundDiv ((t * n : Nat) : Int) (max 1 n) = t := by
  have hmax : max 1 n = n := by omega
  have hdiv : (2 * (t * n) + n) / (2 * n) = t :=
    Nat.div_eq_of_lt_le (by nlinarith) (by have := Nat.pos_of_ne_zero hn; nlinarith)
  have hpos : (0 : Int) ≤ ((t * n : Nat) : Int) := Int.natCast_nonneg _
  rw [hmax, roundDiv, if_pos hpos]
  exact_mod_cast hdiv

/-- A seed that passes its checks names a tuning word (R211). -/
theorem seedOk_word (s : State) (p : List Byte) (h : seedOk s p = true) : leAt p 12 4 ≠ 0 := by
  simp only [seedOk, Bool.and_eq_true, bne_iff_ne] at h
  tauto

theorem seedOk_length (s : State) (p : List Byte) (h : seedOk s p = true) : p.length = 240 := by
  simp only [seedOk, Bool.and_eq_true, beq_iff_eq] at h
  tauto

theorem byteAt_lt (p : List Byte) (i : Nat) : byteAt p i < 256 := (p.getD i 0).isLt

/-- Under the tuning word that it was taken at a seed's phase taps are taken over as they stand (R211). -/
theorem applySeed_tapA (p : List Byte) (s : State) (hok : seedOk s p = true) (hword : leAt p 12 4 = s.fe.wordA) :
    (applySeed p s).cal.d.tapA = (List.range 40).map (fun r => byteAt p (24 + r)) := by
  have hconv : ∀ r, (roundDiv ((byteAt p (24 + r) * s.fe.wordA : Nat) : Int) (max 1 s.fe.wordA)).toNat % 256 =
      byteAt p (24 + r) := by
    intro r
    rw [roundDiv_mul_self _ _ (hword ▸ seedOk_word s p hok), Int.toNat_natCast, Nat.mod_eq_of_lt (byteAt_lt p _)]
  have htap : (applySeed p s).cal.d.tapA = tabulate 40 (fun r =>
      (roundDiv ((byteAt p (24 + r) * s.fe.wordA : Nat) : Int) (max 1 (leAt p 12 4))).toNat % 256) := by
    unfold applySeed
    dsimp only
    split <;> simp [railOf, State.modCal]
  rw [htap, hword]
  simp only [tabulate, hconv]

/-- What a seed sets of calibration, whatever the tuning words are (R211). -/
theorem applySeed_sets (p : List Byte) (s : State) :
    let t := applySeed p s
    t.cal.d.gsc = (List.range 4).map (fun g => byteAt p (184 + g)) ∧ t.cal.d.rsc = byteAt p 188 ∧
    t.cal.d.trim = leAtS p 189 1 ∧ t.cal.d.rel = (List.range 4).map (fun k => leAt p (212 + 2 * k) 2) ∧
    t.cal.seeded = true ∧ t.fe = s.fe := by
  unfold applySeed
  dsimp only
  split <;> simp [railOf, State.modCal, tabulate]

theorem applyRestore_none (s : State) (h : s.cal.save = none) : applyRestore s = s := by
  simp only [applyRestore, h]

/-- What a restore brings back: the save point, with the windows of the noise units begun anew (R213). -/
theorem applyRestore_cal_d (s : State) (d : CalData) (h : s.cal.save = some d) :
    (applyRestore s).cal.d = { d with nus := d.nus.map (fun x => { x with window := [], fresh := 0, due := false }) } ∧
    (applyRestore s).cal.save = some d := by
  simp only [applyRestore, h]
  simp [railOf]

/-! ### Forced modes -/

/-- The modes and rates that POWER_FORCE accepts (R78). -/
theorem forceIn_eq (m r : Nat) : forceIn m r =
    if m = 2 ∧ r = 0 then some { mode := .hibernate, rate := 0, hz := 0 }
    else if m = 3 ∧ 4 ≤ r ∧ r ≤ 10 then some { mode := .doze, rate := 1, hz := r }
    else if m = 4 ∧ r = 0 then some { mode := .watch, rate := 2, hz := 0 }
    else if m = 5 ∧ 3 ≤ r ∧ r ≤ 6 then some { mode := .active, rate := r, hz := 0 }
    else if m = 6 ∧ 2 ≤ r ∧ r ≤ 6 then some { mode := .service, rate := r, hz := 0 }
    else none := by
  unfold forceIn
  split <;> simp_all

/-- In SAFE a force is noted, and takes hold when SAFE is left (R52, R53). -/
theorem powerForce_safe (m : Option ModeSel) (s : State) (hs : s.aon.mode = .safe) (hm : m ≠ none) :
    powerForce m s = { s with md.forced := m } := by
  obtain ⟨m, rfl⟩ := Option.ne_none_iff_exists'.1 hm
  simp [powerForce, hs]

theorem powerForce_chooses (m : ModeSel) (s : State) (hs : s.aon.mode ≠ .safe) (hf : notFollower s) :
    powerForce (some m) s = choose 0 { s with md.forced := some m } := by
  obtain ⟨h3, h4⟩ := hf
  simp [powerForce, hs, h3, h4]

/-! ### Front-end settings -/

/-- A profile that a host sets stands at once, but for a leader, which proposes it first (R24, R450). -/
theorem assignLater_eq (u : HostUnit) (code stock : Nat) (rec_ : List Byte) (s : State) :
    assignLater u.port code u.payload stock rec_ s = deferred code u
      (if s.span.role = 2 then s
       else { s with fe.sets := s.fe.sets.set (byteAt u.payload 0) { stock := stock, record := rec_ } }) := by
  by_cases h : s.span.role = 2 <;> simp [assignLater, State.leads, h, deferCmd, deferred, assignProfile]

/-- A boundary is done with the front-end settings that wait, a leader's profiles apart (R24). -/
theorem settingsDone_deferred (s : State) (hrole : s.span.role ≠ 2) :
    ∀ x ∈ (settingsDone s).chan.deferred, x.code ≠ 0x40 ∧ x.code ≠ 0x42 ∧ x.code ≠ 0xE1 := by
  intro x hx
  simp [settingsDone, hrole] at hx
  tauto

/-- Settles O37: each command is accepted under its own checks and does what its function says; the checks are taken apart
by `carries_ordinary`. -/
theorem settingCommands : Obligations.SettingCommands := by
  refine ⟨⟨?feProfile, ?feSet, ?forceCfg, ?calFreeze, ?calSeed, ?calSnapshot, ?calRestore, ?powerCap, ?powerForce⟩,
    ?atK, ?seed, ?restore, ?boundary, ?safe, ?force⟩
  case feProfile =>
    refine carries_ordinary (fun _ _ => rfl) (fun _ _ => ⟨rfl, rfl, rfl, rfl, rfl⟩) (fun u d => ?_) (fun u e => ?_)
    · simp [cmdFeProfile, Checks.ownSteps, and_assoc]
    · exact congrArg (done _) (assignLater_eq u 0x40 _ _ e)
  case feSet =>
    refine carries_ordinary (fun _ _ => rfl) (fun _ _ => ⟨rfl, rfl, rfl, rfl, rfl⟩) (fun u d => ?_) (fun u e => ?_)
    · simp [cmdFeSet, Checks.ownSteps, and_assoc]
    · exact congrArg (done _) (assignLater_eq u 0x42 _ _ e)
  case forceCfg =>
    refine carries_ordinary (fun _ _ => rfl) (fun _ _ => ⟨rfl, rfl, rfl, rfl, rfl⟩) (fun u d => ?_) (fun u e => ?_)
    · simp [cmdForceCfg, Checks.ownSteps, and_assoc]
    · simp only [cmdForceCfg, bit_eq_testBit]
      rfl
  case calFreeze =>
    refine carries_ordinary (fun _ _ => rfl) (fun _ _ => ⟨rfl, rfl, rfl, rfl, rfl⟩) (fun u d => ?_) (fun u e => ?_)
    · simp [cmdCalFreeze, Checks.ownSteps]
    · rfl
  case calSeed =>
    refine carries_ordinary (fun _ _ => rfl) (fun _ _ => ⟨rfl, rfl, rfl, rfl, rfl⟩) (fun u d => ?_) (fun u e => ?_)
    · have hlen := seedOk_length d u.payload
      simp [cmdCalSeed, Checks.ownSteps]
      tauto
    · rfl
  case calSnapshot =>
    refine carries_ordinary (fun _ _ => rfl) (fun _ _ => ⟨rfl, rfl, rfl, rfl, rfl⟩) (fun u d => ?_) (fun u e => ?_)
    · simp [cmdCalSnapshot, Checks.ownSteps]
    · rfl
  case calRestore =>
    refine carries_ordinary (fun _ _ => rfl) (fun _ _ => ⟨rfl, rfl, rfl, rfl, rfl⟩) (fun u d => ?_) (fun u e => ?_)
    · simp [cmdCalRestore, Checks.ownSteps, Option.isSome_iff_ne_none]
    · rfl
  case powerCap =>
    refine carries_ordinary (fun _ _ => rfl) (fun _ _ => ⟨rfl, rfl, rfl, rfl, rfl⟩) (fun u d => ?_) (fun u e => ?_)
    · simp [cmdPowerCap, Checks.ownSteps, and_assoc]
    · rfl
  case powerForce =>
    refine carries_ordinary (fun _ _ => rfl) (fun _ _ => ⟨rfl, rfl, rfl, rfl, rfl⟩) (fun u d => ?_) (fun u e => ?_)
    · simp only [← forceIn_eq]
      cases hspan : d.inSpan <;> simp [cmdPowerForce, Checks.ownSteps, Option.isSome_iff_ne_none, hspan]
    · simp only [cmdPowerForce, forceIn_eq]
      rfl
  case atK => exact fun p pl s => ⟨rfl, rfl, rfl, rfl⟩
  case seed =>
    intro pl s hok hword
    obtain ⟨hgsc, hrsc, htrim, hrel, hseeded, hfe⟩ := applySeed_sets pl s
    exact ⟨applySeed_tapA pl s hok hword, hgsc, hrsc, htrim, hrel, hseeded, by rw [hfe]⟩
  case restore =>
    refine fun s => ⟨applyRestore_none s, fun d hd => ?_⟩
    obtain ⟨hcal, hsave⟩ := applyRestore_cal_d s d hd
    simp [hcal, hsave]
  case boundary => exact fun s => ⟨rfl, rfl, rfl, settingsDone_deferred s⟩
  case safe => exact powerForce_safe
  case force => exact powerForce_chooses

end Sys2Proof.Machine

/-! The frame: boundary, computation, publication, epoch end and the sweep of DOZE (R13-R30, R89, R90, R102, R114, R188, R224).
Instants are numbers modulo 2^48, which no proof may evaluate: lemmas about the passing of time say what differs through
variables (`timeOnly`, `toSweep_eq`), and what follows an instant is stated from a state of its own (`sweepFrom`,
`computeFrom`). -/

namespace Sys2Proof.Machine
open Sys2Proof Sys2Proof.Safety

/-! ### What a wake leaves as it is -/

/-- What a sweep of DOZE leaves to the frames: the computed bank, the frame's number, the phase taps and the noise units. -/
def scanOf (s : State) : Bank × Nat × List Nat × List NuSt := (s.planes.comp, s.frame.n, s.cal.d.tapA, s.cal.d.nus)

theorem reportsOnly.scanOf {s t : State} (h : reportsOnly s t) : scanOf t = scanOf s := by
  rw [h]
  rfl

@[simp] theorem scanOf_ite (b : Prop) [Decidable b] (t u : State) : scanOf (if b then t else u) = if b then scanOf t else scanOf u :=
  apply_ite scanOf b t u

theorem scanOf_foldl {α : Type} {f : State → α → State} (hf : ∀ s a, scanOf (f s a) = scanOf s) (xs : List α) (s : State) :
    scanOf (xs.foldl f s) = scanOf s :=
  xs.foldlRecOn (motive := fun t => scanOf t = scanOf s) f rfl (fun t ht a _ => (hf t a).trans ht)

@[simp] theorem scanOf_raise (p : Port) (s : State) : scanOf (raise p s) = scanOf s := (reportsOnly_raise p s).scanOf
@[simp] theorem scanOf_pubIdle (s : State) : scanOf (pubIdle s) = scanOf s := (reportsOnly_pubIdle s).scanOf
@[simp] theorem scanOf_putQueue (i o : Nat) (r : Rec) (s : State) : scanOf (putQueue i o r s) = scanOf s :=
  (reportsOnly_putQueue i o r s).scanOf
@[simp] theorem scanOf_putCtx (i : Nat) (r : Rec) (s : State) : scanOf (putCtx i r s) = scanOf s :=
  (reportsOnly_putCtx i r s).scanOf
@[simp] theorem scanOf_powerRec (sub cls who asked taken : Nat) (s : State) :
    scanOf (powerRec sub cls who asked taken s) = scanOf s := (reportsOnly_putHouse _ _ _ s).scanOf

@[simp] theorem scanOf_setDomains (sense drive : Bool) (s : State) : scanOf (setDomains sense drive s) = scanOf s := by
  unfold setDomains
  dsimp only
  split
  · rfl
  · split <;> rfl

@[simp] theorem scanOf_request (cls who cost : Nat) (incr : Bool) (stage : Nat) (rev : Bool) (s : State) :
    scanOf (request cls who cost incr stage rev s) = scanOf s := rfl

@[simp] theorem scanOf_syncBridges (s : State) : scanOf (syncBridges s) = scanOf s := by
  refine scanOf_foldl (fun t n => ?_) _ s
  simp

@[simp] theorem scanOf_coreRuns (s : State) : scanOf (coreRuns s) = scanOf s := rfl

@[simp] theorem scanOf_senseOn (s : State) : scanOf (senseOn s) = scanOf s := by
  have hcore : scanOf { coreRuns s with power.domCore := true } = scanOf s := rfl
  simp [senseOn, hcore]

@[simp] theorem scanOf_askLater (cls who : Nat) (frames : Option Nat) (dip : Bool) (s : State) :
    scanOf (askLater cls who frames dip s) = scanOf s := rfl
@[simp] theorem scanOf_notify (i word : Nat) (msg : List Byte) (s : State) : scanOf (notify i word msg s) = scanOf s := rfl
@[simp] theorem scanOf_withdraw (cls who : Nat) (s : State) : scanOf (withdraw cls who s) = scanOf s := rfl
@[simp] theorem scanOf_releaseGrant (cls who : Nat) (s : State) : scanOf (releaseGrant cls who s) = scanOf s := rfl
@[simp] theorem scanOf_exciteOff (n : Nat) (s : State) : scanOf (exciteOff n s) = scanOf s := rfl

@[simp] theorem scanOf_fallRevoked (o : Nat) (g : Grant) (dip : Bool) (s : State) : scanOf (fallRevoked o g dip s) = scanOf s := by
  unfold fallRevoked
  split
  · simp
  · split <;> rfl

@[simp] theorem scanOf_revoke (dip : Bool) (g : Grant) (s : State) : scanOf (revoke dip g s) = scanOf s := by
  simp [revoke]

@[simp] theorem scanOf_revokeUntil (fits : State → Bool) (gs : List Grant) (s : State) :
    scanOf (revokeUntil fits gs s) = scanOf s := by
  induction gs generalizing s with
  | nil => rfl
  | cons g gs ih => simp [revokeUntil, ih]

@[simp] theorem scanOf_revokeToCap (s : State) : scanOf (revokeToCap s) = scanOf s := scanOf_revokeUntil _ _ s

@[simp] theorem scanOf_stopFrames (s : State) : scanOf (stopFrames s) = scanOf s := by
  unfold stopFrames
  split <;> rfl

@[simp] theorem scanOf_senseOff (s : State) : scanOf (senseOff s) = scanOf s := by
  unfold senseOff
  dsimp only
  generalize ht : List.foldl _ s (List.range 4) = t
  have hbridges : scanOf t = scanOf s := ht ▸ scanOf_foldl (fun t n => by simp) _ s
  generalize hu : setDomains false _ _ = u
  have hdom : scanOf u = scanOf t := by rw [← hu]; simp
  rw [← hbridges, ← hdom]
  rfl

@[simp] theorem scanOf_releaseForSleep (s : State) : scanOf (releaseForSleep s) = scanOf s := rfl

@[simp] theorem scanOf_crystalOff (s : State) : scanOf (crystalOff s) = scanOf s := by
  unfold crystalOff toKeeper
  dsimp only
  split <;> rfl

@[simp] theorem scanOf_enterMode (m : ModeSel) (why : Nat) (s : State) : scanOf (enterMode m why s) = scanOf s := by
  unfold enterMode
  dsimp only
  generalize ht : (if framesIn m then s else if senseIn m then stopFrames s else senseOff (stopFrames s)) = t
  have hstop : scanOf t = scanOf s := by rw [← ht]; simp
  simp only [scanOf_revokeToCap, scanOf_ite, scanOf_releaseForSleep, scanOf_crystalOff, scanOf_senseOn, scanOf_setDomains,
    ite_self]
  rw [← hstop]
  rfl

@[simp] theorem scanOf_takeMode (m : ModeSel) (why : Nat) (s : State) : scanOf (takeMode m why s) = scanOf s := by
  unfold takeMode
  extract_lets waits
  iterate 5 (split; · rfl)
  split
  · exact scanOf_senseOn _
  · exact scanOf_enterMode m why s

@[simp] theorem scanOf_noteChoice (s : State) : scanOf (noteChoice s) = scanOf s := by
  refine (scanOf_foldl (fun t p => ?_) _ _).trans rfl
  simp

@[simp] theorem scanOf_choose (why : Nat) (s : State) : scanOf (choose why s) = scanOf s := by
  simp [choose]

@[simp] theorem scanOf_raiseFloor (s : State) : scanOf (raiseFloor s) = scanOf s := by
  unfold raiseFloor
  split <;> rfl

@[simp] theorem scanOf_floorWake (s : State) : scanOf (floorWake s) = scanOf s := by
  have hsrc : scanOf { s with aon.wakeSrc := setBit s.aon.wakeSrc 2 true } = scanOf s := rfl
  have hentry : scanOf (latchEntry 2 s) = scanOf s := rfl
  simp [floorWake, hsrc, hentry]

@[simp] theorem scanOf_wakeEvents (k time : Nat) (s : State) : scanOf (wakeEvents k time s) = scanOf s := by
  unfold wakeEvents
  dsimp only
  rw [scanOf_ite, scanOf_floorWake, ite_self]
  exact scanOf_foldl (fun t i => scanOf_putCtx i _ t) _ s

theorem scanOf_approach (s : State) : scanOf (approach s) = scanOf s := by
  have hdue : scanOf { s with pipe.approachDue := false } = scanOf s := rfl
  simp [approach, hdue]

/-- Only what time moves differs: the clock, the wall clock and the ledger. -/
def timeOnly (s t : State) : Prop := ∃ c w l, t = { s with clk := c, wc := w, led := l }

theorem timeOnly_advance (k : Nat) (s : State) : timeOnly s (advance k s) := ⟨_, _, _, advance_frame k s⟩

theorem timeOnly_tickTo (t : Nat) (s : State) : timeOnly s (tickTo t s) := by
  obtain ⟨c, w, l, h⟩ := timeOnly_advance (ticksSince s.clk.tb t) { s with clk.slew := 0 }
  by_cases hn : ticksSince s.clk.tb t < 2 ^ 47
  · have hto : tickTo t s =
        { advance (ticksSince s.clk.tb t) { s with clk.slew := 0 } with clk.slew := s.clk.slew } := if_pos hn
    rw [hto, h]
    exact ⟨_, _, _, rfl⟩
  · have hto : tickTo t s = s := if_neg hn
    rw [hto]
    exact ⟨_, _, _, rfl⟩

/-- A boundary is where the timebase has come to; its place is noted in the frame. -/
theorem toBoundary_eq (s : State) : ∃ b f, toBoundary s = { tickTo (nextBoundary s).1 s with frame.bTb := b, frame.bFrac := f } := by
  by_cases h : (tickTo (nextBoundary s).1 s).clk.tb == (nextBoundary s).1
  · exact ⟨_, _, if_pos h⟩
  · exact ⟨_, _, if_neg h⟩

/-- A sweep is placed at its instant, or where the timebase has come to. -/
theorem toSweep_eq (s : State) (q : Nat) (hq : (s.clk.sweepAt + 125 * sweepCycles s.aon.dozeHz) % 2 ^ 50 = q) :
    toSweep s = { tickTo (q / 4) s with
      clk.sweepAt := if (tickTo (q / 4) s).clk.tb == q / 4 then q else 4 * (tickTo (q / 4) s).clk.tb } := by
  subst hq
  rfl

theorem timeOnly_toSweep (s : State) : timeOnly s (toSweep s) := by
  rw [toSweep_eq s _ rfl]
  generalize (s.clk.sweepAt + 125 * sweepCycles s.aon.dozeHz) % 2 ^ 50 = q
  obtain ⟨c, w, l, h⟩ := timeOnly_tickTo (q / 4) s
  rw [h]
  exact ⟨_, _, _, rfl⟩

theorem toBoundary_selection (s : State) : (toBoundary s).md = s.md ∧ (toBoundary s).aon = s.aon := by
  obtain ⟨b, f, hto⟩ := toBoundary_eq s
  obtain ⟨c, w, l, h⟩ := timeOnly_tickTo (nextBoundary s).1 s
  rw [hto, h]
  exact ⟨rfl, rfl⟩

/-! ### The sweep of DOZE -/

@[simp] theorem scanOf_toSweep (s : State) : scanOf (toSweep s) = scanOf s := by
  obtain ⟨c, w, l, h⟩ := timeOnly_toSweep s
  rw [h]
  rfl
@[simp] theorem scanOf_applyGuards (p : Profile) (vhv : Nat) (mu charge : Bool) (s : State) :
    scanOf (applyGuards p vhv mu charge s) = scanOf s := rfl
@[simp] theorem scanOf_slotCharge (p : Profile) (samples : List (List Int)) (s : State) :
    scanOf (slotCharge p samples s) = scanOf s := rfl
@[simp] theorem scanOf_gammaSample (rglg : Bool) (gs rs : List Nat) (s : State) :
    scanOf (gammaSample rglg gs rs s) = scanOf s := rfl
@[simp] theorem scanOf_captureCharge (b : Bank) (s : State) : scanOf (captureCharge b s) = scanOf s := rfl
@[simp] theorem scanOf_approachStep (rises : Bool) (s : State) : scanOf (approachStep rises s) = scanOf s := rfl
@[simp] theorem scanOf_baselineStep (s : State) : scanOf (baselineStep s) = scanOf s := rfl

@[simp] theorem scanOf_pushLines (b : Bank) (quiet : Nat → Bool) (s : State) : scanOf (pushLines b quiet s) = scanOf s := by
  unfold pushLines
  dsimp only
  split <;> rfl

@[simp] theorem scanOf_sweepTarn (s : State) : scanOf (sweepTarn s) = scanOf s := by
  simp [sweepTarn]

/-- What follows the swap of the sweep's bank into place: the first sweep is captured, another moves the baselines and looks
for an approach (R179, R193). -/
theorem scanOf_sweepEnd (first rises : Bool) (b : Bank) (s : State) :
    scanOf (if first then captureCharge b s else approach (approachStep rises (sweepTarn s))) = scanOf s := by
  rw [scanOf_ite, scanOf_captureCharge, scanOf_approach, scanOf_approachStep, scanOf_sweepTarn, ite_self]

/-- The state once a sweep has sensed: guards driven, the charge slot and the guards' samples taken (R89, R147). -/
def sweepSensed (charge : List (List Int)) (g : Ratios) (s : State) : State :=
  let p : Profile := ((s.fe.sets[2]?).map (·.record)).getD []
  gammaSample (byteAt p 27 == 1) g.guards g.companions
    (slotCharge p charge (applyGuards p s.meter.vhvMeas false true { s with planes.write := .empty }))

/-- The computed bank with the charge values of a sweep. -/
def sweepBank (s : State) : Bank := { s.planes.comp with
  stxI := s.planes.write.stxI, stxQ := s.planes.write.stxQ, srxI := s.planes.write.srxI, srxQ := s.planes.write.srxQ
  charge := true, range := (s.planes.comp.range.take 40) ++ s.planes.write.range.drop 40 }

/-- A sweep from the instant that it takes place at. -/
def sweepFrom (charge : List (List Int)) (g : Ratios) (s : State) : State :=
  let t := sweepSensed charge g s
  let b := sweepBank t
  let u : State := { t with planes.comp := b }
  if !u.cal.d.capturedC then captureCharge b u else approach (approachStep (bankRises u b) (sweepTarn u))

theorem dozeSweep_eq (charge : List (List Int)) (g : Ratios) (s : State) (hm : s.aon.mode = .doze)
    (hspare : s.clk.spare = false) : dozeSweep charge g s = sweepFrom charge g (toSweep s) := by
  unfold dozeSweep
  rw [if_neg (by simp [hm, hspare])]
  generalize toSweep s = t
  rfl

theorem scanOf_sweepSensed (charge : List (List Int)) (g : Ratios) (s : State) :
    scanOf (sweepSensed charge g s) = scanOf s := rfl

/-- A sweep puts its charge values into the computed bank, and changes nothing else of what it leaves to the frames. -/
theorem scanOf_sweepFrom (charge : List (List Int)) (g : Ratios) (s : State) :
    scanOf (sweepFrom charge g s) = (sweepBank (sweepSensed charge g s), (scanOf s).2) := by
  have hsensed := scanOf_sweepSensed charge g s
  unfold sweepFrom
  generalize sweepSensed charge g s = t at hsensed ⊢
  rw [← hsensed]
  exact scanOf_sweepEnd _ _ _ _

/-- A sweep leaves the listening and the mutual values of the computed bank, the frame's number, the phase taps and the
noise units as they were before its instant. -/
theorem sweepFrom_keeps (charge : List (List Int)) (g : Ratios) (s t : State) (h : scanOf t = scanOf s) :
    (sweepFrom charge g t).planes.comp.charge = true ∧ (sweepFrom charge g t).planes.comp.ia = s.planes.comp.ia ∧
      (sweepFrom charge g t).planes.comp.qa = s.planes.comp.qa ∧ (sweepFrom charge g t).frame.n = s.frame.n ∧
      (sweepFrom charge g t).cal.d.tapA = s.cal.d.tapA ∧ (sweepFrom charge g t).cal.d.nus = s.cal.d.nus := by
  have hscan := scanOf_sweepFrom charge g t
  simp only [scanOf, Prod.mk.injEq] at h hscan
  obtain ⟨hcomp, hn, htap, hnus⟩ := h
  obtain ⟨hcomp', hn', htap', hnus'⟩ := hscan
  rw [hcomp', hn', htap', hnus', ← hcomp]
  exact ⟨rfl, rfl, rfl, hn, htap, hnus⟩

theorem dozeSweep_keeps (charge : List (List Int)) (g : Ratios) (s : State) (hm : s.aon.mode = .doze)
    (hspare : s.clk.spare = false) : ∃ t, exec (.dozeSweep charge g) s = .next t ∧ t.planes.comp.charge = true ∧
      t.planes.comp.ia = s.planes.comp.ia ∧ t.planes.comp.qa = s.planes.comp.qa ∧ t.frame.n = s.frame.n ∧
      t.cal.d.tapA = s.cal.d.tapA ∧ t.cal.d.nus = s.cal.d.nus := by
  refine ⟨sweepFrom charge g (toSweep s), ?_, sweepFrom_keeps charge g s (toSweep s) (scanOf_toSweep s)⟩
  rw [← dozeSweep_eq charge g s hm hspare]
  rfl

/-! ### The boundary -/

/-- A sweep whose instant the timebase reaches is placed at it (R89). -/
theorem toSweep_sweepAt (s : State) (q : Nat) (hq : (s.clk.sweepAt + 125 * sweepCycles s.aon.dozeHz) % 2 ^ 50 = q)
    (htb : (toSweep s).clk.tb = q / 4) : (toSweep s).clk.sweepAt = q := by
  obtain ⟨u, hu⟩ : ∃ u : State, toSweep s =
      { u with clk.sweepAt := if u.clk.tb == q / 4 then q else 4 * u.clk.tb } := ⟨_, toSweep_eq s q hq⟩
  rw [hu] at htb ⊢
  exact if_pos (beq_iff_eq.2 htb)

/-- No change of the mode waits and 240 Hz is not in force: the boundary leaves the mode. -/
theorem boundaryMode_idle (s : State) (hp : s.md.pending = none) (hr : s.aon.rate < 6) : boundaryMode s = s := by
  have hr' : s.aon.rate ≠ 6 := by omega
  simp [boundaryMode, hp, hr']

/-- A frame begins where the part may run frames, no diagnostic and no entry to HIBERNATE is under way, the PLL has locked and
the mode has frames; no change of mode waits (R13, R90). -/
theorem frameBoundary_begins (x : Sense) (s : State) (hmay : s.mayFrame = true) (hdiag : s.rst.diag = [])
    (hhib : s.md.hibEntry = false) (hrdy : s.chan.rdy = true) (hspare : s.clk.spare = false) (hp : s.md.pending = none)
    (hsel : framesIn s.sel = true) (hrate : s.aon.rate < 6) : frameBoundary x s =
      (let v := boundarySettings x.vhv (beginFrame (boundaryMode (toBoundary s)))
       let w := if v.dark then v else senseFrame x v
       if w.span.role = 2 then { w with spanx.beaconSent := false } else { w with spanx.beacon := none }) := by
  obtain ⟨hmd, haon⟩ := toBoundary_selection s
  have hmode : framesIn (boundaryMode (toBoundary s)).sel = true := by
    rw [boundaryMode_idle _ (by rw [hmd, hp]) (by rw [haon]; exact hrate), State.sel, haon]
    exact hsel
  unfold frameBoundary
  rw [if_neg (by simp [hmay, hdiag, hhib, hrdy, hspare]), if_neg (by simp [hsel])]
  generalize boundaryMode (toBoundary s) = t at hmode ⊢
  dsimp only
  rw [if_neg (by simp [hmode])]
  simp only [beq_iff_eq]

theorem frameBoundary_idle (x : Sense) (s : State) (h : s.chan.rdy = false ∨ s.rst.diag ≠ [] ∨ s.clk.spare = true) :
    frameBoundary x s = s := by
  unfold frameBoundary
  refine if_pos ?_
  rcases h with h | h | h
  · simp [h]
  · cases hd : s.rst.diag with
    | nil => exact absurd hd h
    | cons => simp
  · simp [h]

theorem setDomains_frameOf (sense drive : Bool) (s : State) : (setDomains sense drive s).frame = s.frame := by
  unfold setDomains
  dsimp only
  split
  · rfl
  · split <;> rfl

/-- What the beginning of a frame notes of it. -/
theorem beginFrame_frame (s : State) : (beginFrame s).frame =
    { s.frame with n := frameNumber s, started := true, running := true, sensed := true, stoppedAt := none } := by
  have hlong : ∀ (b : Bool) (t : State), (if b then resumeSettle t else t).frame = t.frame := by
    intro b t
    split <;> rfl
  exact (hlong _ _).trans (setDomains_frameOf _ _ _)

theorem frameNumber_first (s : State) (hb : s.nextBeacon = none) (hs : s.frame.started = false) : frameNumber s = 0 := by
  simp [frameNumber, hb, hs]

theorem frameNumber_next (s : State) (hb : s.nextBeacon = none) (hs : s.frame.started = true) :
    frameNumber s = (s.frame.n + 1) % 2 ^ 32 := by
  simp [frameNumber, hb, hs, succ32]

/-! ### The computation start -/

/-- Only the census, the front end and the span's exchange differ. -/
def censusOnly (s t : State) : Prop := ∃ c f x, t = { s with census := c, fe := f, spanx := x }

theorem censusOnly_decideMove (urgent : Bool) (i : Nat) (s : State) : censusOnly s (decideMove urgent i s) := by
  unfold decideMove
  split <;> exact ⟨_, _, _, rfl⟩

theorem censusOnly.trans {s t u : State} (h : censusOnly s t) (h' : censusOnly t u) : censusOnly s u := by
  obtain ⟨c, f, x, rfl⟩ := h
  obtain ⟨c', f', x', rfl⟩ := h'
  exact ⟨_, _, _, rfl⟩

theorem censusOnly_urgentMove (s : State) : censusOnly s (urgentMove s) := by
  unfold urgentMove
  split
  · exact ⟨_, _, _, rfl⟩
  · dsimp only
    split
    · split
      · exact censusOnly.trans ⟨_, _, _, rfl⟩ (censusOnly_decideMove true _ _)
      · exact ⟨_, _, _, rfl⟩
    · exact ⟨_, _, _, rfl⟩

theorem censusOnly_censusCount (s : State) : censusOnly s (censusCount s) := by
  cases h : s.pastEpoch <;> exact ⟨_, _, _, by simp only [censusCount, h]; rfl⟩

theorem censusOnly_leaderCensus (s : State) : censusOnly s (leaderCensus s) := by
  unfold leaderCensus
  split
  · have hmerge : censusOnly s (mergeCensus s) := ⟨_, _, _, rfl⟩
    exact hmerge.trans ((censusOnly_censusCount _).trans (censusOnly_urgentMove _))
  · exact ⟨_, _, _, rfl⟩

/-- What a computation start does once the timebase stands at K and the leader's census is taken: the frame slips, or what is
bound to K takes effect (R24, R28). -/
def computeFrom (u : State) : State :=
  if u.frame.phase == 1 || u.frame.phase == 2 then
    { u with eng.slipCnt := satAdd 65535 u.eng.slipCnt 1, eng.slipRun := u.eng.slipRun + 1,
             bridges := u.bridges.map (fun b => { b with sum := 0, count := 0 }) }
  else
    let v := latchForce (msgsAtK (commitAtK (mailAtK (effectsAtK (faultsAtK { u with eng.slipRun := 0 })))))
    if v.dark || !v.planes.write.valid then v else startComputation (markClamps v)

/-- The state at K, before anything is computed. -/
def atCompute (s : State) : State := leaderCensus { tickTo (computeAt s) s with frame.sensed := false }

theorem computationStart_idle (s : State) (h : s.framesRun = false ∨ s.frame.sensed = false) : computationStart s = s :=
  if_pos (by rcases h with h | h <;> simp [h])

theorem computationStart_sensed (s : State) (hrun : s.framesRun = true) (hsensed : s.frame.sensed = true) :
    computationStart s = computeFrom (atCompute s) := by
  unfold computationStart
  rw [if_neg (by simp [hrun, hsensed])]
  change _ = computeFrom (leaderCensus { tickTo (computeAt s) s with frame.sensed := false })
  generalize leaderCensus _ = u
  rfl

/-- Up to K only the clocks, the ledger, the census, the front end and the span's exchange change, and the frame's sensing
is taken. -/
theorem atCompute_eq (s : State) : ∃ c w l n f x, atCompute s = { s with
    clk := c, wc := w, led := l, census := n, fe := f, spanx := x, frame := { s.frame with sensed := false } } := by
  obtain ⟨c, w, l, ht⟩ := timeOnly_tickTo (computeAt s) s
  unfold atCompute
  rw [ht]
  obtain ⟨n, f, x, hu⟩ := censusOnly_leaderCensus
    { s with clk := c, wc := w, led := l, frame := { s.frame with sensed := false } }
  exact ⟨c, w, l, n, f, x, hu⟩

/-- A computation that has not ended makes the frame slip (R28). -/
theorem computeFrom_slips (u : State) (h : u.frame.phase = 1 ∨ u.frame.phase = 2) : computeFrom u = { u with
    eng.slipCnt := min 65535 (u.eng.slipCnt + 1), eng.slipRun := u.eng.slipRun + 1
    bridges := u.bridges.map (fun b => { b with sum := 0, count := 0 }) } :=
  if_pos (by rcases h with h | h <;> simp [h])

theorem computeFrom_computes (u : State) (h1 : u.frame.phase ≠ 1) (h2 : u.frame.phase ≠ 2) : computeFrom u =
    (let v := latchForce (msgsAtK (commitAtK (mailAtK (effectsAtK (faultsAtK { u with eng.slipRun := 0 })))))
     if v.dark ∨ v.planes.write.valid = false then v else startComputation (markClamps v)) := by
  unfold computeFrom
  rw [if_neg (by simp [h1, h2])]
  simp

theorem atCompute_phase (s : State) : (atCompute s).frame.phase = s.frame.phase := by
  obtain ⟨c, w, l, n, f, x, h⟩ := atCompute_eq s
  rw [h]

theorem exec_computationStart (s : State) : exec .computationStart s = .next (computationStart s) := rfl

/-- A frame that slips is counted; of what is computed nothing changes (R28). -/
theorem computationStart_slips (s : State) (hrun : s.framesRun = true) (hsensed : s.frame.sensed = true)
    (hphase : s.frame.phase = 1 ∨ s.frame.phase = 2) :
    ∃ t, exec .computationStart s = .next t ∧ t.frame.sensed = false ∧ t.eng.slipCnt = min 65535 (s.eng.slipCnt + 1) ∧
      t.eng.slipRun = s.eng.slipRun + 1 ∧ t.planes = s.planes ∧ t.pipe = s.pipe ∧ t.ctxs = s.ctxs ∧
      t.frame.phase = s.frame.phase := by
  have hslip := computeFrom_slips (atCompute s) (by rwa [atCompute_phase])
  obtain ⟨c, w, l, n, f, x, hat⟩ := atCompute_eq s
  rw [exec_computationStart, computationStart_sensed s hrun hsensed, hslip, hat]
  exact ⟨_, rfl, rfl, rfl, rfl, rfl, rfl, rfl, rfl⟩

/-- A computation starts with what is bound to K; where there is nothing to compute, that is all (R14, R24). -/
theorem computationStart_computes (s u : State) (hu : atCompute s = u) (hrun : s.framesRun = true)
    (hsensed : s.frame.sensed = true) (h1 : s.frame.phase ≠ 1) (h2 : s.frame.phase ≠ 2) :
    let v := latchForce (msgsAtK (commitAtK (mailAtK (effectsAtK (faultsAtK { u with eng.slipRun := 0 })))))
    exec .computationStart s =
      .next (if v.dark ∨ v.planes.write.valid = false then v else startComputation (markClamps v)) := by
  have hphase := atCompute_phase s
  rw [hu] at hphase
  rw [exec_computationStart, computationStart_sensed s hrun hsensed, hu,
    computeFrom_computes u (by rwa [hphase]) (by rwa [hphase])]

/-! ### The obligation -/

theorem publish_sets (s : State) : (publish s).chan.staged = [] ∧ (publish s).chan.pubs = s.chan.pubs + 1 ∧
    (publish s).jrn.shown = s.jrn.next := by
  have h := publicationOf_publish s
  simp only [publicationOf, Prod.mk.injEq] at h
  obtain ⟨hstaged, hpubs, hjrn⟩ := h
  exact ⟨hstaged, hpubs, by rw [hjrn]⟩

/-- Settles O48: each row is its function of the frame, taken apart into the cases of its condition; a slip and a sweep are
shown to keep what they do not name. -/
theorem frameRows : Obligations.FrameRows := by
  refine ⟨?begins, ?begun, ?noFrame, ?slip, ?compute, ?noComputation, ?publication, ?noWait, ?publish, ?epoch, ?compaction,
    ?noSweep, ?sweep, ?sweepAt⟩
  case begins =>
    intro x s hmay hdiag hhib hrdy hspare hp hsel hrate
    exact congrArg Host.Outcome.next (frameBoundary_begins x s hmay hdiag hhib hrdy hspare hp hsel hrate)
  case begun =>
    intro s
    rw [State.framesRun, beginFrame_frame]
    exact ⟨rfl, rfl, rfl, frameNumber_first s, frameNumber_next s⟩
  case noFrame => exact fun x s h => congrArg Host.Outcome.next (frameBoundary_idle x s h)
  case slip => exact computationStart_slips
  case compute => exact fun s hrun hsensed h1 h2 => computationStart_computes s _ rfl hrun hsensed h1 h2
  case noComputation => exact fun s h => congrArg Host.Outcome.next (computationStart_idle s h)
  case publication =>
    exact actsWhen_unless (fun s => s.frame.phase != 2) (fun s => rfl) (fun s => by simp)
  case noWait =>
    intro s hrole
    simp [relayWaits, hrole]
  case publish =>
    intro s
    obtain ⟨hstaged, hpubs, hshown⟩ := publish_sets s
    exact ⟨hstaged, hpubs, hshown, queuePublished_publish s⟩
  case epoch =>
    exact actsWhen_unless
      (fun s => s.frame.phase != 3 || s.cal.endDone.getD (epochsThrough s.frame.comp) == epochsThrough s.frame.comp)
      (fun s => rfl) (fun s => by simp)
  case compaction => exact actsWhen_unless (fun s => s.framesRun) (fun s => rfl) (fun s => Iff.rfl)
  case noSweep =>
    intro charge g s h
    refine congrArg Host.Outcome.next (if_pos ?_)
    rcases h with h | h <;> simp [h]
  case sweep => exact dozeSweep_keeps
  case sweepAt => exact fun s hslew => toSweep_sweepAt s _ rfl

end Sys2Proof.Machine

/-! Resets: which one each row performs, and where it leaves the part (R53, R70, R96, R342, R532-R535, R542-R547, R560). That a
RESET is performed whole at once, with the straps as sampled and VIN as metered, is the model's choice (log 22); so are the
states in which VIN may rise, and the kind that OFF keeps (log 23). -/

namespace Sys2Proof.Machine
open Sys2Proof Sys2Proof.Safety

/-! ### RESET -/

/-- A row whose command is judged under a condition carries the command out there. -/
theorem carries_of_judged {mk : HostUnit → Instr} {code : Nat} {c : Cmd} {cond : HostUnit → State → Prop}
    {f : HostUnit → State → Reply × State} (hrow : ∀ u s, exec (mk u) s = hostRow code c u s)
    (hcond : ∀ u s, passes code false u s → (judged code false c u s = 0 ↔ cond u (reached code false u s)))
    (hrun : ∀ (u : HostUnit) (e : State), c.run u.port u.payload e = f u e) : carries mk code c cond f := by
  intro u s hp
  refine ⟨hcond u s hp, fun hc => ?_⟩
  have hacc : accepted code false c u s := ⟨hp, (hcond u s hp).2 hc⟩
  have hnext : exec (mk u) s = _ := (hrow u s).trans (hostRow_accepted code c u s hacc)
  rw [hrun] at hnext
  exact hnext

/-- A unit that passes leaves the straps and the window of the serial port as they are. -/
theorem hsPass_window (code : Nat) (resync : Bool) (u : HostUnit) (s : State) :
    (hsPass code resync u s).pins = s.pins ∧ (hsPass code resync u s).hs.wlen = s.hs.wlen := by
  unfold hsPass
  dsimp only
  split <;> exact ⟨rfl, rfl⟩

/-- In chain mode a unit passes only within its window (R382, R384). -/
theorem hsFate_passed_window (code : Nat) (resync : Bool) (u : HostUnit) (s : State) (hchain : s.pins.hsm = true)
    (h : hsFate code resync u s = .passed) : 8 + u.payload.length ≤ s.hs.wlen / 8 := by
  rw [hsFate, if_pos hchain] at h
  dsimp only at h
  split at h
  · cases h
  · split at h
    next hw =>
      simp only [Bool.and_eq_true, decide_eq_true_eq] at hw
      obtain ⟨⟨⟨_, hwindow⟩, _⟩, _⟩ := hw
      exact hwindow
    next => cases h

/-- A reply no longer than the payload fits the window that the unit came in. -/
theorem fits_of_passes (n code : Nat) (resync : Bool) (u : HostUnit) (s : State) (h : passes code resync u s)
    (hn : n ≤ u.payload.length) : fits n u (reached code resync u s) := by
  intro hport hchain
  obtain ⟨_, hfate⟩ := h
  simp only [hport] at hfate
  obtain ⟨_, hpassed⟩ := hfate
  simp only [reached, delivered, hport, State.modPort_pins, State.modPort_hs] at hchain ⊢
  obtain ⟨hpins, hwlen⟩ := hsPass_window code resync u (hsReply (hsEdge u.clocks u.mode3 s))
  rw [hpins] at hchain
  rw [hwlen]
  have := hsFate_passed_window code resync u _ hchain hpassed
  omega

/-- RESET is refused only for its length, its key and its kind (R342). -/
theorem judged_reset (u : HostUnit) (s : State) :
    judged 0xF0 false cmdReset u s = 0 ↔
      u.payload.length = 3 ∧ leAt u.payload 0 2 = 0xA55A ∧ (byteAt u.payload 2 = 1 ∨ byteAt u.payload 2 = 2) := by
  simp [judged, verdict_eq_zero, cmdReset]

/-! ### Where a reset leaves the part -/

/-- Below the threshold a power-on reset leaves the part in OFF, with CORE off (R534). -/
theorem powerReset_off (kind : Nat) (b : BootInput) (s : State) (hvin : b.vin < 435) :
    powerReset kind b s = { wipe (cutOtp (cutProgram s)) with rst.kind := kind, aon.mode := .off } := by
  simp only [powerReset, if_pos hvin]

/-- With TEST_N low the sequence ends once the straps are sampled (R535, R560). -/
theorem bootUp_test (b : BootInput) (s : State) (htest : b.testLow = true) : bootUp b s = sampleStraps b s := by
  simp only [bootUp, if_pos htest]

/-- Settles O56: the rows other than RESET are functions of the state that are taken apart into the cases of their
conditions; RESET is judged by its payload alone, and a unit that brings its three bytes has room for its reply. -/
theorem resetRows : Obligations.ResetRows := by
  refine ⟨?reset, ?powerOn, ?brownOut, ?vaon, ?pinFalls, ?pinRises, ?watchdog, ?safeWatchdog, ?off, ?test⟩
  case reset =>
    refine carries_of_judged (fun _ _ => rfl) (fun u s hp => ?_) (fun _ _ => rfl)
    rw [judged_reset]
    constructor
    · rintro ⟨hlen, hkey, hkind⟩
      exact ⟨hlen, hkey, hkind, fits_of_passes 1 0xF0 false u s hp (by omega)⟩
    · rintro ⟨hlen, hkey, hkind, _⟩
      exact ⟨hlen, hkey, hkind⟩
  case powerOn =>
    intro b
    refine actsWhen_of (fun _ => rfl) ?_ ?_
    · rintro s ⟨hrdy, htest, hvin, hlow | hoff⟩
      · simp [hrdy, htest, hlow, Nat.not_lt.2 hvin]
      · simp [hrdy, htest, hoff, Nat.not_lt.2 hvin]
    · intro s h
      refine if_pos ?_
      simp only [Bool.or_eq_true, Bool.and_eq_true, bne_iff_ne, decide_eq_true_eq]
      by_contra hstop
      simp only [not_or, not_and_or, Bool.not_eq_true, not_not, Nat.not_lt] at hstop
      obtain ⟨⟨⟨hrdy, htest⟩, hvin⟩, hpin⟩ := hstop
      exact h ⟨hrdy, htest, hvin, hpin⟩
  case brownOut =>
    exact fun b => actsWhen_unless (fun s => s.aon.mode == .off) (fun s => rfl) (fun s => by simp)
  case vaon => exact fun b s => rfl
  case pinFalls =>
    intro b
    refine actsWhen_of (fun _ => rfl) (fun s h => ?_) (fun s h => ?_)
    · by_cases hoff : s.aon.mode = .off <;> simp [h, hoff]
    · simp [h]
  case pinRises =>
    intro b
    refine actsWhen_of (fun _ => rfl) (fun s h => ?_) (fun s h => ?_)
    · by_cases hoff : s.aon.mode = .off <;> simp [h, hoff]
    · simp [h]
  case watchdog => exact fun b => actsWhen_of (fun s => rfl) (fun s h => if_pos h) (fun s h => if_neg h)
  case safeWatchdog =>
    intro b
    refine actsWhen_of (fun _ => rfl) (fun s h => if_pos ?_) (fun s h => if_neg ?_)
    · obtain ⟨hsafe, hcause, htw, hhs, hxtal⟩ := h
      simp [hsafe, hcause, htw, hhs, hxtal]
    · simpa [and_assoc] using h
  case off =>
    intro kind b s hvin
    rw [powerReset_off kind b s hvin]
    exact ⟨rfl, rfl, rfl, rfl⟩
  case test =>
    intro b s htest hrdy
    rw [bootUp_test b s htest]
    exact ⟨hrdy, rfl, rfl, rfl, rfl⟩

end Sys2Proof.Machine

/-! The account of the Hearth: what revoking changes of it, and where it stops (R63, R64, R66, R68, R69). -/

namespace Sys2Proof.Machine
open Sys2Proof Sys2Proof.Safety

/-! ### What the account rests on -/

/-- What the account of the Hearth rests on: the mode, of which the base is a function, the cap and the held grants (R63). -/
def account (s : State) : ModeSel × Nat × List Grant := (s.sel, s.power.cap, s.grants)

theorem base_eq_of_account {s t : State} (h : account t = account s) : t.base = s.base :=
  congrArg (fun a : ModeSel × Nat × List Grant => baseOf a.1) h

theorem cap_eq_of_account {s t : State} (h : account t = account s) : t.power.cap = s.power.cap :=
  congrArg (fun a => a.2.1) h

theorem grants_eq_of_account {s t : State} (h : account t = account s) : t.grants = s.grants :=
  congrArg (fun a => a.2.2) h

theorem reportsOnly.account {s t : State} (h : reportsOnly s t) : account t = account s := by
  rw [h]
  rfl

theorem reportsOnly_powerRec (sub cls who asked taken : Nat) (s : State) :
    reportsOnly s (powerRec sub cls who asked taken s) := reportsOnly_putHouse _ _ _ s

@[simp] theorem account_powerRec (sub cls who asked taken : Nat) (s : State) :
    account (powerRec sub cls who asked taken s) = account s := (reportsOnly_powerRec sub cls who asked taken s).account

@[simp] theorem account_withdraw (cls who : Nat) (s : State) : account (withdraw cls who s) = account s := rfl

@[simp] theorem account_notify (i word : Nat) (msg : List Byte) (s : State) : account (notify i word msg s) = account s := rfl

@[simp] theorem account_pubIdle (s : State) : account (pubIdle s) = account s := (reportsOnly_pubIdle s).account

@[simp] theorem account_putQueue (i o : Nat) (r : Rec) (s : State) : account (putQueue i o r s) = account s :=
  (reportsOnly_putQueue i o r s).account

/-- An operation that falls to its revoked state frees or takes nothing (R69). -/
@[simp] theorem account_fallRevoked (o : Nat) (g : Grant) (dip : Bool) (s : State) :
    account (fallRevoked o g dip s) = account s := by
  unfold fallRevoked
  split
  · dsimp only
    split <;> simp
  · split <;> rfl

/-! ### Release and revocation -/

/-- A release takes the grants of the class and requester out of the account. -/
theorem grants_releaseGrant (cls who : Nat) (s : State) :
    (releaseGrant cls who s).grants = s.grants.filter (fun g => !(g.cls == cls && g.who == who)) := by
  simp only [State.grants, releaseGrant, List.filterMap_map, List.filter_filterMap]
  congr 1
  funext slot
  cases slot with
  | none => rfl
  | some g =>
    simp only [Function.comp_apply, id, Option.filter]
    split <;> simp_all

/-- Revoking a grant changes the account as its release does. -/
theorem account_revoke (dip : Bool) (g : Grant) (s : State) :
    account (revoke dip g s) = account (releaseGrant g.cls g.who s) := by
  simp [revoke]

theorem base_revoke (dip : Bool) (g : Grant) (s : State) : (revoke dip g s).base = s.base :=
  (base_eq_of_account (account_revoke dip g s)).trans rfl

theorem cap_revoke (dip : Bool) (g : Grant) (s : State) : (revoke dip g s).power.cap = s.power.cap :=
  (cap_eq_of_account (account_revoke dip g s)).trans rfl

theorem grants_revoke (dip : Bool) (g : Grant) (s : State) :
    (revoke dip g s).grants = s.grants.filter (fun x => !(x.cls == g.cls && x.who == g.who)) :=
  (grants_eq_of_account (account_revoke dip g s)).trans (grants_releaseGrant g.cls g.who s)

theorem grants_revoke_subset (dip : Bool) (g : Grant) (s : State) : (revoke dip g s).grants ⊆ s.grants := by
  rw [grants_revoke]
  exact List.filter_subset_self _

theorem not_mem_grants_revoke (dip : Bool) (g : Grant) (s : State) : g ∉ (revoke dip g s).grants := by
  simp [grants_revoke]

/-! ### Revoking in order -/

theorem base_revokeUntil (fits : State → Bool) (gs : List Grant) (s : State) : (revokeUntil fits gs s).base = s.base := by
  induction gs generalizing s with
  | nil => rfl
  | cons g gs ih =>
    rw [revokeUntil]
    split
    · rfl
    · rw [ih, base_revoke]

theorem cap_revokeUntil (fits : State → Bool) (gs : List Grant) (s : State) :
    (revokeUntil fits gs s).power.cap = s.power.cap := by
  induction gs generalizing s with
  | nil => rfl
  | cons g gs ih =>
    rw [revokeUntil]
    split
    · rfl
    · rw [ih, cap_revoke]

theorem grants_revokeUntil_subset (fits : State → Bool) (gs : List Grant) (s : State) :
    (revokeUntil fits gs s).grants ⊆ s.grants := by
  induction gs generalizing s with
  | nil => exact List.Subset.refl _
  | cons g gs ih =>
    rw [revokeUntil]
    split
    · exact List.Subset.refl _
    · exact List.Subset.trans (ih _) (grants_revoke_subset false g s)

/-- Revoking in order stops where the account fits, or has come to the end: none of the grants to revoke is held (R69). -/
theorem revokeUntil_fits_or_revoked (fits : State → Bool) (gs : List Grant) (s : State) :
    fits (revokeUntil fits gs s) = true ∨ ∀ g ∈ gs, g ∉ (revokeUntil fits gs s).grants := by
  induction gs generalizing s with
  | nil => simp
  | cons g gs ih =>
    rw [revokeUntil]
    split
    next hfit => exact .inl hfit
    next =>
      refine (ih (revoke false g s)).imp_right fun hrest => List.forall_mem_cons.2 ⟨fun hg => ?_, hrest⟩
      exact not_mem_grants_revoke false g s (grants_revokeUntil_subset fits gs _ hg)

theorem sortBy_perm {α : Type} (k : α → Int) (xs : List α) : (sortBy k xs).Perm xs := by
  induction xs with
  | nil => exact .nil
  | cons x xs ih =>
    refine List.perm_middle.trans (.cons x ?_)
    rwa [List.takeWhile_append_dropWhile]

theorem State.mem_revocables (s : State) (g : Grant) :
    g ∈ s.revocables ↔ g ∈ s.grants ∧ g.revocable = true ∧ 1 ≤ rank g.cls := by
  simp [State.revocables, (sortBy_perm _ _).mem_iff]

/-- Settles O45: revoking stops once the account fits, or after every revocable grant of rank 1 or lower has been revoked. -/
theorem revokingFitsTheAccount : Obligations.RevokingFitsTheAccount := by
  intro s
  have hkept : (revokeToCap s).grants ⊆ s.grants := grants_revokeUntil_subset _ _ s
  refine ⟨cap_revokeUntil _ _ s, base_revokeUntil _ _ s, ?_, fun g hg => hkept hg⟩
  have hstop := revokeUntil_fits_or_revoked (fun s => s.base + s.heldCost ≤ s.power.cap) s.revocables s
  refine hstop.imp of_decide_eq_true fun hrevoked g hg => ?_
  by_contra! hstays
  obtain ⟨hrev, hrank⟩ := hstays
  exact hrevoked g ((s.mem_revocables g).2 ⟨hkept hg, by simpa using hrev, by omega⟩) hg

end Sys2Proof.Machine

/-! Rows of the supplies and of the Hearth: the input meter, decisions, refusals and what is asked again, dips, the overcap
guard, the undervoltage of VMOT and the boost start (R61, R64, R66-R73). -/

namespace Sys2Proof.Machine
open Sys2Proof Sys2Proof.Safety

section
variable {s t : State} (h : reportsOnly s t)
include h

theorem reportsOnly.power : t.power = s.power := by rw [h]
theorem reportsOnly.fan (n : Nat) : t.fan n = s.fan n := by rw [h]; rfl
theorem reportsOnly.grantOf (cls who : Nat) : t.grantOf cls who = s.grantOf cls who := by rw [h]; rfl

end

/-! ### Fans, requests and grants after an update -/

theorem State.fan_modFan_same (s : State) (n : Nat) (f : Fan → Fan) (h : n < s.thermal.fans.length) :
    (s.modFan n f).fan n = f (s.fan n) := modAt_getD_same f n s.thermal.fans .reset h

theorem State.fan_modFan_other (s : State) (m n : Nat) (f : Fan → Fan) (h : n ≠ m) : (s.modFan m f).fan n = s.fan n :=
  modAt_getD_other f m n s.thermal.fans .reset h

@[simp] theorem State.modFan_fans_length (s : State) (n : Nat) (f : Fan → Fan) :
    (s.modFan n f).thermal.fans.length = s.thermal.fans.length := modAt_length f n s.thermal.fans

@[simp] theorem State.reqOf_modFan (s : State) (n : Nat) (f : Fan → Fan) (cls who : Nat) :
    (s.modFan n f).reqOf cls who = s.reqOf cls who := rfl

theorem reqOf_request_same (cls who cost : Nat) (incr : Bool) (stage : Nat) (rev : Bool) (s : State) :
    ((request cls who cost incr stage rev s).reqOf cls who).isSome = true := by
  simp [State.reqOf, request]

/-- What is looked for is found as before where the filter lets it pass. -/
theorem find?_filter_of_passes {α : Type} (p q : α → Bool) (xs : List α) (h : ∀ x, q x = true → p x = true) :
    (xs.filter p).find? q = xs.find? q := by
  rw [List.find?_filter]
  congr 1
  funext x
  cases hq : q x <;> simp [h x, hq]

/-- A request leaves those of other requesters as they were. -/
theorem reqOf_request_other (cls who cost : Nat) (incr : Bool) (stage : Nat) (rev : Bool) (s : State) (c w : Nat) (h : w ≠ who) :
    (request cls who cost incr stage rev s).reqOf c w = s.reqOf c w := by
  have hpass : ∀ q : Req, (q.cls == c && q.who == w) = true → (!(q.cls == cls && q.who == who)) = true := by
    intro q hq
    have hwho : q.who = w := by simp_all
    simp [hwho, h]
  simp only [State.reqOf, request, withdraw, dropReReq, List.find?_append, find?_filter_of_passes _ _ _ hpass]
  simp [h.symm]

theorem grantOf_releaseGrant_same (cls who : Nat) (s : State) : (releaseGrant cls who s).grantOf cls who = none := by
  rw [State.grantOf, grants_releaseGrant, List.find?_eq_none]
  intro g hg
  simpa [imp_iff_not_or] using List.of_mem_filter hg

/-- What no requester holds, a release gives to none. -/
theorem grantOf_releaseGrant_of_none (cls who : Nat) (s : State) (c w : Nat) (h : s.grantOf c w = none) :
    (releaseGrant cls who s).grantOf c w = none := by
  rw [State.grantOf, List.find?_eq_none] at h ⊢
  rw [grants_releaseGrant]
  exact fun g hg => h g (List.mem_of_mem_filter hg)

@[simp] theorem thermal_releaseGrant (cls who : Nat) (s : State) : (releaseGrant cls who s).thermal = s.thermal := rfl
@[simp] theorem thermal_withdraw (cls who : Nat) (s : State) : (withdraw cls who s).thermal = s.thermal := rfl
@[simp] theorem thermal_dropReReq (cls who : Nat) (s : State) : (dropReReq cls who s).thermal = s.thermal := rfl

@[simp] theorem vmotUv_releaseGrant (cls who : Nat) (s : State) : (releaseGrant cls who s).power.vmotUv = s.power.vmotUv := rfl
@[simp] theorem vmotUv_withdraw (cls who : Nat) (s : State) : (withdraw cls who s).power.vmotUv = s.power.vmotUv := rfl
@[simp] theorem vmotUv_dropReReq (cls who : Nat) (s : State) : (dropReReq cls who s).power.vmotUv = s.power.vmotUv := rfl

/-! ### One fan after another -/

/-- A fold over fans, one of which is `n`: what `n` needs is kept until its turn, its turn brings the result, and the turns
of the others leave the result. -/
theorem foldl_over_fans {f : State → Nat → State} {n : Nat} {before result : State → Prop}
    (hkeep : ∀ t m, m ≠ n → before t → before (f t m)) (hturn : ∀ t, before t → result (f t n))
    (hstay : ∀ t m, m ≠ n → result t → result (f t m)) (ms : List Nat) (hnodup : ms.Nodup) (hn : n ∈ ms) (s : State)
    (hs : before s) : result (ms.foldl f s) := by
  obtain ⟨pre, post, rfl⟩ := List.append_of_mem hn
  obtain ⟨-, ⟨hpost, -⟩, hpre⟩ : pre.Nodup ∧ (n ∉ post ∧ post.Nodup) ∧ n ∉ pre := by
    rw [List.nodup_middle, List.nodup_cons] at hnodup
    grind
  rw [List.foldl_append, List.foldl_cons]
  refine post.foldlRecOn (motive := result) f (hturn _ ?_) (fun t ht m hm => hstay t m (ne_of_mem_of_not_mem hm hpost) ht)
  exact pre.foldlRecOn (motive := before) f hs (fun t ht m hm => hkeep t m (ne_of_mem_of_not_mem hm hpre) ht)

/-! ### VMOT -/

theorem vmotUv_foldl {f : State → Nat → State} (hf : ∀ m t, (f t m).power.vmotUv = t.power.vmotUv) (ms : List Nat) (s : State) :
    (ms.foldl f s).power.vmotUv = s.power.vmotUv :=
  ms.foldlRecOn (motive := fun t => t.power.vmotUv = s.power.vmotUv) f rfl (fun t ht m _ => (hf m t).trans ht)

/-- A fan gives up its requests and its grants. -/
def fanGiveUp (n : Nat) (s : State) : State :=
  dropReReq 1 (0x40 + n) (withdraw 0 (0x40 + n) (withdraw 1 (0x40 + n)
    (releaseGrant 0 (0x40 + n) (releaseGrant 1 (0x40 + n) s))))

@[simp] theorem thermal_fanGiveUp (n : Nat) (s : State) : (fanGiveUp n s).thermal = s.thermal := by
  simp [fanGiveUp]

@[simp] theorem fan_fanGiveUp (m n : Nat) (s : State) : (fanGiveUp m s).fan n = s.fan n := by
  simp [State.fan]

theorem vmotUv_fanGiveUp (n : Nat) (s : State) : (fanGiveUp n s).power.vmotUv = s.power.vmotUv := by
  simp [fanGiveUp]

theorem grantOf_fanGiveUp_of_none (m : Nat) (s : State) (cls who : Nat) (h : s.grantOf cls who = none) :
    (fanGiveUp m s).grantOf cls who = none :=
  grantOf_releaseGrant_of_none _ _ _ _ _ (grantOf_releaseGrant_of_none _ _ _ _ _ h)

theorem grantOf_fanGiveUp_same (n : Nat) (s : State) :
    (fanGiveUp n s).grantOf 0 (0x40 + n) = none ∧ (fanGiveUp n s).grantOf 1 (0x40 + n) = none :=
  ⟨grantOf_releaseGrant_same _ _ _, grantOf_releaseGrant_of_none _ _ _ _ _ (grantOf_releaseGrant_same _ _ s)⟩

/-- What an undervoltage of VMOT does to a fan: it gives up its leave, and a running one stops (R73). -/
def fanLosesVmot (s : State) (n : Nat) : State :=
  if (s.fan n).st == 1 || (s.fan n).st == 2 || (s.fan n).st == 4 then
    (fanGiveUp n s).modFan n (fun f => { f with st := 5, drive := 0, setMil := 0, integ := 0, current := 0 })
  else fanGiveUp n s

theorem exec_vmotUv (s : State) (h : s.power.vmotUv = false) : exec .vmotUv s =
    .next (powerRec 0x06 0xFF 0xFF 0 0 ((List.range 3).foldl fanLosesVmot { s with power.vmotUv := true })) := by
  change Host.Outcome.next _ = _
  rw [if_neg (by simp [h])]
  rfl

theorem grantOf_fanLosesVmot (m : Nat) (s : State) (cls who : Nat) :
    (fanLosesVmot s m).grantOf cls who = (fanGiveUp m s).grantOf cls who := by
  unfold fanLosesVmot
  generalize fanGiveUp m s = t
  split <;> rfl

theorem vmotUv_fanLosesVmot (m : Nat) (s : State) : (fanLosesVmot s m).power.vmotUv = s.power.vmotUv := by
  rw [← vmotUv_fanGiveUp m s, fanLosesVmot]
  generalize fanGiveUp m s = t
  split <;> rfl

theorem fans_length_fanLosesVmot (m : Nat) (s : State) :
    (fanLosesVmot s m).thermal.fans.length = s.thermal.fans.length := by
  unfold fanLosesVmot
  split
  · exact State.modFan_fans_length _ m _
  · rfl

theorem fan_fanLosesVmot_other (m n : Nat) (s : State) (h : m ≠ n) : (fanLosesVmot s m).fan n = s.fan n := by
  unfold fanLosesVmot
  split
  · rw [State.fan_modFan_other _ m n _ h.symm, fan_fanGiveUp]
  · exact fan_fanGiveUp m n s

theorem fan_fanLosesVmot_same (n : Nat) (s : State) (hst : (s.fan n).st ∈ [1, 2, 4]) (hn : n < s.thermal.fans.length) :
    ((fanLosesVmot s n).fan n).st = 5 ∧ ((fanLosesVmot s n).fan n).drive = 0 := by
  have hruns : ((s.fan n).st == 1 || (s.fan n).st == 2 || (s.fan n).st == 4) = true := by
    simpa [or_assoc] using hst
  rw [fanLosesVmot, if_pos hruns, State.fan_modFan_same _ n _ (by simpa using hn)]
  exact ⟨rfl, rfl⟩

/-- Where a fan stands after an undervoltage of VMOT in state `s`. -/
def fanWithoutVmot (s : State) (n : Nat) (t : State) : Prop :=
  t.grantOf 0 (0x40 + n) = none ∧ t.grantOf 1 (0x40 + n) = none ∧
    ((s.fan n).st ∈ [1, 2, 4] → n < s.thermal.fans.length → (t.fan n).st = 5 ∧ (t.fan n).drive = 0)

theorem fanWithoutVmot_foldl (s : State) (n : Nat) (hn : n < 3) :
    fanWithoutVmot s n ((List.range 3).foldl fanLosesVmot { s with power.vmotUv := true }) := by
  refine foldl_over_fans (before := fun t => t.fan n = s.fan n ∧ t.thermal.fans.length = s.thermal.fans.length)
    (fun t m hm hbefore => ?_) (fun t hbefore => ?_) (fun t m hm hresult => ?_)
    _ List.nodup_range (List.mem_range.2 hn) _ ⟨rfl, rfl⟩
  · rwa [fan_fanLosesVmot_other m n t hm, fans_length_fanLosesVmot]
  · obtain ⟨hfan, hlen⟩ := hbefore
    simp only [fanWithoutVmot, grantOf_fanLosesVmot, ← hfan, ← hlen]
    obtain ⟨hstart, hhold⟩ := grantOf_fanGiveUp_same n t
    exact ⟨hstart, hhold, fan_fanLosesVmot_same n t⟩
  · obtain ⟨hstart, hhold, hfan⟩ := hresult
    simp only [fanWithoutVmot, grantOf_fanLosesVmot, fan_fanLosesVmot_other m n t hm]
    exact ⟨grantOf_fanGiveUp_of_none m t _ _ hstart, grantOf_fanGiveUp_of_none m t _ _ hhold, hfan⟩

/-- A fan that had failed waits for its next trial once VMOT is back (R73). -/
def fanRetries (n : Nat) (s : State) : State :=
  if (s.fan n).failed then s.modFan n (fun f => { f with st := 3, retryMs := 30000 }) else s

/-- A fan that lost VMOT stands still, and asks for its start where it has a target (R73). -/
def fanRestarts (n : Nat) (s : State) : State :=
  if (s.fan n).st == 5 then
    let s := s.modFan n (fun f => { f with st := 0 })
    if 0 < (s.fan n).target && !(s.fan n).hot then request 0 (0x40 + n) s.power.fanStart false 0 false s else s
  else s

/-- What the end of an undervoltage of VMOT does to a fan. -/
def fanRegainsVmot (s : State) (n : Nat) : State := fanRestarts n (fanRetries n s)

theorem exec_vmotUvEnd (s : State) (h : s.power.vmotUv = true) : exec .vmotUvEnd s =
    .next ((List.range 3).foldl fanRegainsVmot { s with power.vmotUv := false }) := by
  change Host.Outcome.next _ = _
  rw [if_neg (by simp [h])]
  rfl

theorem vmotUv_fanRegainsVmot (m : Nat) (s : State) : (fanRegainsVmot s m).power.vmotUv = s.power.vmotUv := by
  have hretry : (fanRetries m s).power.vmotUv = s.power.vmotUv := by
    unfold fanRetries
    split <;> rfl
  rw [← hretry, fanRegainsVmot]
  generalize fanRetries m s = t
  unfold fanRestarts
  split
  · dsimp only
    split <;> rfl
  · rfl

/-- What the rows of VMOT read of a fan: the fan, the number of fans and the pending request for its start. -/
def fanView (n : Nat) (s : State) : Fan × Nat × Option Req := (s.fan n, s.thermal.fans.length, s.reqOf 0 (0x40 + n))

theorem fanView_modFan_other (m n : Nat) (f : Fan → Fan) (s : State) (h : m ≠ n) : fanView n (s.modFan m f) = fanView n s := by
  simp [fanView, State.fan_modFan_other s m n f h.symm]

theorem fanView_request_other (m n cost : Nat) (s : State) (h : m ≠ n) :
    fanView n (request 0 (0x40 + m) cost false 0 false s) = fanView n s := by
  rw [fanView, reqOf_request_other _ _ _ _ _ _ _ _ _ (by omega)]
  rfl

theorem fanView_fanRegainsVmot_other (m n : Nat) (s : State) (h : m ≠ n) : fanView n (fanRegainsVmot s m) = fanView n s := by
  have hretry : fanView n (fanRetries m s) = fanView n s := by
    unfold fanRetries
    split
    · exact fanView_modFan_other m n _ s h
    · rfl
  rw [← hretry, fanRegainsVmot]
  generalize fanRetries m s = t
  unfold fanRestarts
  split
  · dsimp only
    split
    · rw [fanView_request_other m n _ _ h, fanView_modFan_other m n _ t h]
    · exact fanView_modFan_other m n _ t h
  · rfl

theorem fan_fanRegainsVmot_failed (n : Nat) (s : State) (hn : n < s.thermal.fans.length) (hf : (s.fan n).failed = true) :
    ((fanRegainsVmot s n).fan n).st = 3 ∧ ((fanRegainsVmot s n).fan n).retryMs = 30000 := by
  have hfan : (fanRetries n s).fan n = { s.fan n with st := 3, retryMs := 30000 } := by
    rw [fanRetries, if_pos hf, State.fan_modFan_same s n _ hn]
  have hstays : fanRegainsVmot s n = fanRetries n s := by
    rw [fanRegainsVmot, fanRestarts, hfan]
    rfl
  rw [hstays, hfan]
  exact ⟨rfl, rfl⟩

theorem fan_fanRegainsVmot_stopped (n : Nat) (s : State) (hn : n < s.thermal.fans.length) (hst : (s.fan n).st = 5)
    (hf : (s.fan n).failed = false) : ((fanRegainsVmot s n).fan n).st = 0 ∧
      (0 < (s.fan n).target → (s.fan n).hot = false → ((fanRegainsVmot s n).reqOf 0 (0x40 + n)).isSome = true) := by
  have hretry : fanRetries n s = s := if_neg (by simp [hf])
  have hfan : (s.modFan n (fun f => { f with st := 0 })).fan n = { s.fan n with st := 0 } :=
    State.fan_modFan_same s n _ hn
  rw [fanRegainsVmot, hretry, fanRestarts, if_pos (by simp [hst])]
  simp only [hfan]
  split
  next => exact ⟨congrArg Fan.st hfan, fun _ _ => reqOf_request_same ..⟩
  next hstill =>
    refine ⟨congrArg Fan.st hfan, fun htarget hhot => absurd ?_ hstill⟩
    simp [htarget, hhot]

/-- Where a fan stands after the end of an undervoltage of VMOT in state `s`. -/
def fanWithVmot (s : State) (n : Nat) (t : State) : Prop :=
  ((s.fan n).st = 5 → (s.fan n).failed = false → (t.fan n).st = 0 ∧
    (0 < (s.fan n).target → (s.fan n).hot = false → (t.reqOf 0 (0x40 + n)).isSome = true)) ∧
  ((s.fan n).failed = true → (t.fan n).st = 3 ∧ (t.fan n).retryMs = 30000)

theorem fanWithVmot_foldl (s : State) (n : Nat) (hn : n < 3) (hlen : n < s.thermal.fans.length) :
    fanWithVmot s n ((List.range 3).foldl fanRegainsVmot { s with power.vmotUv := false }) := by
  refine foldl_over_fans (before := fun t => fanView n t = fanView n s)
    (fun t m hm hbefore => (fanView_fanRegainsVmot_other m n t hm).trans hbefore) (fun t hbefore => ?_)
    (fun t m hm hresult => ?_) _ List.nodup_range (List.mem_range.2 hn) _ rfl
  · obtain ⟨hfan, hfans, -⟩ : t.fan n = s.fan n ∧ t.thermal.fans.length = s.thermal.fans.length ∧ _ := by
      simpa only [fanView, Prod.mk.injEq] using hbefore
    rw [← hfans] at hlen
    rw [fanWithVmot, ← hfan]
    exact ⟨fan_fanRegainsVmot_stopped n t hlen, fan_fanRegainsVmot_failed n t hlen⟩
  · have hview := fanView_fanRegainsVmot_other m n t hm
    obtain ⟨hfan, -, hreq⟩ : (fanRegainsVmot t m).fan n = t.fan n ∧ _ ∧
        (fanRegainsVmot t m).reqOf 0 (0x40 + n) = t.reqOf 0 (0x40 + n) := by
      simpa only [fanView, Prod.mk.injEq] using hview
    rwa [fanWithVmot, hfan, hreq]

/-! ### The obligation -/

/-- The average of the meter exceeds the cap (R71). -/
theorem overAvg_iff (s : State) : s.overAvg = true ↔ s.feat 67 = true ∧ 5 * s.power.cap < s.meter.avg := by
  simp [State.overAvg]

/-- The overcap guard revokes the first of the revocable grants (R71). -/
theorem exec_overcapRevoke_revokes (s : State) (g : Grant) (hguard : s.power.guard = true) (hover : s.overAvg = true)
    (hg : s.revocables.head? = some g) : exec .overcapRevoke s = .next (revoke false g s) := by
  obtain ⟨gs, hgs⟩ := List.head?_eq_some_iff.1 hg
  change Host.Outcome.next _ = _
  simp [hguard, hover, hgs]

/-- Once the average is within the cap the overcap guard ends (R71). -/
theorem exec_overcapRevoke_ends (s : State) (hguard : s.power.guard = true) (hover : s.overAvg = false) :
    exec .overcapRevoke s = .next { s with
      power.guard := false, power.overcap := decide (s.power.cap < s.base + s.heldCost) } := by
  change Host.Outcome.next _ = _
  simp [hguard, hover]

/-- A list of which the newest `n` are kept holds at most `n`, as the samples of the meter do (R61). -/
theorem length_drop_length_sub {α : Type} (n : Nat) (xs : List α) : (xs.drop (xs.length - n)).length = min n xs.length := by
  rw [List.length_drop]
  omega

/-- Settles O44: each row is its function of the supplies or of the Hearth, taken apart into the cases of its condition; the
rows of VMOT take one fan after another. -/
theorem powerRows : Obligations.PowerRows := by
  refine ⟨?meter, ?rankZero, ?decision, ?refusal, ?rerequest, ?dip, ?dipEnd, ?overcap, ?guardRevokes, ?guardEnds, ?vmotUv,
    ?vmotUvEnd, ?boost⟩
  case meter =>
    refine fun m s => ⟨_, rfl, rfl, rfl, rfl, fun h => if_pos h, fun h => if_neg (by simp [h]), rfl, ?_⟩
    exact (length_drop_length_sub 100 _).trans (by rw [List.length_append, List.length_singleton])
  case rankZero => exact fun s h => congrArg Host.Outcome.next (if_pos h)
  case decision => exact fun s h => congrArg Host.Outcome.next (if_neg (by simp [h]))
  case refusal => exact fun s => rfl
  case rerequest =>
    exact fun cls who => actsWhen_of (fun _ => rfl) (fun s h => if_pos (by simpa [and_assoc] using h))
      (fun s h => if_neg (by simpa [and_assoc] using h))
  case dip =>
    refine fun vin => actsWhen_of (fun _ => rfl) (fun s h => ?_) (fun s h => ?_)
    · obtain ⟨hvin, hdip⟩ := h
      rw [if_neg (Nat.not_le.2 hvin), if_neg (by simp [hdip])]
    · by_cases hvin : 440 ≤ vin
      · rw [if_pos hvin]
      · rw [if_neg hvin, if_pos (by simpa [Nat.not_le.1 hvin] using h)]
  case dipEnd =>
    exact fun vin => actsWhen_of (fun _ => rfl) (fun s h => if_pos (by simpa using h)) (fun s h => if_neg (by simpa using h))
  case overcap =>
    exact actsWhen_of (fun _ => rfl) (fun s h => if_pos (by simpa [overAvg_iff, and_assoc] using h))
      (fun s h => if_neg (by simpa [overAvg_iff, and_assoc] using h))
  case guardRevokes =>
    exact fun s g hguard hfeat hover hg => exec_overcapRevoke_revokes s g hguard ((overAvg_iff s).2 ⟨hfeat, hover⟩) hg
  case guardEnds =>
    exact fun s hguard havg => exec_overcapRevoke_ends s hguard (by simp [State.overAvg, Nat.not_lt.2 havg])
  case vmotUv =>
    intro s h
    refine ⟨_, exec_vmotUv s h, ?_, fun n hn => ?_⟩
    · rw [(reportsOnly_powerRec _ _ _ _ _ _).power]
      exact vmotUv_foldl vmotUv_fanLosesVmot _ _
    · have hrec := reportsOnly_powerRec 0x06 0xFF 0xFF 0 0 ((List.range 3).foldl fanLosesVmot { s with power.vmotUv := true })
      rw [hrec.grantOf, hrec.grantOf, hrec.fan]
      exact fanWithoutVmot_foldl s n hn
  case vmotUvEnd =>
    intro s h
    refine ⟨_, exec_vmotUvEnd s h, ?_, fun n hn hlen => fanWithVmot_foldl s n hn hlen⟩
    exact vmotUv_foldl vmotUv_fanRegainsVmot _ _
  case boost => exact actsWhen_of (fun _ => rfl) (fun s h => if_pos h) (fun s h => if_neg h)

end Sys2Proof.Machine

/-! Rows of the front end: lines, channels, clamps and open pins, the bridges, the thermistors and SHDN_N (R114, R121,
R136-R144, R151-R153, R481-R483, R491; the sensing pins below 148 that a boundary restores are log 24). -/

namespace Sys2Proof.Machine
open Sys2Proof Sys2Proof.Safety

/-- A row whose function has one test and else leaves the state acts where the test holds. -/
theorem actsWhen_if {x : Instr} {cond : State → Prop} {f : State → State} (test : State → Bool)
    (hrow : ∀ s, exec x s = .next (if test s then f s else s)) (htest : ∀ s, test s = true ↔ cond s) :
    actsWhen x cond f :=
  actsWhen_of hrow (fun s h => if_pos ((htest s).2 h)) (fun s h => if_neg (mt (htest s).1 h))

/-! ### Clamps -/

theorem reportsOnly_clampRec (sub pin count : Nat) (s : State) : reportsOnly s (clampRec sub pin count s) :=
  reportsOnly_putHouse _ _ _ s

/-- A record of a clamp, written or not, leaves the clamps as they are. -/
theorem clamp_of_clampRec_if (first : Bool) (sub pin count : Nat) (s : State) :
    (if first then clampRec sub pin count s else s).clamp = s.clamp := by
  cases first
  · rfl
  · rw [if_pos rfl, reportsOnly_clampRec sub pin count s]

/-- A clamp is an event at the monitor's start and after 1 ms without clamping (R136). -/
def clampIsEvent (pin : Nat) (s : State) : Bool :=
  match s.clamp.lastClamp.getD pin none with
  | none => true
  | some c => 1024 ≤ ticksSince c s.clk.tb || ticksSince s.clamp.since s.clk.tb < ticksSince c s.clk.tb

/-- A clamp under the monitor latches its flags and its instant, and counts where it is an event (R136, R137). -/
theorem exec_clamp_monitored (pin : Nat) (s : State) (hpin : pin < 177) (hmon : s.monitor = true) :
    ∃ t, exec (.clamp pin) s = .next t ∧ t.clamp.flags = setBit s.clamp.flags pin true ∧
      t.clamp.inFrame = setBit s.clamp.inFrame pin true ∧ t.clamp.opened = s.clamp.opened ∧
      t.clamp.lastClamp = s.clamp.lastClamp.set pin (some s.clk.tb) ∧
      t.clamp.counters = s.clamp.counters.set pin
        (if clampIsEvent pin s then min 255 (s.clamp.counters.getD pin 0 + 1) else s.clamp.counters.getD pin 0) := by
  refine ⟨_, rfl, ?_⟩
  rw [if_pos (by simp [hpin, hmon])]
  simp only [clamp_of_clampRec_if, true_and]
  unfold clampIsEvent
  cases s.clamp.lastClamp.getD pin none with
  | none => simp [satAdd]
  | some c => simp [satAdd, atLeastSince, or_comm]

theorem clampIsEvent_of_none {pin : Nat} {s : State} (h : s.clamp.lastClamp.getD pin none = none) :
    clampIsEvent pin s = true := by
  simp only [clampIsEvent, h]

theorem clampIsEvent_of_some {pin c : Nat} {s : State} (h : s.clamp.lastClamp.getD pin none = some c) :
    clampIsEvent pin s = true ↔
      1024 ≤ ticksSince c s.clk.tb ∨ ticksSince s.clamp.since s.clk.tb < ticksSince c s.clk.tb := by
  simp only [clampIsEvent, h, Bool.or_eq_true, decide_eq_true_eq]

theorem monitor_iff (s : State) : s.monitor = true ↔ s.power.domSense = true ∨ s.power.domDrive = true := by
  simp [State.monitor]

theorem clampedLong_iff (s : State) (pin : Nat) :
    s.clampedLong pin = true ↔ ∃ c, s.clamp.runAt.getD pin none = some c ∧ c + 1024000 ≤ s.monitored := by
  unfold State.clampedLong
  cases s.clamp.runAt.getD pin none <;> simp

/-- What PIN_OPEN tests is R151's condition: the monitor runs and the pin, not yet treated as open, has clamped for 1 s. -/
theorem pinOpen_due_iff (pin : Nat) (s : State) :
    (decide (pin < 177) && s.monitor && s.clampedLong pin && !getBit s.clamp.opened pin) = true ↔
      pin < 177 ∧ (s.power.domSense = true ∨ s.power.domDrive = true) ∧
        (∃ c, s.clamp.runAt.getD pin none = some c ∧ c + 1024000 ≤ s.monitored) ∧
          getBit s.clamp.opened pin = false := by
  simp only [Bool.and_eq_true, decide_eq_true_eq, monitor_iff, clampedLong_iff, Bool.not_eq_true', and_assoc]

theorem atLeastSince_iff (d : Nat) (t : Option Nat) (now : Nat) :
    atLeastSince d t now = true ↔ ∀ c, t = some c → d ≤ ticksSince c now := by
  cases t <;> simp [atLeastSince]

/-- A pin treated as open that has not clamped for 1 s is restored, unless R121 holds its channel: a sensing pin at the next
boundary, another at once (R151). -/
theorem exec_pinRestored_due (pin : Nat) (s : State) (hpin : pin < 177) (hopen : getBit s.clamp.opened pin = true)
    (hquiet : ∀ c, s.clamp.lastClamp.getD pin none = some c → 1024000 ≤ ticksSince c s.clk.tb)
    (hclip : 64 ≤ pin → pin < 104 → getBit s.fc.clip (pin - 64) = false) :
    exec (.pinRestored pin) s = .next
      (if pin < 148 then { s with clamp.restore := setBit s.clamp.restore pin true } else restorePin pin s) := by
  refine congrArg Host.Outcome.next (if_pos ?_)
  have hquiet' := (atLeastSince_iff 1024000 _ s.clk.tb).2 hquiet
  simp only [hpin, hopen, hquiet', decide_true, Bool.and_self, Bool.true_and, Bool.not_eq_true']
  grind

/-! ### Bridges -/

theorem State.bridge_modBridge_same (s : State) (n : Nat) (f : Bridge → Bridge) (h : n < s.bridges.length) :
    (s.modBridge n f).bridge n = f (s.bridge n) := modAt_getD_same f n s.bridges .reset h

theorem State.bridge_modBridge_other (s : State) (m n : Nat) (f : Bridge → Bridge) (h : n ≠ m) :
    (s.modBridge m f).bridge n = s.bridge n := modAt_getD_other f m n s.bridges .reset h

theorem exec_excFault (n : Nat) (hn : n < 4) (s : State) : exec (.excFault n) s = .next (excFault n s) :=
  congrArg Host.Outcome.next (if_pos hn)

theorem exec_excRestored (n : Nat) (hn : n < 4) (s : State) : exec (.excRestored n) s = .next (excRestored n s) :=
  congrArg Host.Outcome.next (if_pos hn)

theorem exec_bridgeSaturated (n : Nat) (hn : n < 4) (s : State) :
    exec (.bridgeSaturated n) s = .next (bridgeSaturated n s) := congrArg Host.Outcome.next (if_pos hn)

theorem exec_sensorOk (i : Nat) (hi : i < 4) (s : State) : exec (.sensorOk i) s = .next (sensorOk i s) :=
  congrArg Host.Outcome.next (if_pos hi)

theorem clampI_eq_max_min (lo hi x : Int) (h : lo ≤ hi) : clampI lo hi x = max lo (min hi x) := by
  unfold clampI
  split
  · omega
  · split <;> omega

/-- A conversion stays within the converter's limits (R139). -/
theorem convert_within (v : BitVec 32) (pga : Nat) (x : BridgeSample) :
    -8388607 ≤ (convert v pga x).1 ∧ (convert v pga x).1 ≤ 8388607 := by
  simp only [convert, clampI_eq_max_min (-8388607) 8388607 _ (by decide)]
  omega

/-- With a sensed excitation a conversion is the ratio to it, under the gain of the PGA (R139, R158). -/
theorem convert_of_sensed (v : BitVec 32) (pga : Nat) (x : BridgeSample) (h : x.diffSense ≠ 0) :
    (convert v pga x).1 = max (-8388607) (min 8388607 (roundDiv (x.diffIn * gainOf pga * 2 ^ 23) x.diffSense)) := by
  simp [convert, clampI_eq_max_min, h]

theorem gainOf_eq (pga : Nat) :
    (gainOf pga : Int) = if pga = 0 then 1 else if pga = 1 then 8 else if pga = 2 then 32 else 128 := by
  match pga with
  | 0 | 1 | 2 | _ + 3 => rfl

/-- The value that stands for the ratio where no excitation is sensed, and the state it is drawn from (log 24). -/
def conversionDraw (x : BridgeSample) (s : State) : BitVec 32 × State := if x.diffSense == 0 then fresh s else (0, s)

theorem bridges_conversionDraw (x : BridgeSample) (s : State) : (conversionDraw x s).2.bridges = s.bridges := by
  unfold conversionDraw
  split <;> rfl

/-- A conversion of an excited bridge enters sum and count once none is to be discarded, and leaves the other bridges
(R139). -/
theorem exec_forceConversion_excited (n : Nat) (x : BridgeSample) (s : State) (hn : n < 4)
    (hlen : n < (bridgeDue n s).bridges.length) (hexc : ((bridgeDue n s).bridge n).excited = true) :
    let b := (bridgeDue n s).bridge n
    ∃ (w : BitVec 32) (t : State), exec (.forceConversion n x) s = .next t ∧
      (t.bridge n).sum = (if b.discard = 0 then b.sum + (convert w b.pga x).1 else b.sum) ∧
      (t.bridge n).count = (if b.discard = 0 then b.count + 1 else b.count) ∧ (t.bridge n).discard = b.discard - 1 ∧
      ∀ m, m ≠ n → t.bridge m = (bridgeDue n s).bridge m := by
  intro b
  have hdraw := bridges_conversionDraw x (bridgeDue n s)
  have hsame : (conversionDraw x (bridgeDue n s)).2.bridge n = b := by rw [State.bridge, hdraw]; rfl
  refine ⟨(conversionDraw x (bridgeDue n s)).1, (conversionDraw x (bridgeDue n s)).2.modBridge n _,
    congrArg Host.Outcome.next ((if_neg (Nat.not_le.2 hn)).trans (if_neg (by simp [hexc]))), ?_⟩
  rw [State.bridge_modBridge_same _ n _ (hdraw ▸ hlen), hsame]
  refine ⟨if_congr beq_iff_eq rfl rfl, if_congr beq_iff_eq rfl rfl, rfl, fun m hm => ?_⟩
  rw [State.bridge_modBridge_other _ n m _ hm, State.bridge, hdraw]
  rfl

/-! ### The obligation -/

/-- Settles O47: each row is its function of the front end, taken apart into the case where its condition holds and the case
where the function leaves the state. -/
theorem frontEndRows : Obligations.FrontEndRows := by
  refine ⟨?txLineOff, ?channelClip, ?clamp, ?unmonitored, ?pinOpen, ?restoreSensing, ?restoreOther, ?notOpen, ?conversion,
    ?excFault, ?excRestored, ?saturated, ?thermistors, ?sensorOk, ?comparison, ?shdnAssert, ?shdnRelease, ?urgent, ?noMove⟩
  case txLineOff =>
    exact fun l => actsWhen_if _ (fun _ => rfl) (fun s => by simp [and_assoc])
  case channelClip =>
    exact fun r => actsWhen_if _ (fun _ => rfl) (fun s => by simp [and_assoc])
  case clamp =>
    intro pin s hpin hmon
    obtain ⟨t, hrow, hflags, hframe, hopened, hlast, hcount⟩ := exec_clamp_monitored pin s hpin ((monitor_iff s).2 hmon)
    refine ⟨t, hrow, hflags, hframe, hopened, hlast, fun hnone => ?_, fun c hc => ?_⟩
    · rw [hcount, if_pos (clampIsEvent_of_none hnone)]
    · simp only [hcount, clampIsEvent_of_some hc]
  case unmonitored =>
    exact fun pin s hsense hdrive => congrArg Host.Outcome.next (if_neg (by simp [State.monitor, hsense, hdrive]))
  case pinOpen =>
    exact fun pin => actsWhen_if _ (fun _ => rfl) (pinOpen_due_iff pin)
  case restoreSensing =>
    intro pin s hopen hpin hquiet hclip
    rw [exec_pinRestored_due pin s (by omega) hopen hquiet hclip, if_pos hpin]
  case restoreOther =>
    intro pin s hopen hlow hpin hquiet
    rw [exec_pinRestored_due pin s hpin hopen hquiet (by omega), if_neg (by omega)]
  case notOpen => exact fun pin s h => congrArg Host.Outcome.next (if_neg (by simp [h]))
  case conversion =>
    intro n x s hn hlen hexc b gain ratio
    obtain ⟨w, t, hrow, hconv⟩ := exec_forceConversion_excited n x s hn hlen hexc
    obtain ⟨hlo, hhi⟩ := convert_within w b.pga x
    refine ⟨t, (convert w b.pga x).1, hrow, hlo, hhi, fun hd => ?_, hconv⟩
    rw [convert_of_sensed w b.pga x hd, gainOf_eq]
  case excFault =>
    exact fun n hn => actsWhen_unless (fun s => !((s.bridge n).excited && decide (4 ≤ (s.bridge n).badRun)))
      (exec_excFault n hn) (fun s => by simp)
  case excRestored =>
    exact fun n hn => actsWhen_if _ (exec_excRestored n hn) (fun s => by simp [and_assoc])
  case saturated =>
    exact fun n hn => actsWhen_if _ (exec_bridgeSaturated n hn) (fun s => by simp)
  case thermistors =>
    exact fun xs die => actsWhen_unless (fun s => s.aon.mode == .hibernate || s.aon.mode == .off) (fun _ => rfl)
      (fun s => by simp)
  case sensorOk =>
    exact fun i hi => actsWhen_if _ (exec_sensorOk i hi) (fun s => by simp [and_assoc])
  case comparison =>
    intro die x tcrit s hon
    refine ⟨_, congrArg Host.Outcome.next (if_neg (by simpa using hon)), rfl, rfl, rfl, rfl, ite_eq_or_eq _ _ _,
      fun hhot => if_neg ?_⟩
    have hwarm : ¬ die < tcritTemp tcrit - 100 := by omega
    simp [hwarm]
  case shdnAssert => exact actsWhen_if _ (fun _ => rfl) (fun s => by simp)
  case shdnRelease => exact actsWhen_if _ (fun _ => rfl) (fun s => by simp)
  case urgent => exact fun s => rfl
  case noMove => exact fun s h => if_pos (by rcases h with h | h <;> simp [h])

end Sys2Proof.Machine

/-! One step of the block, and the engine: the instruction issued, the entry begun, the word fetched (R222, R225-R227, R239, R245). -/

namespace Sys2Proof.Machine
open Sys2Proof Sys2Proof.Safety

/-! ### The step -/

theorem step_cons (c : Instr) (s : State) : step { s with pending := c :: s.pending } = exec c s := rfl

theorem step_nil {s : State} (h : s.pending = []) : step s = .next (idle s) := by
  unfold step
  rw [h]

/-- Settles O1: the queue's front decides, and with an empty queue the open turn. -/
theorem stepTakesTheFrontCommand : Obligations.StepTakesTheFrontCommand := by
  refine ⟨step_cons, fun s hp ht => ?_, fun s t hp ht => ?_⟩
  · simp [step_nil hp, idle, ht]
  · simp [step_nil hp, idle, ht]

/-! ### An instruction issued -/

@[simp] theorem charge_ctx (n j : Nat) (s : State) : (charge n s).ctx j = s.ctx j := by
  unfold State.ctx
  rw [charge_ctxs]

theorem issued_ctx_same {i : Nat} {s : State} (cost : Nat) (h : i < s.ctxs.length) :
    (issued i cost s).ctx i = { s.ctx i with pc := (s.ctx i).pc + 4 } :=
  (charge_ctx cost i _).trans (State.ctx_modCtx_same s i _ h)

theorem issued_ctx_other {i j : Nat} (cost : Nat) (s : State) (h : j ≠ i) : (issued i cost s).ctx j = s.ctx j :=
  (charge_ctx cost j _).trans (State.ctx_modCtx_other s i j _ h)

theorem issued_eng {t : Turn} {s : State} (i cost : Nat) (h : s.eng.turn = some t) :
    (issued i cost s).eng = { s.eng with turn := some { t with used := t.used + cost } } :=
  charge_turn cost (s.modCtx i _) h

/-- Issuing touches the context, the turn, and what passing time touches. -/
theorem issued_frame (i cost : Nat) (s : State) :
    let u := issued i cost s
    u = { s with ctxs := u.ctxs, eng := u.eng, clk := u.clk, wc := u.wc
                 led := { s.led with period := { s.led.period with flags := u.led.period.flags } } } := by
  unfold issued
  rw [charge_frame]
  rfl

/-- Settles O6: issuing is a change of the pc followed by a charge. -/
theorem anInstructionIsIssued : Obligations.AnInstructionIsIssued := by
  intro i cost t s ⟨hturn, _, _, hi⟩
  exact ⟨issued_ctx_same cost hi, fun j hj => issued_ctx_other cost s hj, issued_eng i cost hturn, issued_frame i cost s⟩

/-! ### An entry begun -/

/-- A context as an entry finds it: its pc, d1, d14, d15 and clear flags (R225). -/
def Ctx.entered (k arg : Nat) (c : Ctx) : Ctx :=
  { c with
    pc := c.img.entry k
    regs := ((c.regs.set 1 (wordN arg)).set 14 0x10000000#32).set 15 0xFFFFFFFC#32
    z := false
    n := false
    c := false
    v := false }

theorem beginEntry_eq {t : Turn} {s : State} (i k arg : Nat) (msg : Option Notice) (h : s.eng.turn = some t) :
    beginEntry i k arg msg s =
      charge 4 (State.modCtx { s with eng.turn := some { t with inEntry := true, entryKind := k, msg := msg } } i (Ctx.entered k arg)) := by
  unfold beginEntry
  rw [h]
  rfl

theorem beginEntry_ctx {t : Turn} {s : State} {i : Nat} (k arg : Nat) (msg : Option Notice) (h : s.eng.turn = some t)
    (hi : i < s.ctxs.length) : (beginEntry i k arg msg s).ctx i = (s.ctx i).entered k arg := by
  rw [beginEntry_eq i k arg msg h, charge_ctx]
  exact State.ctx_modCtx_same _ i _ hi

theorem beginEntry_turn {t : Turn} {s : State} (i k arg : Nat) (msg : Option Notice) (h : s.eng.turn = some t) :
    (beginEntry i k arg msg s).eng.turn = some { t with inEntry := true, entryKind := k, msg := msg, used := t.used + 4 } := by
  rw [beginEntry_eq i k arg msg h, charge_turn (t := { t with inEntry := true, entryKind := k, msg := msg }) 4 _ rfl]

/-- Of the registers an entry sets d1, d14 and d15. -/
theorem Ctx.entered_reg_other (k arg : Nat) (c : Ctx) {r : Reg} (h1 : r ≠ 1) (h14 : r ≠ 14) (h15 : r ≠ 15) :
    (c.entered k arg).reg r = c.reg r := by
  have k1 : 1 ≠ r.toNat := by bv_omega
  have k14 : 14 ≠ r.toNat := by bv_omega
  have k15 : 15 ≠ r.toNat := by bv_omega
  simp [Ctx.reg, Ctx.entered, k1, k14, k15]

/-- Settles O14: the entry's context is set up before its cycles are charged. -/
theorem entriesBegin : Obligations.EntriesBegin := by
  intro i k arg msg t s hturn hi hregs
  have hctx := beginEntry_ctx k arg msg hturn hi
  have hreg (r : Reg) : (beginEntry i k arg msg s).reg i r = ((s.ctx i).entered k arg).reg r := congrArg (Ctx.reg · r) hctx
  have hset (r : Reg) (h0 : r ≠ 0) : (beginEntry i k arg msg s).reg i r =
      ((((s.ctx i).regs.set 1 (wordN arg)).set 14 0x10000000#32).set 15 0xFFFFFFFC#32).getD r.toNat 0 :=
    (hreg r).trans (if_neg (by simpa using h0))
  refine ⟨congrArg Ctx.pc hctx, ?_, ?_, ?_, fun r h1 h14 h15 => ?_, congrArg Ctx.z hctx, congrArg Ctx.n hctx,
    congrArg Ctx.c hctx, congrArg Ctx.v hctx, beginEntry_turn i k arg msg hturn⟩
  · rw [hset 1 (by decide)]
    simp [hregs, wordN]
  · rw [hset 14 (by decide)]
    simp [hregs]
  · rw [hset 15 (by decide)]
    simp [hregs]
  · rw [hreg]
    exact Ctx.entered_reg_other k arg _ h1 h14 h15

/-! ### The word fetched -/

theorem engineStep_trapped {i d : Nat} {t : Turn} {s : State} (h : inTurn i t s) (hf : fetchAt i s = .trapped d) :
    engineStep s = trapped i 3 d t s := by
  obtain ⟨hturn, hin, hcur, _⟩ := h
  simp [engineStep, hturn, hin, hcur, hf, trap, trapped]

theorem engineStep_word {i : Nat} {t : Turn} {s : State} {w : Word} (h : inTurn i t s) (hf : fetchAt i s = .word w 0 s) :
    engineStep s = runInstr (decodeWord w) s := by
  obtain ⟨hturn, hin, hcur, _⟩ := h
  simp [engineStep, hturn, hin, hcur, hf]

theorem fetchAt_beyond {i : Nat} {s : State} (h : (s.ctx i).pc % 4 ≠ 0 ∨ (s.ctx i).img.size < (s.ctx i).pc + 4) :
    fetchAt i s = .trapped 2 := by
  have hb : ((s.ctx i).pc % 4 != 0 || (s.ctx i).img.size < (s.ctx i).pc + 4) = true := by simpa using h
  exact if_pos hb

theorem fetchAt_store {i : Nat} {s : State} (ha : (s.ctx i).pc % 4 = 0) (hs : (s.ctx i).pc + 4 ≤ (s.ctx i).img.size)
    (hx : (s.ctx i).img.xip = false) :
    fetchAt i s = .word (wordN (ofLe (Memory.readN 0 s.eng.code ((s.ctx i).img.base + (s.ctx i).pc) 4))) 0 s := by
  simp [fetchAt, ha, hx, Nat.not_lt.2 hs]

/-- Every instruction that a word spells answers a next state: the one that the engine goes on with. -/
theorem exec_eq_runInstr (x : Instr) (s : State) (h : (encodeWord x).isSome = true) : exec x s = .next (runInstr x s) := by
  cases x <;> cases h <;> rfl

/-- Settles O18: what is fetched decides between the trap and the instruction of the word. -/
theorem theEngineRunsTheFetchedInstruction : Obligations.TheEngineRunsTheFetchedInstruction := fun _ _ s h =>
  ⟨fun hb => engineStep_trapped h (fetchAt_beyond hb), fun ha hs hx => engineStep_word h (fetchAt_store ha hs hx),
    fun x => exec_eq_runInstr x s⟩

end Sys2Proof.Machine
/-! Mail and records: the host's commands on the boxes of a context and on the queues of its port (R229, R231, R317-R320). -/

namespace Sys2Proof.Machine
open Sys2Proof Sys2Proof.Safety

/-! ### The context that a unit names -/

/-- The steps of R303 on a context named in payload byte 0 come to a context of the port in one of the states. -/
theorem ofCtx_iff_steps (states : List Nat) (u : HostUnit) (d : State) :
    ofCtx states u d ↔
      ctxPerm u.port u.payload d = true ∧ ctxBusy u.payload d states = false ∧ ctxIn u.payload < 32 := by
  unfold ofCtx ctxPerm ctxBusy State.mayCtx ctxIn
  by_cases hi : byteAt u.payload 0 < 32
  · simp [hi, Nat.not_le.2 hi]
  · simp [hi]

/-! ### What a settled signal leaves as it is -/

@[simp] theorem settle_ctxs (s : State) : (settle s).ctxs = s.ctxs := by
  unfold settle
  dsimp only
  split <;> split <;> rfl

@[simp] theorem settle_port_house (q : Port) (s : State) : ((settle s).port q).house = (s.port q).house := by
  unfold settle
  dsimp only
  cases q <;> split <;> split <;> rfl

/-! ### Acknowledged records -/

/-- A record that an acknowledgement leaves: one without a number, or one whose number it does not name. -/
def QRec.stays (gone : Nat → Bool) (r : QRec) : Bool := match r.seq with
  | some n => !gone n
  | none => true

/-- A queue with the records named removed. -/
def Queue.cut (gone : Nat → Bool) (q : Queue) : Queue := { q with recs := q.recs.filter (QRec.stays gone) }

theorem ackRecs_eq (p : Port) (gone : Nat → Bool) (s : State) :
    ackRecs p gone s = settle { s.modPort p (fun q => { q with house := q.house.cut gone }) with
      ctxs := s.ctxs.map (fun c => if c.st != 0 && c.owner == p then { c with queue := c.queue.cut gone } else c) } := by
  have hstays : QRec.stays gone = fun r => !(match r.seq with
      | some n => gone n
      | none => false) := by
    funext r
    unfold QRec.stays
    cases r.seq <;> rfl
  unfold Queue.cut
  rw [hstays]
  cases p <;> rfl

/-- Acknowledging touches the contexts of its port alone. -/
theorem ackRecs_ctx_recs (p : Port) (gone : Nat → Bool) (s : State) (i : Nat) :
    ((ackRecs p gone s).ctx i).queue.recs =
      if (s.ctx i).st ≠ 0 ∧ (s.ctx i).owner = p ∧ i < s.ctxs.length then (s.ctx i).queue.recs.filter (QRec.stays gone)
      else (s.ctx i).queue.recs := by
  rw [ackRecs_eq]
  simp only [State.ctx, settle_ctxs, List.getD_eq_getElem?_getD, List.getElem?_map]
  by_cases hi : i < s.ctxs.length
  · simp only [List.getElem?_eq_getElem hi, Option.map_some, Option.getD_some, hi, and_true]
    by_cases hown : s.ctxs[i].st ≠ 0 ∧ s.ctxs[i].owner = p <;> simp [hown, Queue.cut]
  · simp [hi]

/-- Settles O35: acceptance is taken apart by `carries_ordinary`, an acknowledgement by the queues that it cuts. -/
theorem mailAndEventCommands : Obligations.MailAndEventCommands := by
  refine ⟨⟨?write, ?read⟩, ?ack, fun p pl v => rfl, ?mask, fun p gone s => ⟨?own, ?other, ackRecs_ctx_recs p gone s⟩⟩
  case write =>
    refine carries_ordinary (fun _ _ => rfl) (fun _ _ => ⟨rfl, rfl, rfl, rfl, rfl⟩) (fun u d => ?_) (fun u e => rfl)
    simp [cmdCtxMailWrite, Checks.ownSteps, ofCtx_iff_steps, and_assoc]
    tauto
  case read =>
    refine carries_ordinary (fun _ _ => rfl) (fun _ _ => ⟨rfl, rfl, rfl, rfl, rfl⟩) (fun u d => ?_) (fun u e => ?_)
    · simp [cmdCtxMailRead, Checks.ownSteps, ofCtx_iff_steps]
    · simp only [cmdCtxMailRead, List.isEmpty_iff]
      rfl
  case ack =>
    refine carries_ordinary (fun _ _ => rfl) (fun _ _ => ⟨rfl, rfl, rfl, rfl, rfl⟩) (fun u d => ?_) (fun u e => rfl)
    simp [cmdEvtAck, Checks.ownSteps]
  case mask =>
    refine carries_ordinary (fun _ _ => rfl) (fun _ _ => ⟨rfl, rfl, rfl, rfl, rfl⟩) (fun u d => ?_) (fun u e => rfl)
    simp [cmdEvtMask, Checks.ownSteps]
  case own =>
    rw [ackRecs_eq, settle_port_house]
    exact congrArg (·.house.recs) (State.modPort_port_same s p _)
  case other =>
    rw [ackRecs_eq, settle_port_house]
    exact congrArg (·.house) (State.modPort_port_other s p (otherPort p) _ (by cases p <;> decide))

end Sys2Proof.Machine
/-! The stitch pass of a span: what a member sends, what the leader keeps and decides, and frames without decisions (R235,
R444-R446, R449, R460). -/

namespace Sys2Proof.Machine
open Sys2Proof Sys2Proof.Safety

/-! ### Held candidates -/

/-- Holding changes nothing but the candidates. -/
def candsOnly (s t : State) : Prop := ∃ cs, t = { s with pipe.cands := cs }

theorem candsOnly_holdRest (s : State) : candsOnly s (holdRest s) := by
  unfold holdRest
  generalize ((seamFrags s).drop 6).map (·.peak) = ps
  suffices h : ∀ t, candsOnly s t → candsOnly s (ps.foldl (fun s p => holdPeak p s) t) from h s ⟨_, rfl⟩
  induction ps with
  | nil => exact fun t ht => ht
  | cons p ps ih =>
    rintro _ ⟨cs, rfl⟩
    exact ih _ ⟨_, rfl⟩

/-- No more seam fragments than STITCH carries: none is held. -/
theorem holdRest_of_few (s : State) (h : (seamFrags s).length ≤ 6) : holdRest s = s := by
  unfold holdRest
  rw [List.drop_of_length_le h]
  rfl

/-! ### Packets sent -/

/-- The packet last sent is the last of those kept. -/
theorem sendPacket_sent_last (typ dst frame : Nat) (payload : List Byte) (s : State) :
    (sendPacket typ dst frame payload s).spanx.sent.getLast? = some
      { typ := typ, src := s.pins.gpos, hops := 0, dst := dst, frame := frame % 256, payload := payload } := by
  simp [sendPacket, List.getLast?_drop]

/-! ### STITCH -/

/-- What a member's part in the stitch pass comes to while the pass waits for it. -/
theorem stitchPass_sends (s : State) (hin : s.inSpan = true) (hph : s.frame.phase = 1) (hns : s.spanx.stitchSent = false) :
    (stitchPass s).spanx.stitchSent = true ∧ (stitchPass s).spanx.endSaid = 0 ∧
      (s.span.role = 2 → (s.pins.gpos, stitchBytes (holdRest s)) ∈ (stitchPass s).spanx.stitches ∧
        (stitchPass s).spanx.sent = s.spanx.sent) ∧
      (s.span.role ≠ 2 → (stitchPass s).spanx.sent.getLast? = some
        { typ := 4, src := s.pins.gpos, hops := 0, dst := s.span.leader, frame := s.frame.comp % 256
          payload := stitchBytes (holdRest s) }) := by
  obtain ⟨cs, hhold⟩ := candsOnly_holdRest s
  have hpass : stitchPass s =
      let u := { holdRest s with spanx.stitchSent := true, spanx.endSaid := 0 }
      if s.span.role = 2 then
        { u with spanx.stitches := u.spanx.stitches.filter (fun x => x.1 != s.pins.gpos) ++ [(s.pins.gpos, stitchBytes (holdRest s))] }
      else sendPacket 0x04 s.span.leader s.frame.comp (stitchBytes (holdRest s)) u := by
    simp only [stitchPass, hin, hph, hns, hhold]
    simp
  generalize stitchBytes (holdRest s) = b at *
  by_cases hrole : s.span.role = 2
  · rw [hpass, hhold]
    simp [hrole]
  · rw [hpass, hhold]
    simp [hrole, sendPacket_sent_last]
    simp [sendPacket]

/-- Outside its time a member sends nothing. -/
theorem stitchPass_stays (s : State) (h : s.inSpan = false ∨ s.frame.phase ≠ 1 ∨ s.spanx.stitchSent = true) :
    stitchPass s = s := by
  refine if_pos ?_
  rcases h with h | h | h <;> simp [h]

/-! ### Decisions -/

theorem mem_insertBy {α : Type} (k : α → Int) (x : α) (xs : List α) : x ∈ insertBy k x xs := by
  induction xs with
  | nil => exact List.mem_singleton.2 rfl
  | cons y ys ih =>
    unfold insertBy
    split
    · exact List.mem_cons_self
    · exact List.mem_cons_of_mem _ ih

/-- A candidate of the part that a decision names is among the contacts where the part has a place. -/
theorem takeContact_mem (e : Entry) (s : State) (c : Cand) (hc : s.pipe.cands.find? (fun c => c.peak == e.peak) = some c)
    (hp : s.places ≠ 0) : c.toContact s e.id ∈ (takeContact e false s).pipe.contacts := by
  simp only [takeContact, hc]
  simpa [hp] using mem_insertBy _ _ _

/-- A frame without decisions for this part, and without palms of others, is held. -/
theorem decided_none (bad : BitVec 32) (s : State) : decided 0 bad [] [] s =
    finishPass (holdCands { s with spanx.faultNext := s.spanx.faultNext ||| bad, spanx.places := [] }) := by
  simp [decided, foreignPalms, getBit, notePlaces, holdCands]

/-- The leader keeps a member's STITCH for the frame that it computes, and what it tells of the member (R235, R445). -/
def keptStitch (p : Packet) (s : State) : State := { s with
  spanx.stitches := s.spanx.stitches.filter (fun x => x.1 != p.src % 16) ++ [(p.src % 16, p.payload)]
  spanx.faultNext := s.spanx.faultNext ||| BitVec.ofNat 32 (stitchOf (p.src % 16) p.payload).faulted
  spanx.lateRuns := s.spanx.lateRuns.set (p.src % 16) 0
  spanx.lateDone := s.spanx.lateDone.set (p.src % 16) false }

/-- The STITCH of another member for the frame in computation. -/
def takesStitch (p : Packet) (s : State) : Bool :=
  heard p s && p.typ == 0x04 && s.span.role == 2 && getBit s.span.members (p.src % 16) && p.src % 16 != s.pins.gpos &&
    p.frame == s.frame.comp % 256 && s.frame.phase == 1

theorem takesStitch_iff (p : Packet) (s : State) : takesStitch p s = true ↔
    heard p s = true ∧ p.typ = 4 ∧ s.span.role = 2 ∧ getBit s.span.members (p.src % 16) = true ∧ p.src % 16 ≠ s.pins.gpos ∧
      p.frame = s.frame.comp % 256 ∧ s.frame.phase = 1 := by
  simp [takesStitch, and_assoc]

theorem stitch_refused (p : Packet) (s : State) (h : takesStitch p s = false) : stitch p s = s :=
  if_pos (congrArg (!·) h)

/-- A member that is not in the table has no fault summary to compare with. -/
theorem stitch_of_stranger (p : Packet) (s : State) (h : takesStitch p s = true) (hm : s.member (p.src % 16) = none) :
    stitch p s = keptStitch p s := by
  unfold takesStitch at h
  unfold State.member at hm
  simp only [stitch, h, State.member, hm]
  rfl

/-- A bit of a member's fault summary that first latches is reported (R449). -/
theorem stitch_of_member (p : Packet) (s : State) (m : Member) (h : takesStitch p s = true)
    (hm : s.member (p.src % 16) = some m) :
    let x := (stitchOf (p.src % 16) p.payload).faults
    let t := modMember (p.src % 16) (fun m => { m with latch := x }) (keptStitch p s)
    stitch p s = if BitVec.ofNat 32 x &&& ~~~(BitVec.ofNat 32 m.latch) = 0 then t
      else spanRec 0x0C (p.src % 16) (x % 65536) t := by
  unfold takesStitch at h
  unfold State.member at hm
  simp only [stitch, h, State.member, hm, beq_iff_eq]
  rfl

/-- What the leader decides and sends, and for how many frames each member's STITCH has been missing (R445, R460). -/
theorem decideSend_eq (s : State) (hrole : s.span.role = 2) (hph : s.frame.phase = 1) (hsent : s.spanx.stitchSent = true) :
    let xs := s.spanx.stitches.map (fun (p, b) => stitchOf p b)
    let here := maskOf 16 (fun p => xs.any (fun x => x.pos == p))
    let ds := decisions s xs
    let ps := (palmBytes s.span.config xs).take 4
    let bad := s.spanx.faultNext ||| s.faultedCtxs
    decideSend s = decided here bad ps ds.1 (sendPacket 5 0xFF s.frame.comp
      (le 2 here.toNat ++ le 4 bad.toNat ++ [BitVec.ofNat 8 ds.1.length, BitVec.ofNat 8 ps.length] ++ ps.flatten ++
        ds.1.flatMap (·.bytes))
      { s with
        spanx.stitches := []
        spanx.idHeld := ds.2.1
        spanx.idIdle := ds.2.2
        spanx.lateRuns := (List.range 16).map (fun p =>
          if getBit s.span.members p = true ∧ p ≠ s.pins.gpos ∧ getBit here p = false then s.spanx.lateRuns.getD p 0 + 1
          else 0) }) := by
  refine (if_neg (by simp [hrole, hph, hsent])).trans ?_
  simp only [tabulate, Bool.and_eq_true, bne_iff_ne, Bool.not_eq_true', and_assoc]
  rfl

/-- Settles O55: each row is its definition under its condition; what a member sends is `stitchPass_sends`, what the leader
keeps and decides `stitch_of_member` and `decideSend_eq`. -/
theorem stitchRows : Obligations.StitchRows := by
  refine ⟨fun s hin hph hns => ⟨_, rfl, stitchPass_sends s hin hph hns⟩, fun s h => congrArg _ (stitchPass_stays s h),
    holdRest_of_few, ⟨?refused, ?stranger, ?member⟩, ?notLeader,
    fun s hrole hph hsent => congrArg _ (decideSend_eq s hrole hph hsent), ?decide, ?timeout, decided_none, ?givenUp, ?taken,
    ?late⟩
  case refused =>
    exact fun p s h => congrArg _ (stitch_refused p s (by simpa using mt (takesStitch_iff p s).1 h))
  case stranger =>
    exact fun p s h hm => congrArg _ (stitch_of_stranger p s ((takesStitch_iff p s).2 h) hm)
  case member =>
    exact fun p s m h hm => congrArg _ (stitch_of_member p s m ((takesStitch_iff p s).2 h) hm)
  case notLeader =>
    refine fun s h => congrArg _ (if_pos ?_)
    rcases h with h | h | h <;> simp [h]
  case decide => exact fun p => actsWhen_unless _ (fun s => rfl) (fun s => by simp [and_assoc])
  case timeout => exact actsWhen_if _ (fun s => rfl) (fun s => by simp)
  case givenUp =>
    intro e s hk
    simp [applyEntry, hk, giveUp]
  case taken =>
    intro e s c hk hc hp
    simpa [applyEntry, hk] using takeContact_mem e s c hc hp
  case late => exact fun pos => actsWhen_if _ (fun s => rfl) (fun s => by simp [and_assoc])

end Sys2Proof.Machine

/-! What every command and all time that passes leave of the memories and of the queue: flash, code store and rooms stay in
canonical form, and no command is put into the queue (R218, R222, R224, R411). One lemma for each operation of the model, in the
model's order: where `s` came from `s₀` in this way, so does the state after the operation. -/

namespace Sys2Proof.Machine
open Sys2Proof Sys2Proof.Safety

/-! ### Steady states -/

/-- The same commands wait, and memories that were canonical are canonical. What a state has beside its queue, its flash, its code
store and its contexts does not enter: a state with other fields changed is steady by the same term. -/
def steady (s t : State) : Prop := t.pending = s.pending ∧ (memoriesOk s → memoriesOk t)

/- Hundreds of short proofs follow; elaborated side by side they would start more threads than the check's memory has
stacks for. -/
set_option Elab.async false

variable {s₀ s : State}

theorem steady.refl (s : State) : steady s s := ⟨rfl, id⟩

theorem steady.ite {c : Prop} [Decidable c] {t u : State} (ht : steady s₀ t) (hu : steady s₀ u) :
    steady s₀ (if c then t else u) := by
  split
  · exact ht
  · exact hu

/-- The same where the state comes with a value before it. -/
theorem steady.iteSnd {α : Type} {c : Prop} [Decidable c] {p q : α × State} (hp : steady s₀ p.2) (hq : steady s₀ q.2) :
    steady s₀ (if c then p else q).2 := by
  split
  · exact hp
  · exact hq

/-- The same where the state comes before a value. -/
theorem steady.iteFst {α : Type} {c : Prop} [Decidable c] {p q : State × α} (hp : steady s₀ p.1) (hq : steady s₀ q.1) :
    steady s₀ (if c then p else q).1 := by
  split
  · exact hp
  · exact hq

theorem steady.ofFst {α : Type} {p : State × α} {t : State} {a : α} (h : steady s₀ p.1) (hp : p = (t, a)) : steady s₀ t := by
  subst hp
  exact h

theorem steady.ofSnd {α : Type} {p : α × State} {t : State} {a : α} (h : steady s₀ p.2) (hp : p = (a, t)) : steady s₀ t := by
  subst hp
  exact h

theorem steady.foldl {α : Type} {f : State → α → State} (hf : ∀ t a, steady s₀ t → steady s₀ (f t a)) {xs : List α}
    (h : steady s₀ s) : steady s₀ (xs.foldl f s) := by
  induction xs generalizing s with
  | nil => exact h
  | cons x xs ih => exact ih (hf s x h)

/-- A change of the memories that keeps their form. -/
theorem steady.memories {t : State} (h : steady s₀ s) (hp : t.pending = s.pending) (hm : memoriesOk s → memoriesOk t) :
    steady s₀ t := ⟨hp.trans h.1, fun h₀ => hm (h.2 h₀)⟩

/-- A change of nothing that matters here. -/
theorem steady.frame {t : State} (h : steady s₀ s) (hp : t.pending = s.pending := by exact rfl)
    (hf : t.mem.flash = s.mem.flash := by exact rfl) (hc : t.eng.code = s.eng.code := by exact rfl)
    (hr : t.ctxs = s.ctxs := by exact rfl) :
    steady s₀ t := h.memories hp fun ⟨h1, h2, h3⟩ => ⟨hf ▸ h1, hc ▸ h2, hr ▸ h3⟩

/-- A change of the contexts that keeps the form of their rooms. -/
theorem steady.rooms {t : State} (h : steady s₀ s) (hp : t.pending = s.pending) (hf : t.mem.flash = s.mem.flash)
    (hc : t.eng.code = s.eng.code)
    (hr : (∀ c ∈ s.ctxs, Memory.wf 0 c.room = true) → ∀ c ∈ t.ctxs, Memory.wf 0 c.room = true) : steady s₀ t :=
  h.memories hp fun ⟨h1, h2, h3⟩ => ⟨hf ▸ h1, hc ▸ h2, hr h3⟩

theorem mem_modAt {α : Type} {f : α → α} {i : Nat} {xs : List α} {y : α} (h : y ∈ modAt f i xs) :
    y ∈ xs ∨ ∃ x ∈ xs, y = f x := by
  induction xs generalizing i with
  | nil => cases i <;> simp [modAt] at h
  | cons x xs ih =>
    cases i with
    | zero =>
      rcases List.mem_cons.1 h with rfl | h
      · exact .inr ⟨x, List.mem_cons_self, rfl⟩
      · exact .inl (List.mem_cons_of_mem _ h)
    | succ i =>
      rcases List.mem_cons.1 h with rfl | h
      · exact .inl List.mem_cons_self
      · rcases ih h with h | ⟨z, hz, rfl⟩
        · exact .inl (List.mem_cons_of_mem _ h)
        · exact .inr ⟨z, List.mem_cons_of_mem _ hz, rfl⟩

/-- A context changes, and its room keeps its form: mostly it stays as it is. -/
theorem modCtx_steady {i : Nat} {f : Ctx → Ctx} (h : steady s₀ s)
    (hf : ∀ c : Ctx, Memory.wf 0 c.room = true → Memory.wf 0 (f c).room = true := by exact fun _ hc => hc) :
    steady s₀ (s.modCtx i f) := by
  refine h.rooms rfl rfl rfl fun hr c hc => ?_
  rcases mem_modAt hc with hc | ⟨d, hd, rfl⟩
  · exact hr c hc
  · exact hf d (hr d hd)

/-- The contexts change, and their rooms keep their form. -/
theorem mapCtxs_steady {f : Ctx → Ctx} (h : steady s₀ s)
    (hf : ∀ c : Ctx, Memory.wf 0 c.room = true → Memory.wf 0 (f c).room = true := by exact fun _ hc => hc) :
    steady s₀ { s with ctxs := s.ctxs.map f } := by
  refine h.rooms rfl rfl rfl fun hr c hc => ?_
  obtain ⟨d, hd, rfl⟩ := List.mem_map.1 hc
  exact hf d (hr d hd)

/-- A change of flash that keeps its form. -/
theorem flash_steady {m : List Host.Cell} (h : steady s₀ s)
    (hm : Memory.wf erased s.mem.flash = true → Memory.wf erased m = true) : steady s₀ { s with mem.flash := m } :=
  h.memories rfl fun ⟨h1, h2, h3⟩ => ⟨hm h1, h2, h3⟩

/-- A change of the code store that keeps its form. -/
theorem code_steady {m : List Host.Cell} (h : steady s₀ s)
    (hm : Memory.wf 0 s.eng.code = true → Memory.wf 0 m = true) : steady s₀ { s with eng.code := m } :=
  h.memories rfl fun ⟨h1, h2, h3⟩ => ⟨h1, hm h2, h3⟩

/-! ### Channels, records and notices -/

theorem fresh_steady (h : steady s₀ s) : steady s₀ (fresh s).2 := h.frame

theorem modPort_steady {p : Port} {f : PortSt → PortSt} (h : steady s₀ s) : steady s₀ (s.modPort p f) := by
  unfold State.modPort
  split <;> exact h.frame

theorem modRun_steady {i : Nat} {f : CtxRun → CtxRun} (h : steady s₀ s) : steady s₀ (s.modRun i f) := h.frame

theorem notify_steady {i word : Nat} {msg : List Byte} (h : steady s₀ s) : steady s₀ (notify i word msg s) := by
  unfold notify
  exact modCtx_steady h (fun _ h => (by split <;> [exact h; exact (by split <;> exact h)]))

theorem raise_steady {p : Port} (h : steady s₀ s) : steady s₀ (raise p s) := by
  refine .ite h ?_
  split
  · have hp : steady s₀ (if s.ibr then { s with tw.ibrPend := true } else s.modPort .tw ({ · with signal := true })) :=
      .ite h.frame (modPort_steady h)
    exact .ite hp.frame hp
  · exact modPort_steady h

theorem settle_steady (h : steady s₀ s) : steady s₀ (settle s) :=
  .ite (.ite h (modPort_steady h)) (modPort_steady (.ite h (modPort_steady h)))

theorem cause_steady {p : Port} {f : PortSt → PortSt} (h : steady s₀ s) : steady s₀ (cause p f s) :=
  raise_steady (modPort_steady h)

theorem wrote_steady {of : Nat → List Byte → Bool} (h : steady s₀ s) : steady s₀ (wrote of s) := h.frame

theorem latchFault_steady {k : Nat} (h : steady s₀ s) : steady s₀ (latchFault k s) := cause_steady (cause_steady h.frame)

theorem journal_steady {r : Rec} (h : steady s₀ s) : steady s₀ (journal r s) := h.frame

theorem deliver_steady {p : Port} {rs : List QRec} (h : steady s₀ s) : steady s₀ (deliver p rs s) :=
  steady.foldl (fun _ _ h => .ite (modPort_steady h) h) h

theorem dropped_steady {i n : Nat} (h : steady s₀ s) : steady s₀ (dropped i n s) :=
  .ite h (modPort_steady (modCtx_steady h))

theorem pubCtx_steady {pub i : Nat} (h : steady s₀ s) : steady s₀ (pubCtx pub i s) := dropped_steady (modCtx_steady h)

theorem publish_steady (h : steady s₀ s) : steady s₀ (publish s) := by
  unfold publish
  extract_lets n0 n1 pub fresh _ _ s₁ s₂ s₃ s₄
  have h₂ : steady s₀ s₂ := deliver_steady (deliver_steady h.frame)
  have h₃ : steady s₀ s₃ := .foldl (fun _ _ h => pubCtx_steady h) h₂
  have h₄ : steady s₀ s₄ := .ite (raise_steady h₃) h₃
  exact .ite (raise_steady h₄) h₄

theorem pubIdle_steady (h : steady s₀ s) : steady s₀ (pubIdle s) := .ite h (publish_steady h)

theorem putHouse_steady {time typ : Nat} {payload : List Byte} (h : steady s₀ s) :
    steady s₀ (putHouse time typ payload s) :=
  pubIdle_steady h.frame

theorem record_steady {typ : Nat} {payload : List Byte} (h : steady s₀ s) : steady s₀ (record typ payload s) :=
  putHouse_steady h

theorem putQueue_steady {i o : Nat} {r : Rec} (h : steady s₀ s) : steady s₀ (putQueue i o r s) :=
  dropped_steady (modCtx_steady h)

theorem putCtx_steady {i : Nat} {r : Rec} (h : steady s₀ s) : steady s₀ (putCtx i r s) :=
  pubIdle_steady (putQueue_steady (journal_steady h))

theorem powerRec_steady {sub cls who asked taken : Nat} (h : steady s₀ s) :
    steady s₀ (powerRec sub cls who asked taken s) :=
  record_steady h

theorem calRec_steady {sub item value frame : Nat} (h : steady s₀ s) :
    steady s₀ (calRec sub item value frame s) :=
  record_steady h

theorem clampRec_steady {sub pin count : Nat} (h : steady s₀ s) : steady s₀ (clampRec sub pin count s) :=
  record_steady h

theorem deferCmd_steady {p : Port} {code : Nat} {pl : List Byte} (h : steady s₀ s) : steady s₀ (deferCmd p code pl s) :=
  h.frame

theorem completeTag_steady {t err : Nat} {comp : List Byte} (h : steady s₀ s) :
    steady s₀ (completeTag t err comp s) := by
  unfold completeTag
  split
  · exact h
  · exact .ite h.frame (raise_steady h.frame)

theorem completeOpt_steady {t : Option Nat} {err : Nat} {comp : List Byte} (h : steady s₀ s) :
    steady s₀ (completeOpt t err comp s) := by
  unfold completeOpt
  split
  · exact completeTag_steady h
  · exact h

theorem setDomains_steady {sense drive : Bool} (h : steady s₀ s) : steady s₀ (setDomains sense drive s) :=
  .ite h.frame (.ite h.frame h.frame)

theorem coastBy_steady {n : Nat} (h : steady s₀ s) : steady s₀ (coastBy n s) := h.frame

theorem countTicks_steady {n : Nat} (h : steady s₀ s) : steady s₀ (countTicks n s) := h.frame

theorem keeperRun_steady {q : Nat} (h : steady s₀ s) : steady s₀ (keeperRun q s) :=
  coastBy_steady (countTicks_steady h.frame)

theorem crystalRun_steady {q : Nat} (h : steady s₀ s) : steady s₀ (crystalRun q s) := countTicks_steady h.frame

theorem advance_steady {k : Nat} (h : steady s₀ s) : steady s₀ (advance k s) := by
  rw [advance_frame]
  exact h.frame

theorem toKeeper_steady (h : steady s₀ s) : steady s₀ (toKeeper s) := .ite h.frame h.frame

theorem railOf_steady (h : steady s₀ s) : steady s₀ (railOf s) := h.frame

theorem coreRuns_steady (h : steady s₀ s) : steady s₀ (coreRuns s) := h.frame

theorem sendPacket_steady {typ dst frame : Nat} {payload : List Byte} (h : steady s₀ s) :
    steady s₀ (sendPacket typ dst frame payload s) :=
  h.frame

theorem sendReady_steady {answer result : Nat} (h : steady s₀ s) : steady s₀ (sendReady answer result s) :=
  sendPacket_steady h

/-! ### The flash and its operations -/

theorem programFlash_steady {a : Nat} {bs : List Byte} (h : steady s₀ s) : steady s₀ (programFlash a bs s) :=
  flash_steady h Memory.wf_writeN

theorem eraseFlash_steady {a n : Nat} (h : steady s₀ s) : steady s₀ (eraseFlash a n s) := flash_steady h Memory.wf_blank

theorem putIntent_steady {typ off len matches_ : Nat} (h : steady s₀ s) :
    steady s₀ (putIntent typ off len matches_ s) := by
  unfold putIntent
  exact programFlash_steady h

theorem writeIntent_steady {typ off len matches_ : Nat} (h : steady s₀ s) :
    steady s₀ (writeIntent typ off len matches_ s) :=
  putIntent_steady (.ite h (eraseFlash_steady (putIntent_steady h.frame)))

theorem opGranted_steady (h : steady s₀ s) : steady s₀ (opGranted s) := by
  unfold opGranted
  split
  · exact h
  · exact .ite (writeIntent_steady h.frame) h.frame

/-! ### Grants and requests -/

theorem releaseGrant_steady {cls who : Nat} (h : steady s₀ s) : steady s₀ (releaseGrant cls who s) := h.frame

theorem setCost_steady {cls who cost : Nat} (h : steady s₀ s) : steady s₀ (setCost cls who cost s) := h.frame

theorem withdraw_steady {cls who : Nat} (h : steady s₀ s) : steady s₀ (withdraw cls who s) := h.frame

theorem dropReReq_steady {cls who : Nat} (h : steady s₀ s) : steady s₀ (dropReReq cls who s) := h.frame

theorem request_steady {cls who cost : Nat} {incr : Bool} {stage : Nat} {revocable : Bool} (h : steady s₀ s) :
    steady s₀ (request cls who cost incr stage revocable s) :=
  h.frame

theorem follow_steady {cls who need : Nat} (h : steady s₀ s) : steady s₀ (follow cls who need s) :=
  .ite (dropReReq_steady (withdraw_steady (releaseGrant_steady h)))
    (.ite (request_steady h) (.ite (withdraw_steady (setCost_steady h)) (request_steady h)))

theorem askLater_steady {cls who : Nat} {frames : Option Nat} {dip : Bool} (h : steady s₀ s) :
    steady s₀ (askLater cls who frames dip s) :=
  h.frame

theorem modBridge_steady {n : Nat} {f : Bridge → Bridge} (h : steady s₀ s) : steady s₀ (s.modBridge n f) := h.frame

theorem modFan_steady {n : Nat} {f : Fan → Fan} (h : steady s₀ s) : steady s₀ (s.modFan n f) := h.frame

theorem modBl_steady {n : Nat} {f : Bl → Bl} (h : steady s₀ s) : steady s₀ (s.modBl n f) := h.frame

theorem exciteOff_steady {n : Nat} (h : steady s₀ s) : steady s₀ (exciteOff n s) := modBridge_steady h

theorem syncBridges_steady (h : steady s₀ s) : steady s₀ (syncBridges s) :=
  steady.foldl (fun _ _ h => .ite (request_steady h) h) h

theorem granted_steady {q : Req} (h : steady s₀ s) : steady s₀ (granted q s) := by
  unfold granted
  split
  · exact notify_steady h
  · split
    · exact modFan_steady h
    · exact modFan_steady h
    · exact dropReReq_steady h.frame
    · exact h.frame
    · exact modBridge_steady h
    · exact modBl_steady h
    · exact opGranted_steady h

theorem grant_steady {q : Req} (h : steady s₀ s) : steady s₀ (grant q s) :=
  granted_steady (.ite (setCost_steady h.frame) h.frame)

theorem denied_steady {cls who asked taken : Nat} (h : steady s₀ s) :
    steady s₀ (denied cls who asked taken s) :=
  powerRec_steady h.frame

theorem fallRevoked_steady {o : Nat} {g : Grant} {byDip : Bool} (h : steady s₀ s) : steady s₀ (fallRevoked o g byDip s) := by
  unfold fallRevoked
  split
  · exact .ite (pubIdle_steady (putQueue_steady (notify_steady h))) (notify_steady h)
  · split
    · exact askLater_steady h.frame
    · exact askLater_steady (exciteOff_steady h)
    · exact askLater_steady (modBl_steady h)
    · exact h

theorem revoke_steady {byDip : Bool} {g : Grant} (h : steady s₀ s) : steady s₀ (revoke byDip g s) :=
  fallRevoked_steady (powerRec_steady (withdraw_steady (releaseGrant_steady h)))

theorem revokeUntil_steady {fits : State → Bool} {gs : List Grant} (h : steady s₀ s) :
    steady s₀ (revokeUntil fits gs s) := by
  induction gs generalizing s with
  | nil => exact h
  | cons g gs ih => exact .ite h (ih (revoke_steady h))

theorem revokeToCap_steady (h : steady s₀ s) : steady s₀ (revokeToCap s) := revokeUntil_steady h

theorem escalate_steady {q : Req} (h : steady s₀ s) : steady s₀ (escalate q s) :=
  .ite (grant_steady (revokeUntil_steady h)) (revokeUntil_steady h)

theorem scanLater_steady (h : steady s₀ s) : steady s₀ (scanLater s) := .ite h (askLater_steady h)

theorem refuse_steady {left : Nat} {q : Req} (h : steady s₀ s) : steady s₀ (refuse left q s) := by
  unfold refuse
  split
  · exact notify_steady (denied_steady (withdraw_steady h))
  · split
    · exact .ite (denied_steady h.frame) (escalate_steady h)
    · have hd : steady s₀ ((askLater 1 q.who none false (withdraw 1 q.who (escalate q s))).modFan (q.who - 0x40)
          (fun f => { f with holdDenied := true })) := modFan_steady (askLater_steady (withdraw_steady (escalate_steady h)))
      exact .ite (escalate_steady h) (.ite (denied_steady hd) hd)
    · exact denied_steady (scanLater_steady (.ite (releaseGrant_steady (withdraw_steady h))
        (.ite (setCost_steady (withdraw_steady h)) (grant_steady (withdraw_steady h)))))
    · exact denied_steady h.frame
    · exact .ite (denied_steady (modBridge_steady (withdraw_steady h)))
        (.ite (request_steady (denied_steady (withdraw_steady h))) (denied_steady (askLater_steady (withdraw_steady h))))
    · exact denied_steady (askLater_steady (withdraw_steady h))
    · exact .ite (denied_steady (askLater_steady (withdraw_steady h))) (askLater_steady (withdraw_steady h))

theorem refusals_steady (h : steady s₀ s) : steady s₀ (refusals s) :=
  steady.foldl (fun _ _ h => .ite (refuse_steady h) h) h

theorem countWait_steady {q : Req} (h : steady s₀ s) : steady s₀ (countWait q s) := h.frame

theorem decideOne_steady {all count : Bool} {acc : Nat × State} {q : Req} (h : steady s₀ acc.2) :
    steady s₀ (decideOne all count acc q).2 := by
  have hw : steady s₀ (if count && q.waits < 4 then countWait q acc.2 else acc.2) := .ite (countWait_steady h) h
  exact .iteSnd h (.iteSnd (grant_steady h) (.ite (refuse_steady hw) hw))

theorem decideAll_steady {all count : Bool} {qs : List Req} {acc : Nat × State} (h : steady s₀ acc.2) :
    steady s₀ (qs.foldl (fun acc q =>
      if acc.2.reqOf q.cls q.who == some q then decideOne all count acc q else acc) acc).2 := by
  induction qs generalizing acc with
  | nil => exact h
  | cons q qs ih => exact ih (.iteSnd (decideOne_steady h) h)

theorem decideLeave_steady {all count : Bool} (h : steady s₀ s) : steady s₀ (decideLeave all count s) := by
  unfold decideLeave
  extract_lets _ _ s₁ s₂ s₃ s₄
  have h₁ : steady s₀ s₁ := by
    unfold s₁
    split
    · exact h.frame
    · exact h
  have h₂ : steady s₀ s₂ := .ite (.foldl (fun _ _ h => revoke_steady h) h₁) h₁
  have h₄ : steady s₀ s₄ := decideAll_steady (acc := (s₃.avail, s₃)) (revokeToCap_steady h₂)
  exact h₄.frame

theorem ctxGiveUp_steady {i : Nat} (h : steady s₀ s) : steady s₀ (ctxGiveUp i s) := modRun_steady h.frame

theorem askAgain_steady {cls who : Nat} (h : steady s₀ s) : steady s₀ (askAgain cls who s) := by
  unfold askAgain
  extract_lets
  split
  · exact request_steady (dropReReq_steady h)
  · exact .ite (follow_steady (dropReReq_steady h)) (dropReReq_steady h)
  · exact follow_steady (dropReReq_steady h)
  · exact syncBridges_steady (dropReReq_steady h)
  · exact follow_steady (dropReReq_steady h)
  · exact .ite (request_steady (dropReReq_steady h)) (dropReReq_steady h)
  · exact .ite (request_steady (dropReReq_steady h)) (dropReReq_steady h)
  · exact dropReReq_steady h

theorem rereqFrame_steady (h : steady s₀ s) : steady s₀ (rereqFrame s) :=
  steady.foldl (fun _ _ h => .ite (scanLater_steady (askAgain_steady h)) (askAgain_steady h)) h.frame

theorem startFlash_steady {o : FlashOp} (h : steady s₀ s) : steady s₀ (startFlash o s) := request_steady h.frame

/-! ### The modes -/

theorem driveFollow_steady (h : steady s₀ s) : steady s₀ (driveFollow s) := .ite (setDomains_steady h) h

theorem bridgeOff_steady {n : Nat} (h : steady s₀ s) :
    steady s₀ (exciteOff n (withdraw 4 (exciteWho n) (releaseGrant 4 (exciteWho n) s))) :=
  exciteOff_steady (withdraw_steady (releaseGrant_steady h))

theorem senseOff_steady (h : steady s₀ s) : steady s₀ (senseOff s) := by
  unfold senseOff
  extract_lets s₁ s₂ s₃
  have h₁ : steady s₀ s₁ := .foldl (fun _ _ h => bridgeOff_steady h) h
  have h₂ : steady s₀ s₂ := withdraw_steady (withdraw_steady (releaseGrant_steady (releaseGrant_steady h₁)))
  have h₃ : steady s₀ s₃ := setDomains_steady h₂
  exact h₃.frame

theorem senseOn_steady (h : steady s₀ s) : steady s₀ (senseOn s) :=
  syncBridges_steady (.ite (setDomains_steady h.frame) (request_steady (setDomains_steady h.frame)))

theorem clearTracked_steady (h : steady s₀ s) : steady s₀ (clearTracked s) := h.frame

theorem stopFrames_steady (h : steady s₀ s) : steady s₀ (stopFrames s) := .ite h h.frame

theorem crystalOff_steady (h : steady s₀ s) : steady s₀ (crystalOff s) := by
  unfold crystalOff
  exact toKeeper_steady h

theorem releaseForSleep_steady (h : steady s₀ s) : steady s₀ (releaseForSleep s) := h.frame

theorem enterMode_steady {m : ModeSel} {why : Nat} (h : steady s₀ s) : steady s₀ (enterMode m why s) := by
  unfold enterMode
  extract_lets s₁ hib drive _ _ _ _ _ s₂ s₃ s₄
  have h₁ : steady s₀ s₁ := .ite h (.ite (stopFrames_steady h) (senseOff_steady (stopFrames_steady h)))
  have h₂ : steady s₀ s₂ := h₁.frame
  have h₃ : steady s₀ s₃ := setDomains_steady h₂
  have h₄ : steady s₀ s₄ := .ite (releaseForSleep_steady (crystalOff_steady h₃)) (.ite (senseOn_steady h₃) h₃)
  exact revokeToCap_steady h₄

theorem takeMode_steady {m : ModeSel} {why : Nat} (h : steady s₀ s) : steady s₀ (takeMode m why s) :=
  .ite h.frame (.ite h.frame (.ite h (.ite h.frame (.ite h.frame (.ite (senseOn_steady h.frame) (enterMode_steady h))))))

theorem noteChoice_steady (h : steady s₀ s) : steady s₀ (noteChoice s) :=
  steady.foldl (fun _ _ h => .ite (raise_steady h) h) h.frame

theorem choose_steady {why : Nat} (h : steady s₀ s) : steady s₀ (choose why s) :=
  .ite h (.ite h (.ite (noteChoice_steady h) (takeMode_steady (noteChoice_steady h))))

theorem enterSafe_steady (h : steady s₀ s) : steady s₀ (enterSafe s) := by
  unfold enterSafe
  extract_lets _ _ s₁ s₂
  have h₂ : steady s₀ s₂ := coreRuns_steady (enterMode_steady h.frame)
  exact .ite (.ite (senseOff_steady h.frame) h) (.ite (sendReady_steady h₂) h₂)

theorem safeShdn_steady (h : steady s₀ s) : steady s₀ (safeShdn s) := latchFault_steady (enterSafe_steady h.frame)

theorem safeWdog_steady (h : steady s₀ s) : steady s₀ (safeWdog s) :=
  record_steady (latchFault_steady (enterSafe_steady h.frame))

theorem leaveSafe_steady (h : steady s₀ s) : steady s₀ (leaveSafe s) :=
  .ite h (.ite (enterMode_steady h.frame) (takeMode_steady (noteChoice_steady h.frame)))

theorem raiseFloor_steady (h : steady s₀ s) : steady s₀ (raiseFloor s) := .ite h h.frame

theorem coreWake_steady (h : steady s₀ s) : steady s₀ (coreWake s) := .ite (coreRuns_steady h) h.frame

theorem latchEntry_steady {k : Nat} (h : steady s₀ s) : steady s₀ (latchEntry k s) := h.frame

theorem serveFloor_steady (h : steady s₀ s) : steady s₀ (serveFloor s) :=
  .ite (choose_steady (raiseFloor_steady h)) (choose_steady (coreWake_steady (raiseFloor_steady h)))

theorem coreSleep_steady (h : steady s₀ s) : steady s₀ (coreSleep s) :=
  releaseForSleep_steady (crystalOff_steady h)

theorem serveEntry_steady {w : BitVec 6} (h : steady s₀ s) : steady s₀ (serveEntry w s) := by
  unfold serveEntry
  extract_lets _ s₁ _ s₂
  have h₁ : steady s₀ s₁ := .ite (coreWake_steady h.frame) h
  have h₂ : steady s₀ s₂ := .ite (coreWake_steady h₁.frame) h₁
  exact .ite (serveFloor_steady h₂) h₂

/-! ### The clock -/

theorem trimStep_steady {settle : Bool} (h : steady s₀ s) : steady s₀ (trimStep settle s) :=
  .ite h (.ite h (railOf_steady h.frame))

theorem xtalFailed_steady (h : steady s₀ s) : steady s₀ (xtalFailed s) :=
  safeWdog_steady (latchFault_steady (toKeeper_steady h))

theorem toCrystal_steady {w : Nat} (h : steady s₀ s) : steady s₀ (toCrystal w s) := h.frame

/-! ### The front end -/

theorem decideMove_steady {urgent : Bool} {i : Nat} (h : steady s₀ s) : steady s₀ (decideMove urgent i s) :=
  .ite h.frame h.frame

theorem urgentMove_steady (h : steady s₀ s) : steady s₀ (urgentMove s) := by
  unfold urgentMove
  split
  · exact h
  · extract_lets
    split
    · exact .ite (decideMove_steady h.frame) h.frame
    · exact h.frame

theorem epochMove_steady (h : steady s₀ s) : steady s₀ (epochMove s) := by
  unfold epochMove
  extract_lets meds med ok _ s₁ s₂
  have h₁ : steady s₀ s₁ := h.frame
  have h₂ : steady s₀ s₂ := by
    refine .ite h₁ ?_
    split
    · exact .ite (decideMove_steady h₁) h₁
    · exact h₁
  exact h₂.frame

theorem censusCount_steady (h : steady s₀ s) : steady s₀ (censusCount s) := by
  unfold censusCount
  exact .ite h.frame h.frame

theorem slotListen_steady {x : Sense} (h : steady s₀ s) : steady s₀ (slotListen x s) :=
  .ite h.frame (.ite h.frame (censusCount_steady h.frame))

theorem slotMutual_steady {x : Sense} (h : steady s₀ s) : steady s₀ (slotMutual x s) := .ite h.frame h.frame

theorem applyGuards_steady {p : Profile} {vhv : Nat} {mu charge : Bool} (h : steady s₀ s) :
    steady s₀ (applyGuards p vhv mu charge s) :=
  h.frame

theorem noCharge_steady (h : steady s₀ s) : steady s₀ (noCharge s) := h.frame

theorem slotCharge_steady {p : Profile} {samples : List (List Int)} (h : steady s₀ s) :
    steady s₀ (slotCharge p samples s) :=
  h.frame

theorem openSensor_steady {k : Nat} (h : steady s₀ s) : steady s₀ (s.openSensor k) := h.frame

theorem openPin_steady {pin : Nat} (h : steady s₀ s) : steady s₀ (openPin pin s) := by
  unfold openPin
  extract_lets _ s₁ _ s₂ s₃ n s₄
  have h₁ : steady s₀ s₁ := h.frame
  have h₂ : steady s₀ s₂ := .ite h₁.frame h₁
  have h₃ : steady s₀ s₃ := .ite h₂.frame h₂
  have h₄ : steady s₀ s₄ := .ite (bridgeOff_steady h₃) h₃
  exact latchFault_steady (clampRec_steady h₄)

/-! ### The charge and the sense supply -/

theorem closeSensor_steady {k : Nat} (h : steady s₀ s) : steady s₀ (s.closeSensor k) := h.frame

theorem restorePin_steady {pin : Nat} (h : steady s₀ s) : steady s₀ (restorePin pin s) := by
  unfold restorePin
  extract_lets _ s₁ _ s₂ s₃ s₄
  have h₁ : steady s₀ s₁ := h.frame
  have h₂ : steady s₀ s₂ := .ite h₁.frame h₁
  have h₄ : steady s₀ s₄ := clampRec_steady (.ite h₂.frame h₂)
  exact .ite (syncBridges_steady h₄) h₄

theorem restorePins_steady (h : steady s₀ s) : steady s₀ (restorePins s) :=
  steady.foldl (fun _ _ h => restorePin_steady h) h

theorem markClamps_steady (h : steady s₀ s) : steady s₀ (markClamps s) := h.frame

theorem faultBridge_steady {n : Nat} (h : steady s₀ s) : steady s₀ (faultBridge n s) :=
  latchFault_steady (clampRec_steady (askLater_steady (modBridge_steady (bridgeOff_steady h))))

theorem excFault_steady {n : Nat} (h : steady s₀ s) : steady s₀ (excFault n s) :=
  .ite h (.ite (clampRec_steady (setCost_steady (modBridge_steady h))) (faultBridge_steady h))

theorem excRestored_steady {n : Nat} (h : steady s₀ s) : steady s₀ (excRestored n s) :=
  .ite (clampRec_steady (modBridge_steady h)) h

theorem bridgeSaturated_steady {n : Nat} (h : steady s₀ s) : steady s₀ (bridgeSaturated n s) :=
  .ite (faultBridge_steady h) h

theorem bridgeDue_steady {n : Nat} (h : steady s₀ s) : steady s₀ (bridgeDue n s) :=
  bridgeSaturated_steady (excFault_steady (excRestored_steady h))

theorem applyForceCfg_steady {n : Nat} (h : steady s₀ s) : steady s₀ (applyForceCfg n s) := by
  unfold applyForceCfg
  extract_lets o s₁ who recapture s₂ s₃ _ s₄ s₅
  have hr {t : State} (h : steady s₀ t) : steady s₀ (recapture t) := h.frame
  have h₁ : steady s₀ s₁ := modBridge_steady h
  have h₂ : steady s₀ s₂ := exciteOff_steady (dropReReq_steady (withdraw_steady (releaseGrant_steady h₁)))
  have h₃ : steady s₀ s₃ := modBridge_steady h₁
  have h₄ : steady s₀ s₄ := .ite h₁ (hr (modBridge_steady h₁))
  have h₅ : steady s₀ s₅ := modBridge_steady h₄
  refine .ite (.ite h₁ (modBridge_steady h₂)) (.ite (syncBridges_steady (.ite h₃.frame (hr h₃))) (.ite h₄ ?_))
  exact .ite (.ite (request_steady h₅) (.ite (setCost_steady (modBridge_steady h₅)) (withdraw_steady h₅)))
    (.ite (syncBridges_steady (withdraw_steady h₅)) h₅)

theorem latchForce_steady (h : steady s₀ s) : steady s₀ (latchForce s) := by
  unfold latchForce
  refine .foldl (fun t n h => ?_) h.frame
  extract_lets b valid
  split
  next mean u hu =>
    have h : steady s₀ (mean, u).2 := hu ▸ .iteSnd (fresh_steady h) h
    extract_lets f v
    have hv : steady s₀ v := modBridge_steady h
    exact applyForceCfg_steady hv.frame

theorem modThm_steady {i : Nat} {f : Thm → Thm} (h : steady s₀ s) : steady s₀ (s.modThm i f) := h.frame

theorem thermalRec_steady {sub item : Nat} {value : Int} (h : steady s₀ s) : steady s₀ (thermalRec sub item value s) :=
  record_steady h

theorem sensorOk_steady {i : Nat} (h : steady s₀ s) : steady s₀ (sensorOk i s) :=
  .ite (thermalRec_steady (modThm_steady h)) h

theorem thermConvert_steady {refBad : Bool} {i x : Nat} (h : steady s₀ s) : steady s₀ (thermConvert refBad i x s) := by
  unfold thermConvert
  extract_lets s₁ t s₂ own hot
  have h₁ : steady s₀ s₁ := sensorOk_steady h
  have h₂ : steady s₀ s₂ := modThm_steady h₁
  exact .ite h₁ (.ite (.ite h₂ (latchFault_steady (thermalRec_steady h₂))) (modThm_steady h₁))

theorem thermRound_steady {xs : ThermRatios} {die : Int} (h : steady s₀ s) : steady s₀ (thermRound xs die s) :=
  steady.foldl (fun _ _ h => thermConvert_steady h) h.frame

theorem enableThm_steady {i : Nat} {on : Bool} (h : steady s₀ s) : steady s₀ (enableThm i on s) :=
  .ite h (.ite (modThm_steady (fresh_steady h)) (.ite (thermalRec_steady (modThm_steady h)) (modThm_steady h)))

/-! ### Calibration -/

theorem modCal_steady {f : CalData → CalData} (h : steady s₀ s) : steady s₀ (s.modCal f) := h.frame

theorem nuUpdate_steady (h : steady s₀ s) : steady s₀ (nuUpdate s) := modCal_steady h

theorem nuSample_steady (h : steady s₀ s) : steady s₀ (nuSample s) :=
  .ite (modCal_steady h) (modCal_steady (modCal_steady h))

theorem captureCharge_steady {b : Bank} (h : steady s₀ s) : steady s₀ (captureCharge b s) := modCal_steady h

theorem captures_steady {counted : Bool} (h : steady s₀ s) : steady s₀ (captures counted s) := by
  unfold captures
  extract_lets b s₁ s₂
  have h₁ : steady s₀ s₁ := .ite (modCal_steady h) h
  have h₂ : steady s₀ s₂ := .ite (calRec_steady (modCal_steady h₁)) (.ite (modCal_steady h₁) h₁)
  exact .ite h₁ (.ite (captureCharge_steady h₂) h₂)

theorem scaleAmp_steady {a b : Nat} (h : steady s₀ s) : steady s₀ (scaleAmp a b s) := h.frame

theorem convertTaps_steady {oldA newA oldB newB : Nat} (h : steady s₀ s) :
    steady s₀ (convertTaps oldA newA oldB newB s) :=
  modCal_steady h

theorem hopRestart_steady (h : steady s₀ s) : steady s₀ (hopRestart s) := h.frame

theorem hopTransfer_steady (h : steady s₀ s) : steady s₀ (hopTransfer s) :=
  .ite h (.ite h.frame (.ite (modCal_steady (modCal_steady h.frame)) (modCal_steady h.frame)))

theorem pushNodes_steady (h : steady s₀ s) : steady s₀ (pushNodes s) := .ite h (.ite h.frame h.frame)

theorem pushLines_steady {b : Bank} {quietLine : Nat → Bool} (h : steady s₀ s) : steady s₀ (pushLines b quietLine s) :=
  .ite h h.frame

theorem baselineStep_steady (h : steady s₀ s) : steady s₀ (baselineStep s) := h.frame

theorem tarnFrame_steady {counted : Bool} (h : steady s₀ s) : steady s₀ (tarnFrame counted s) :=
  .ite h (.ite (baselineStep_steady (pushLines_steady (pushNodes_steady h))) (pushLines_steady (pushNodes_steady h)))

theorem phaseFrame_steady (h : steady s₀ s) : steady s₀ (phaseFrame s) :=
  steady.foldl (fun _ _ h => .ite h.frame h.frame) h

theorem gammaSample_steady {rglg : Bool} {gs rs : List Nat} (h : steady s₀ s) :
    steady s₀ (gammaSample rglg gs rs s) :=
  h.frame

theorem forceFrame_steady {counted : Bool} (h : steady s₀ s) : steady s₀ (forceFrame counted s) := by
  unfold forceFrame
  extract_lets still s₁
  have h₁ : steady s₀ s₁ := .ite h (.foldl (fun _ _ h => .ite h (.ite h.frame h.frame)) h)
  split
  · exact .ite (.foldl (fun _ _ h => .ite h.frame h) h₁) h₁
  · exact h₁

theorem movePhases_steady {settle : Bool} (h : steady s₀ s) : steady s₀ (movePhases settle s).1 := by
  unfold movePhases
  extract_lets
  split <;> exact h.frame

theorem moveThrs_steady {settle : Bool} (h : steady s₀ s) : steady s₀ (moveThrs settle s).1 := .ite h.frame h.frame

theorem moveGuards_steady {settle : Bool} (h : steady s₀ s) : steady s₀ (moveGuards settle s).1 := .ite h.frame h.frame

theorem moveZeros_steady {settle : Bool} (h : steady s₀ s) : steady s₀ (moveZeros settle s).1 := .ite h.frame h.frame

theorem moveRels_steady {settle : Bool} (h : steady s₀ s) : steady s₀ (moveRels settle s).1 := by
  unfold moveRels
  exact .iteFst h.frame (.iteFst h.frame (.iteFst h.frame h.frame))

theorem countRails_steady {conds : List Cond} (h : steady s₀ s) : steady s₀ (countRails conds s) :=
  .ite h (steady.foldl (fun _ ⟨_, _, _⟩ h => .ite h.frame h.frame) h)

theorem railReport_steady (h : steady s₀ s) : steady s₀ (railReport s) :=
  steady.foldl (fun _ _ h => latchFault_steady (calRec_steady h.frame)) h

theorem endFast_steady (h : steady s₀ s) : steady s₀ (endFast s) := .ite (calRec_steady h.frame) h

theorem calEpochEnd_steady (h : steady s₀ s) : steady s₀ (calEpochEnd s) := by
  unfold calEpochEnd
  extract_lets st
  split
  next s₁ _ h₁ =>
  have h₁ := (movePhases_steady h).ofFst h₁
  split
  next s₂ _ h₂ =>
  have h₂ := (moveThrs_steady h₁).ofFst h₂
  split
  next s₃ _ h₃ =>
  have h₃ := (moveGuards_steady h₂).ofFst h₃
  split
  next s₄ _ h₄ =>
  have h₄ := (moveZeros_steady h₃).ofFst h₄
  split
  next s₅ _ h₅ =>
  have hu := trimStep_steady (settle := st) ((moveRels_steady h₄).ofFst h₅)
  extract_lets u _ t t'
  have ht : steady s₀ t' := railReport_steady (countRails_steady hu.frame)
  exact .ite (.ite (endFast_steady ht) ht.frame) ht

theorem resumeSettle_steady (h : steady s₀ s) : steady s₀ (resumeSettle s) := h.frame

theorem applySeed_steady {p : List Byte} (h : steady s₀ s) : steady s₀ (applySeed p s) :=
  .ite (endFast_steady (calRec_steady (railOf_steady h.frame))) (calRec_steady (railOf_steady h.frame))

theorem applyRestore_steady (h : steady s₀ s) : steady s₀ (applyRestore s) := by
  unfold applyRestore
  split
  · exact h
  · exact endFast_steady (calRec_steady (railOf_steady h.frame))

/-! ### The contact pipeline -/

theorem senseRec_steady {sub item value : Nat} (h : steady s₀ s) : steady s₀ (senseRec sub item value s) :=
  putHouse_steady h

theorem wetEnter_steady (h : steady s₀ s) : steady s₀ (wetEnter s) :=
  .ite h (.ite (senseRec_steady (senseRec_steady h.frame)) (senseRec_steady h.frame))

theorem wetLeave_steady (h : steady s₀ s) : steady s₀ (wetLeave s) :=
  .ite h (senseRec_steady (.ite (senseRec_steady h.frame) h.frame))

theorem floodStep_steady (h : steady s₀ s) : steady s₀ (floodStep s) := .ite h (senseRec_steady h.frame)

theorem swampEnter_steady (h : steady s₀ s) : steady s₀ (swampEnter s) := .ite h (senseRec_steady h.frame)

theorem swampLeave_steady (h : steady s₀ s) : steady s₀ (swampLeave s) := .ite h (senseRec_steady h.frame)

theorem surfaceStep_steady {film : List Int} {cls : List Nat} (h : steady s₀ s) : steady s₀ (surfaceStep film cls s) :=
  swampLeave_steady (swampEnter_steady (floodStep_steady (wetLeave_steady (wetEnter_steady h.frame))))

theorem shadowExpire_steady (h : steady s₀ s) : steady s₀ (shadowExpire s) := h.frame

theorem shadowStep_steady {counted : Bool} {palms : List (Frag × Nat)} (h : steady s₀ s) :
    steady s₀ (shadowStep counted palms s) := by
  unfold shadowStep
  exact .ite (shadowExpire_steady h.frame) h.frame

theorem contactEnd_steady (h : steady s₀ s) : steady s₀ (contactEnd s) := h.frame

theorem matchFrame_steady {counted : Bool} {fs : List Frag} (h : steady s₀ s) : steady s₀ (matchFrame counted fs s).1 :=
  h.frame

theorem collide_steady (h : steady s₀ s) : steady s₀ (collide s) := h.frame

theorem advanceCands_steady (h : steady s₀ s) : steady s₀ (advanceCands s) := h.frame

theorem holdCands_steady (h : steady s₀ s) : steady s₀ (holdCands s) := h.frame

theorem holdPeak_steady {pk : Nat} (h : steady s₀ s) : steady s₀ (holdPeak pk s) := h.frame

theorem confirmOne_steady {c : Cand} (h : steady s₀ s) : steady s₀ (confirmOne s c) := by
  unfold confirmOne
  split
  · exact h
  · split
    · exact h
    · exact h.frame

theorem confirmCands_steady (h : steady s₀ s) : steady s₀ (confirmCands s) :=
  .ite h (.foldl (fun _ _ h => confirmOne_steady h) h)

theorem placeContacts_steady (h : steady s₀ s) : steady s₀ (placeContacts s) := h.frame

theorem approachStep_steady {rises : Bool} (h : steady s₀ s) : steady s₀ (approachStep rises s) := h.frame

theorem floorWake_steady (h : steady s₀ s) : steady s₀ (floorWake s) :=
  .ite (latchEntry_steady h) (.ite (choose_steady (raiseFloor_steady h.frame)) h)

theorem wakeEvents_steady {k time : Nat} (h : steady s₀ s) : steady s₀ (wakeEvents k time s) :=
  .ite (steady.foldl (fun _ _ h => putCtx_steady h) h) (floorWake_steady (steady.foldl (fun _ _ h => putCtx_steady h) h))

theorem approach_steady (h : steady s₀ s) : steady s₀ (approach s) := .ite (wakeEvents_steady h.frame) h

theorem lateClasses_steady (h : steady s₀ s) : steady s₀ (lateClasses s) := h.frame

theorem beginPass_steady {counted : Bool} (h : steady s₀ s) : steady s₀ (beginPass counted s) := h.frame

theorem blindPass_steady (h : steady s₀ s) : steady s₀ (blindPass s) := h.frame

theorem imagePass_steady {counted : Bool} (h : steady s₀ s) : steady s₀ (imagePass counted s) :=
  shadowStep_steady (contactEnd_steady (matchFrame_steady (.ite (surfaceStep_steady h.frame) h.frame)))

theorem contactPass_steady {counted : Bool} (h : steady s₀ s) : steady s₀ (contactPass counted s) :=
  lateClasses_steady (placeContacts_steady (.ite (confirmCands_steady (advanceCands_steady (collide_steady h.frame))) h.frame))

theorem prePass_steady (h : steady s₀ s) : steady s₀ (prePass s) := by
  unfold prePass
  extract_lets s₁ b valid counted s₂ s₃ _ s₄ s₅ s₆
  have h₂ : steady s₀ s₂ :=
    nuUpdate_steady (nuSample_steady (captures_steady (hopTransfer_steady (beginPass_steady (wrote_steady h)))))
  have h₃ : steady s₀ s₃ := .ite (contactPass_steady (imagePass_steady h₂)) (blindPass_steady h₂)
  have h₄ : steady s₀ s₄ := .ite h₃.frame h₃
  have h₅ : steady s₀ s₅ := .ite (phaseFrame_steady (tarnFrame_steady h₄)) h₄
  have h₆ : steady s₀ s₆ := .ite h₅ (forceFrame_steady h₅)
  exact .ite (approach_steady (approachStep_steady h₆)) h₆

/-! ### Contexts and their rooms -/

theorem unassign_steady {i : Nat} (h : steady s₀ s) : steady s₀ (unassign i s) := h.frame

theorem wf_roomOf (g : Image) : Memory.wf 0 (roomOf g) = true := Memory.wfFrom_cells _

theorem ctxReset_steady {i : Nat} (h : steady s₀ s) : steady s₀ (ctxReset i s) := by
  unfold ctxReset
  refine settle_steady (modRun_steady (modCtx_steady (ctxGiveUp_steady h) fun c _ => ?_))
  dsimp only
  split
  · exact wf_roomOf c.img
  · rfl

theorem dropSession_steady {fl : Bool} {i : Nat} (h : steady s₀ s) : steady s₀ (dropSession fl i s) := h.frame

theorem abortSession_steady {i : Nat} (h : steady s₀ s) : steady s₀ (abortSession i s) := by
  unfold abortSession
  split
  · exact h
  · exact completeOpt_steady h.frame

theorem abortLoad_steady {i : Nat} (h : steady s₀ s) : steady s₀ (abortLoad i s) := by
  unfold abortLoad
  split
  · exact h
  · exact completeOpt_steady (dropSession_steady h)

theorem dropBind_steady {i : Nat} (h : steady s₀ s) : steady s₀ (dropBind i s) :=
  steady.foldl (fun _ _ h => completeTag_steady h) h.frame

theorem closeCtx_steady {i : Nat} (h : steady s₀ s) : steady s₀ (closeCtx i s) :=
  modRun_steady (modCtx_steady (unassign_steady (dropBind_steady (abortLoad_steady (abortSession_steady (ctxReset_steady h)))))
    fun _ _ => rfl)

theorem leaveRunning_steady {st i : Nat} (h : steady s₀ s) : steady s₀ (leaveRunning st i s) :=
  ctxGiveUp_steady (modCtx_steady h)

theorem faultCtx_steady {i cause detail pc : Nat} (h : steady s₀ s) : steady s₀ (faultCtx i cause detail pc s) := by
  unfold faultCtx
  extract_lets s₁ _ s₂ s₃ s₄
  have h₁ : steady s₀ s₁ := unassign_steady (leaveRunning_steady h)
  have h₂ : steady s₀ s₂ := .ite h₁.frame h₁
  exact latchFault_steady (putCtx_steady (modRun_steady h₂))

theorem startCompact_steady (h : steady s₀ s) : steady s₀ (startCompact s) := .ite h h.frame

theorem movedTo_ge {a m p : Nat} {xs : List (Nat × Nat)} (h : movedTo (packFrom p xs) a = some m) : 1024 * p ≤ m := by
  induction xs generalizing p with
  | nil => simp [packFrom, movedTo] at h
  | cons x xs ih =>
    simp only [packFrom, movedTo, List.find?_cons] at h
    split at h
    · simp only [Option.map_some, Option.some.injEq] at h
      omega
    · have := ih h
      omega

theorem movedTo_from {a m p : Nat} {xs : List (Nat × Nat)} (h : movedTo (packFrom p xs) a = some m) :
    ∃ x ∈ xs, 1024 * x.1 ≤ a := by
  induction xs generalizing p with
  | nil => simp [packFrom, movedTo] at h
  | cons x xs ih =>
    simp only [packFrom, movedTo, List.find?_cons] at h
    split at h
    · next hx => exact ⟨x, List.mem_cons_self, by simp at hx; omega⟩
    · obtain ⟨y, hy, ha⟩ := ih h
      exact ⟨y, List.mem_cons_of_mem x hy, ha⟩

/-- Where segments stand in rising order, packing them keeps the order of their bytes. -/
theorem movedTo_strictMono {a b m n p : Nat} {xs : List (Nat × Nat)} (hs : xs.Pairwise (fun x y => x.1 ≤ y.1)) (hab : a < b)
    (ha : movedTo (packFrom p xs) a = some m) (hb : movedTo (packFrom p xs) b = some n) : m < n := by
  induction xs generalizing p with
  | nil => simp [packFrom, movedTo] at ha
  | cons x xs ih =>
    obtain ⟨hx, hs⟩ := List.pairwise_cons.1 hs
    simp only [packFrom, movedTo, List.find?_cons] at ha hb
    split at ha
    · next h₁ =>
      simp only [Bool.and_eq_true, decide_eq_true_eq] at h₁
      simp only [Option.map_some, Option.some.injEq] at ha
      split at hb
      · simp only [Option.map_some, Option.some.injEq] at hb
        omega
      · have := movedTo_ge hb
        omega
    · next h₁ =>
      split at hb
      · next h₂ =>
        obtain ⟨y, hy, hya⟩ := movedTo_from ha
        have := hx y hy
        simp at h₁ h₂
        omega
      · exact ih hs ha hb

/-- A rising renaming of addresses, where some are dropped, keeps the canonical form. -/
theorem wf_filterMap_rising {f : Nat → Option Nat} {d : Byte} {m : List Host.Cell}
    (hf : ∀ {a b x y}, a < b → f a = some x → f b = some y → x < y) (hm : Memory.wf d m = true) :
    Memory.wf d (m.filterMap (fun c => (f c.1).map (fun a => (a, c.2)))) = true := by
  suffices ∀ lo lo', Memory.wfFrom d lo m = true → (∀ a x, lo ≤ a → f a = some x → lo' ≤ x) →
      Memory.wfFrom d lo' (m.filterMap (fun c => (f c.1).map (fun a => (a, c.2)))) = true from
    this 0 0 hm fun _ _ _ _ => Nat.zero_le _
  intro lo lo' hm hlo
  induction m generalizing lo lo' with
  | nil => rfl
  | cons c cs ih =>
    obtain ⟨h1, h2, h3⟩ := Memory.wfFrom_cons.1 hm
    cases hc : f c.1 with
    | none =>
      simp only [List.filterMap_cons, hc, Option.map_none]
      exact ih (Memory.wfFrom_mono (by omega) h3) _ _ h3 fun a x ha => hlo a x (by omega)
    | some x =>
      simp only [List.filterMap_cons, hc, Option.map_some]
      exact Memory.wfFrom_cons.2 ⟨hlo _ _ h1 hc, h2,
        ih (Memory.wfFrom_mono (Nat.zero_le _) h3) _ _ h3 fun a y ha => hf (Nat.lt_of_succ_le ha) hc⟩

theorem sortBy_eq_insertionSort {α : Type} (k : α → Int) (xs : List α) :
    sortBy k xs = xs.insertionSort (fun x y => k x ≤ k y) := by
  induction xs with
  | nil => rfl
  | cons x xs ih => simp [sortBy, ih, List.orderedInsert_eq_take_drop]

theorem pairwise_sortBy {α : Type} (k : α → Int) (xs : List α) : (sortBy k xs).Pairwise (fun x y => k x ≤ k y) := by
  have : Std.Total (fun x y : α => k x ≤ k y) := ⟨fun x y => Int.le_total (k x) (k y)⟩
  have : IsTrans α (fun x y => k x ≤ k y) := ⟨fun _ _ _ => Int.le_trans⟩
  exact sortBy_eq_insertionSort k xs ▸ List.pairwise_insertionSort _ xs

theorem segs_rising (s : State) : s.segs.Pairwise (fun x y => x.1 ≤ y.1) := by
  refine (pairwise_sortBy _ _).imp fun {x y} h => ?_
  exact Int.ofNat_le.1 h

theorem relocate_steady (h : steady s₀ s) : steady s₀ (relocate s) :=
  mapCtxs_steady (s := { s with eng.code := _, eng.sessions := _, eng.binds := _ })
    (code_steady h (wf_filterMap_rising (movedTo_strictMono (segs_rising s))))

theorem placeWaiting_steady (h : steady s₀ s) : steady s₀ (placeWaiting s) :=
  steady.foldl (fun _ _ h => .ite h.frame h) (steady.foldl (fun _ _ h => .ite h.frame h) h)

theorem compactStep_steady (h : steady s₀ s) : steady s₀ (compactStep s) :=
  .ite h (.ite h.frame (placeWaiting_steady (relocate_steady h.frame)))

/-! ### Random numbers -/

theorem stockTurn_steady {i num : Nat} {params : List Byte} (h : steady s₀ s) :
    steady s₀ (stockTurn i num params s).2 :=
  modCtx_steady (modRun_steady (steady.foldl (fun _ _ h => putCtx_steady h) (fresh_steady (fresh_steady h))))

/-! ### The prefetch -/

theorem suspendFor_steady (h : steady s₀ s) : steady s₀ (suspendFor s) := by
  unfold suspendFor
  split
  · exact .ite h.frame h
  · exact h

theorem otherRead_steady (h : steady s₀ s) : steady s₀ (otherRead s) := by
  unfold otherRead
  exact suspendFor_steady h

theorem useLine_steady {o : Nat} (h : steady s₀ s) : steady s₀ (useLine o s).2 := by
  unfold useLine
  extract_lets a w
  split
  · exact h.frame
  · have h₁ : steady s₀ { s with mem.misses := satAdd 65535 s.mem.misses 1 } := h.frame
    split
    · exact .iteSnd (fresh_steady h₁) (fresh_steady h₁)
    · exact suspendFor_steady h₁

/-! ### Operands and results of instructions -/

@[simp] theorem Ctx.setReg_room (r : Reg) (v : Word) (c : Ctx) : (c.setReg r v).room = c.room := by
  unfold Ctx.setReg
  split <;> rfl

theorem setReg_steady {i : Nat} {r : Reg} {v : Word} (h : steady s₀ s) : steady s₀ (setReg i r v s) :=
  modCtx_steady h fun c hc => (Ctx.setReg_room r v c).symm ▸ hc

theorem setRegZN_steady {i : Nat} {r : Reg} {v : Word} (h : steady s₀ s) : steady s₀ (setRegZN i r v s) :=
  modCtx_steady h fun c hc => (Ctx.setReg_room r v c).symm ▸ hc

theorem setAlu_steady {i : Nat} {r : Reg} {x : Alu} {flags : Bool} (h : steady s₀ s) : steady s₀ (setAlu i r x flags s) := by
  refine modCtx_steady h fun c hc => ?_
  split
  · exact (Ctx.setReg_room r x.val c).symm ▸ hc
  · exact (Ctx.setReg_room r x.val c).symm ▸ hc

theorem writeRoom_steady {i a : Nat} {bs : List Byte} (h : steady s₀ s) : steady s₀ (writeRoom i a bs s) :=
  modCtx_steady h fun _ => Memory.wf_writeN

theorem loadLine_steady {a : Nat} (h : steady s₀ s) : steady s₀ (loadLine a s).2 := by
  unfold loadLine
  split
  · exact useLine_steady h
  · exact h

/-! ### Passes, traps and the rows of instructions -/

theorem spend_steady {n : Nat} (h : steady s₀ s) : steady s₀ (spend n s) := advance_steady h.frame

theorem charge_steady {n : Nat} (h : steady s₀ s) : steady s₀ (charge n s) := by
  unfold charge
  split
  · exact spend_steady h.frame
  · exact h

theorem beginEntry_steady {i k arg : Nat} {msg : Option Notice} (h : steady s₀ s) :
    steady s₀ (beginEntry i k arg msg s) := by
  unfold beginEntry
  split
  · exact h
  · exact charge_steady (modCtx_steady h.frame)

theorem endPass_steady (h : steady s₀ s) : steady s₀ (endPass s) := h.frame

theorem endTurn_steady {used : Nat} (h : steady s₀ s) : steady s₀ (endTurn used s) := by
  unfold endTurn
  split
  · exact h
  · extract_lets
    split
    · exact endPass_steady h.frame
    · exact h.frame

/-- The entry that comes next is struck off the turn's list. -/
theorem entryDone_steady (h : steady s₀ s) :
    steady s₀ { s with eng.turn := s.eng.turn.map (fun t => { t with entries := t.entries.drop 1 }) } := h.frame

theorem pickEntry_steady (h : steady s₀ s) : steady s₀ (pickEntry s) := by
  unfold pickEntry
  split
  · exact h
  · next t _ =>
    dsimp only
    refine .ite (endTurn_steady h) ?_
    split
    · exact endTurn_steady h
    · exact endTurn_steady (spend_steady (stockTurn_steady h))
    · split
      · exact endTurn_steady h
      · exact .ite (beginEntry_steady (entryDone_steady (modRun_steady h))) (entryDone_steady (modRun_steady h))
      · exact .ite (beginEntry_steady (entryDone_steady (modCtx_steady h))) (entryDone_steady (modCtx_steady h))
      · split
        · exact entryDone_steady h
        · exact .ite (entryDone_steady h) (.ite (beginEntry_steady (modCtx_steady h)) (modCtx_steady h))
      · exact .ite (beginEntry_steady (entryDone_steady h)) (entryDone_steady h)

theorem settleTurn_steady {fuel : Nat} (h : steady s₀ s) : steady s₀ (settleTurn fuel s) := by
  induction fuel generalizing s with
  | zero => exact h
  | succ k ih =>
    unfold settleTurn
    split
    · exact h
    · exact .ite h (ih (pickEntry_steady h))

theorem openPass_steady (h : steady s₀ s) : steady s₀ (openPass s) := by
  unfold openPass
  extract_lets order s₁ _ _ s₂
  have h₁ : steady s₀ s₁ := .foldl (fun _ _ h => modRun_steady h) h
  have h₂ : steady s₀ s₂ := h₁.frame
  clear_value s₂ s₁ order
  cases order with
  | nil => exact endPass_steady h₂
  | cons i is => exact settleTurn_steady h₂.frame

theorem finishPass_steady (h : steady s₀ s) : steady s₀ (finishPass s) := openPass_steady (.ite (wakeEvents_steady h) h)

theorem endEntry_steady (h : steady s₀ s) : steady s₀ (endEntry s) := by
  unfold endEntry
  split
  · exact h
  · exact settleTurn_steady (.ite (modCtx_steady h) h)

theorem trap_steady {i cause detail : Nat} (h : steady s₀ s) : steady s₀ (trap i cause detail s) := by
  unfold trap
  split
  · exact h
  · exact settleTurn_steady (endTurn_steady (faultCtx_steady h))

/-- What an instruction does is steady where the effect of its plan is. -/
theorem dyrel_steady {op : Nat} {plan : Nat → State → Plan}
    (hp : ∀ i t {s : State}, steady s₀ s → steady s₀ ((plan i t).run s)) (h : steady s₀ s) : steady s₀ (dyrel op plan s) := by
  unfold dyrel
  split
  · exact h
  · refine .ite h ?_
    refine .ite (trap_steady h) ?_
    split
    · exact trap_steady h
    · split
      · exact trap_steady h
      · exact .ite (trap_steady h) (.ite (endEntry_steady (hp _ s (charge_steady (modCtx_steady h))))
          (hp _ s (charge_steady (modCtx_steady h))))

theorem dyrelRow_steady {op : Nat} {plan : Nat → State → Plan} (h : steady s₀ s)
    (hp : ∀ i t {s : State}, steady s₀ s → steady s₀ ((plan i t).run s)) : steady s₀ (nextOf s (dyrelRow op plan s)) :=
  dyrel_steady hp h

/-! ### Arithmetic -/

theorem alu_steady {unary : Bool} {f : Bool → Word → Word → Alu} {o : OpR} (h : steady s₀ s) :
    steady s₀ (nextOf s (aluRow unary f o s)) :=
  dyrelRow_steady h fun _ _ _ h => setAlu_steady h

theorem imm_steady {op : Nat} {legal : OpI → Bool} {f : Word → BitVec 18 → Word} {o : OpI} (h : steady s₀ s) :
    steady s₀ (nextOf s (immRow op legal f o s)) :=
  dyrelRow_steady h fun _ _ _ h => setReg_steady h

theorem flag_steady {op : Nat} {f : Word → BitVec 18 → Alu} {o : OpI} (h : steady s₀ s) :
    steady s₀ (nextOf s (flagRow op f o s)) :=
  dyrelRow_steady h fun _ _ _ h => modCtx_steady h

/-! ### Flow -/

theorem setPc_steady {i pc : Nat} (h : steady s₀ s) : steady s₀ (setPc i pc s) := modCtx_steady h

/-! ### System calls and stores -/

theorem modTurn_steady {f : Turn → Turn} (h : steady s₀ s) : steady s₀ (modTurn f s) := h.frame

theorem emitRec_steady {i typ time : Nat} {payload : List Byte} (h : steady s₀ s) :
    steady s₀ (emitRec i typ time payload s) :=
  modTurn_steady (putCtx_steady h)

theorem assignProfile_steady {set stock : Nat} {record : List Byte} (h : steady s₀ s) :
    steady s₀ (assignProfile set stock record s) :=
  h.frame

theorem sys_steady {cap : Nat} {o : OpS} {f : Nat → Word → Word → State → Option (Word × (State → State))}
    (hf : ∀ i a b t d g {s : State}, f i a b t = some (d, g) → steady s₀ s → steady s₀ (g s)) (h : steady s₀ s) :
    steady s₀ (nextOf s (sysRow cap o f s)) := by
  refine dyrelRow_steady h fun i t s h => ?_
  dsimp only
  cases hfg : f i (t.reg i o.a) (t.reg i o.b) t with
  | none => exact setRegZN_steady h
  | some x => exact setRegZN_steady (hf _ _ _ _ _ _ hfg h)

theorem descStart_steady {i : Nat} {d : List Byte} (h : steady s₀ s) : steady s₀ (descStart i d s) :=
  .ite (otherRead_steady (modRun_steady h.frame)) (startFlash_steady (modRun_steady h.frame))

theorem load_steady {op n : Nat} {f : Nat → Word} {o : OpI} (h : steady s₀ s) :
    steady s₀ (nextOf s (dyrelRow op (loadPlan n f o) s)) :=
  dyrelRow_steady h fun _ _ _ h => setReg_steady (loadLine_steady h)

theorem store_steady {n : Nat} {o : OpT} (h : steady s₀ s) : steady s₀ (nextOf s (dyrelRow 0x15 (storePlan n o) s)) :=
  dyrelRow_steady h fun _ _ _ h => writeRoom_steady h

theorem emit_steady {o : OpA} (h : steady s₀ s) : steady s₀ (nextOf s (execEmit o s)) := by
  refine dyrelRow_steady h fun i t s h => .ite (setRegZN_steady h) (.ite ?_ (setRegZN_steady (emitRec_steady h)))
  split
  · exact setRegZN_steady (emitRec_steady h)
  · exact setRegZN_steady h

theorem spanReceive_steady {o : OpL} (h : steady s₀ s) : steady s₀ (nextOf s (execSpanReceive o s)) := by
  refine dyrelRow_steady h fun i t s h => ?_
  dsimp only
  cases t.eng.turn.bind (·.msg) with
  | none => exact setRegZN_steady h
  | some m =>
    dsimp only
    rw [ite_apply]
    exact .ite (modCtx_steady (setRegZN_steady h)) (setRegZN_steady h)

theorem sysLedger_steady {o : OpS} (h : steady s₀ s) : steady s₀ (nextOf s (execSysLedger o s)) := by
  refine sys_steady (fun i a b t d g s hf h => ?_) h
  cases (Option.ite_none_right_eq_some.1 hf).2
  exact h.frame

theorem sysFan_steady {o : OpS} (h : steady s₀ s) : steady s₀ (nextOf s (execSysFan o s)) := by
  refine sys_steady (fun i a b t d g s hf h => ?_) h
  cases (Option.ite_none_right_eq_some.1 hf).2
  exact modRun_steady h

theorem sysBacklight_steady {o : OpS} (h : steady s₀ s) : steady s₀ (nextOf s (execSysBacklight o s)) := by
  refine sys_steady (fun i a b t d g s hf h => ?_) h
  cases (Option.ite_none_right_eq_some.1 hf).2
  exact modRun_steady h

theorem sysProfile_steady {o : OpS} (h : steady s₀ s) : steady s₀ (nextOf s (execSysProfile o s)) := by
  refine sys_steady (fun i a b t d g s hf h => ?_) h
  cases (Option.ite_none_right_eq_some.1 hf).2
  exact h.frame

theorem sysFreeze_steady {o : OpS} (h : steady s₀ s) : steady s₀ (nextOf s (execSysFreeze o s)) := by
  refine sys_steady (fun i a b t d g s hf h => ?_) h
  cases (Option.ite_none_right_eq_some.1 hf).2
  exact h.frame

theorem sysCalrd_steady {o : OpS} (h : steady s₀ s) : steady s₀ (nextOf s (execSysCalrd o s)) := by
  refine sys_steady (fun i a b t d g s hf h => ?_) h
  obtain ⟨v, -, hv⟩ := Option.map_eq_some_iff.1 (Option.ite_none_left_eq_some.1 hf).2
  cases hv
  exact h

/-! ### The engine -/

theorem runInstr_steady {x : Instr} (h : steady s₀ s) : steady s₀ (runInstr x s) := by
  unfold runInstr
  split
  · exact alu_steady h
  · exact alu_steady h
  · exact alu_steady h
  · exact alu_steady h
  · exact alu_steady h
  · exact alu_steady h
  · exact alu_steady h
  · exact alu_steady h
  · exact alu_steady h
  · exact alu_steady h
  · exact alu_steady h
  · exact alu_steady h
  · exact alu_steady h
  · exact alu_steady h
  · exact alu_steady h
  · exact alu_steady h
  · exact alu_steady h
  · exact alu_steady h
  · exact alu_steady h
  · exact alu_steady h
  · exact alu_steady h
  · exact alu_steady h
  · exact imm_steady h
  · exact imm_steady h
  · exact imm_steady h
  · exact imm_steady h
  · exact imm_steady h
  · exact imm_steady h
  · exact imm_steady h
  · exact imm_steady h
  · exact flag_steady h
  · exact imm_steady h
  · exact imm_steady h
  · exact imm_steady h
  · exact flag_steady h
  · exact load_steady h
  · exact load_steady h
  · exact load_steady h
  · exact load_steady h
  · exact load_steady h
  · exact dyrelRow_steady h fun _ _ _ h => setPc_steady (setReg_steady h)
  · exact dyrelRow_steady h fun _ _ _ h => .ite (setReg_steady h) (setPc_steady (setReg_steady h))
  · exact dyrelRow_steady h fun _ _ _ h => .ite (setPc_steady h) h
  · exact dyrelRow_steady h fun _ _ _ h => .ite h (setPc_steady h)
  · exact dyrelRow_steady h fun _ _ _ h => setReg_steady h
  · exact dyrelRow_steady h fun _ _ _ h => setRegZN_steady h
  · exact dyrelRow_steady h fun _ _ _ h => setRegZN_steady h
  · exact dyrelRow_steady h fun _ _ _ h => setRegZN_steady h
  · exact dyrelRow_steady h fun _ _ _ h => setRegZN_steady h
  · exact dyrelRow_steady h fun _ _ _ h => setRegZN_steady h
  · exact emit_steady h
  · exact dyrelRow_steady h fun _ _ _ h => .ite (setRegZN_steady (putCtx_steady (modCtx_steady h))) (setRegZN_steady h)
  · exact dyrelRow_steady h fun _ _ _ h => setRegZN_steady (.ite (modCtx_steady h) h)
  · exact dyrelRow_steady h fun _ _ _ h => setPc_steady h
  · exact dyrelRow_steady h fun _ _ _ h => setRegZN_steady h
  · exact dyrelRow_steady h fun _ _ _ h => .ite (setPc_steady h) h
  · exact dyrelRow_steady h fun _ _ _ h => .ite (setPc_steady (setReg_steady h)) h
  · exact dyrelRow_steady h fun _ _ _ h => setRegZN_steady h
  · exact dyrelRow_steady h fun _ _ _ h => setRegZN_steady h
  · exact dyrelRow_steady h fun _ _ _ h => setRegZN_steady h
  · exact dyrelRow_steady h fun _ _ _ h => setRegZN_steady h
  · exact dyrelRow_steady h fun _ _ _ h => writeRoom_steady h
  · exact store_steady h
  · exact store_steady h
  · exact store_steady h
  · exact sysLedger_steady h
  · exact sysFan_steady h
  · exact sysBacklight_steady h
  · exact sysProfile_steady h
  · exact sysFreeze_steady h
  · exact sysCalrd_steady h
  · exact dyrelRow_steady h fun _ _ _ h => .ite (setRegZN_steady h) (.ite (setRegZN_steady h) (setRegZN_steady (request_steady h)))
  · exact dyrelRow_steady h fun _ _ _ h => .ite (setRegZN_steady (withdraw_steady h))
      (.ite (setRegZN_steady (releaseGrant_steady h)) (setRegZN_steady h))
  · exact dyrelRow_steady h fun _ _ _ h => .ite (setRegZN_steady h.frame) (setRegZN_steady h)
  · exact spanReceive_steady h
  · exact dyrelRow_steady h fun _ _ _ h => setRegZN_steady (.ite (descStart_steady h) h)
  · exact dyrelRow_steady h fun _ _ _ h => setRegZN_steady h
  · exact dyrelRow_steady h fun _ _ _ h => h
  · exact dyrelRow_steady h fun _ _ _ h => h
  · exact h

theorem fetchAt_steady {i n : Nat} {t : State} {x : Word} (h : steady s₀ s) (hf : fetchAt i s = .word x n t) :
    steady s₀ t := by
  unfold fetchAt at hf
  extract_lets c g at hf
  split at hf
  · cases hf
  · split at hf
    · split at hf
      · cases hf
      · split at hf
        · cases hf
        · cases hf
          exact useLine_steady h
    · cases hf
      exact h

theorem engineStep_steady (h : steady s₀ s) : steady s₀ (engineStep s) := by
  unfold engineStep
  split
  · exact h
  · refine .ite (settleTurn_steady h) ?_
    split
    · exact trap_steady h
    · next hf => exact runInstr_steady (.ite (fetchAt_steady h hf) (charge_steady (fetchAt_steady h hf)))

theorem runPass_steady {fuel : Nat} (h : steady s₀ s) : steady s₀ (runPass fuel s) := by
  induction fuel generalizing s with
  | zero => exact h
  | succ k ih =>
    unfold runPass
    split
    · exact h
    · exact ih (engineStep_steady h)

theorem idle_steady (h : steady s₀ s) : steady s₀ (idle s) := .ite (engineStep_steady h) (advance_steady h)

/-! ### Spill and ledger -/

theorem waitOp_steady {o : FlashOp} (h : steady s₀ s) : steady s₀ (waitOp o s) := h.frame

theorem houseOp_steady {o : FlashOp} (h : steady s₀ s) : steady s₀ (houseOp o s) := by
  unfold houseOp
  split
  · exact .ite (startFlash_steady (waitOp_steady (dropReReq_steady (withdraw_steady h.frame)))) (waitOp_steady h)
  · exact .ite (waitOp_steady h) (startFlash_steady h)

theorem journalRead_steady {p : Port} {mode n0 count : Nat} (h : steady s₀ s) :
    steady s₀ (journalRead p mode n0 count s).2 := by
  unfold journalRead
  extract_lets
  split
  · exact h
  · exact modPort_steady (.ite (otherRead_steady h) h)

theorem spillErased_steady {a n : Nat} (h : steady s₀ s) : steady s₀ (spillErased a n s) := h.frame

theorem spillChunk_steady (h : steady s₀ s) : steady s₀ (spillChunk s) := by
  unfold spillChunk
  split
  · exact h
  · extract_lets _ s₁ rs sec at_ data _ s₂ s₃
    have h₁ : steady s₀ s₁ := .ite (record_steady h.frame) h
    have h₂ : steady s₀ s₂ := h₁.frame
    exact houseOp_steady (.ite (houseOp_steady h₂) h₂)

theorem ledRec_steady {sub flags value seq : Nat} (h : steady s₀ s) :
    steady s₀ (ledRec sub flags value seq s) :=
  record_steady h

theorem ledErased_steady {a n : Nat} (h : steady s₀ s) : steady s₀ (ledErased a n s) := by
  unfold ledErased
  dsimp only
  split
  · exact h
  · exact ledRec_steady h.frame

theorem ledProgram_steady {data : List Byte} {seq : Option Nat} (h : steady s₀ s) : steady s₀ (ledProgram data seq s) := by
  unfold ledProgram
  split
  · exact h
  · exact houseOp_steady (.ite (houseOp_steady (ledErased_steady h.frame)) h.frame)

theorem ledNext_steady (h : steady s₀ s) : steady s₀ (ledNext s) := by
  unfold ledNext
  refine .ite h ?_
  split
  · exact ledProgram_steady h
  · exact h

theorem sealRec_steady {body : List Byte} (h : steady s₀ s) : steady s₀ (sealRec body s) := by
  unfold sealRec
  exact ledNext_steady (by split <;> [exact ledRec_steady h.frame; exact h.frame])

theorem ledTouches_steady (h : steady s₀ s) : steady s₀ (ledTouches s) := h.frame

theorem closePeriod_steady {end_ flags newFlags : Nat} (h : steady s₀ s) : steady s₀ (closePeriod end_ flags newFlags s) := by
  unfold closePeriod
  extract_lets s₁ p fl seq s₂
  have h₁ : steady s₀ s₁ := ledTouches_steady (runPass_steady h)
  have h₂ : steady s₀ s₂ := .ite (ledRec_steady (sealRec_steady h₁)) h₁
  exact h₂.frame

theorem closeDue_steady (h : steady s₀ s) : steady s₀ (closeDue s) := .ite (closePeriod_steady h) h

theorem checkpoint_steady (h : steady s₀ s) : steady s₀ (checkpoint s) :=
  .ite h (ledRec_steady (ledProgram_steady (ledTouches_steady h)))

theorem closeEmpty_steady {n : Nat} (h : steady s₀ s) : steady s₀ (closeEmpty n s) := by
  induction n generalizing s with
  | zero => exact h
  | succ n ih => exact ih (closePeriod_steady h)

theorem closeForward_steady {w : Nat} (h : steady s₀ s) : steady s₀ (closeForward w s) :=
  .ite (closeEmpty_steady (closePeriod_steady h)) (closePeriod_steady (closeEmpty_steady (closePeriod_steady h)))

theorem setClock_steady {port w frac : Nat} (h : steady s₀ s) : steady s₀ (setClock port w frac s).2 := by
  unfold setClock
  extract_lets s₁ old seq b s₂ _ _ s₃ answer _ _ s₄
  have h₁ : steady s₀ s₁ := closeDue_steady h
  have h₂ : steady s₀ s₂ := ledRec_steady (sealRec_steady h₁)
  have h₃ : steady s₀ s₃ := .ite h₂.frame h₁
  have h₄ : steady s₀ s₄ := .ite (closePeriod_steady h₃.frame) (.ite h₃.frame (.ite h₃ (.ite h₃.frame (closeForward_steady h₃))))
  exact h₄.frame

theorem ledgerStart_steady (h : steady s₀ s) : steady s₀ (ledgerStart s) := h.frame

theorem ledgerConfig_steady {l a fl ckpt : Nat} (h : steady s₀ s) :
    steady s₀ (ledgerConfig l a fl ckpt s) :=
  ledRec_steady h.frame

theorem spillRecover_steady (h : steady s₀ s) : steady s₀ (spillRecover s) := by
  unfold spillRecover
  split
  · exact h
  · exact record_steady h.frame

theorem ledRecover_steady (h : steady s₀ s) : steady s₀ (ledRecover s) := by
  unfold ledRecover
  split
  · exact h
  · extract_lets slots seals newest oldest _ s₁ _ s₂ cks ck used skip per slot _ s₃ _ seq
    have h₁ : steady s₀ s₁ := by
      unfold s₁
      split
      · exact h
      · exact h.frame
    have h₂ : steady s₀ s₂ := h₁.frame
    have h₃ : steady s₀ s₃ := h₂.frame
    clear_value s₃ ck
    cases ck with
    | none => exact .ite h₃ (ledRec_steady h₃)
    | some c => exact ledRec_steady (sealRec_steady h₃).frame

/-! ### The memory port -/

theorem applyProfile_steady {p : List Byte} {seq copy : Nat} (h : steady s₀ s) :
    steady s₀ (applyProfile p seq copy s) :=
  h.frame

theorem noProfile_steady (h : steady s₀ s) : steady s₀ (noProfile s) := h.frame

theorem queueRecoveries_steady {tag : Option Nat} {k : Nat} {rs : List (Nat × Nat × Nat)} (h : steady s₀ s) :
    steady s₀ (queueRecoveries tag k rs s) := by
  induction rs generalizing k s with
  | nil => exact h
  | cons r rs ih => exact ih (.ite h.frame (startFlash_steady h))

theorem scanIntents_steady {tag : Option Nat} (h : steady s₀ s) : steady s₀ (scanIntents tag s).2 := by
  have clear {p : List Byte} {k sec : Nat} {t : State} (h : steady s₀ t) :
      steady s₀ (if (intentSlots t k).all slotBlankB then t else eraseFlash (intentBase p k) sec t) :=
    .ite h (eraseFlash_steady h)
  unfold scanIntents
  dsimp only
  split
  · exact putIntent_steady (clear (clear h))
  · exact .iteSnd (noProfile_steady (clear h)) (.iteSnd (clear h)
      (queueRecoveries_steady (latchFault_steady (clear h))))

theorem opLeaves_steady {o : FlashOp} (h : steady s₀ s) : steady s₀ (opLeaves o s) :=
  dropReReq_steady (withdraw_steady (releaseGrant_steady h.frame))

theorem nextOp_steady (h : steady s₀ s) : steady s₀ (nextOp s) := by
  unfold nextOp
  split
  · exact h
  · split
    · exact startFlash_steady h.frame
    · exact ledNext_steady h

theorem xferEnds_steady {result : Nat} (h : steady s₀ s) : steady s₀ (xferEnds result s) := by
  unfold xferEnds
  split
  · exact h
  · exact modRun_steady h.frame

theorem opDone_steady {o : FlashOp} (h : steady s₀ s) : steady s₀ (opDone o s) := by
  unfold opDone
  extract_lets
  split
  · exact .ite (completeOpt_steady h) (completeOpt_steady h)
  · exact .ite (completeOpt_steady h) (completeOpt_steady h)
  · exact completeOpt_steady h
  · exact xferEnds_steady (completeOpt_steady h)
  · exact completeOpt_steady h

theorem eraseEnds_steady {o : FlashOp} (h : steady s₀ s) : steady s₀ (eraseEnds o s) := by
  refine nextOp_steady (opDone_steady (opLeaves_steady ?_))
  exact writeIntent_steady (eraseFlash_steady (.ite (spillErased_steady h) h))

theorem freeBytes_steady {n : Nat} (h : steady s₀ s) : steady s₀ (freeBytes n s).2 := by
  induction n generalizing s with
  | zero => exact h
  | succ n ih => exact ih (fresh_steady h)

theorem cutProgram_steady (h : steady s₀ s) : steady s₀ (cutProgram s) := by
  unfold cutProgram
  split
  · exact .ite (programFlash_steady (freeBytes_steady (fresh_steady h))) h
  · exact h

theorem timeoutEnds_steady {o : FlashOp} (h : steady s₀ s) : steady s₀ (timeoutEnds o s) := by
  unfold timeoutEnds
  split
  · exact completeOpt_steady (.ite (steady.foldl (fun _ _ h => .ite (completeOpt_steady h) h) h.frame) h)
  · exact completeOpt_steady h
  · exact xferEnds_steady h
  · exact completeOpt_steady h

theorem runRecoveries_steady {fuel : Nat} (h : steady s₀ s) : steady s₀ (runRecoveries fuel s) := by
  induction fuel generalizing s with
  | zero => exact h
  | succ k ih =>
    unfold runRecoveries
    split
    · next o _ =>
      have hl : steady s₀ (if o.running then s else decideLeave true false s) := .ite h (decideLeave_steady h)
      refine .ite ?_ h
      dsimp only
      split
      · exact .ite (ih (eraseEnds_steady hl)) hl
      · exact hl
    · exact h

theorem deliverRead_steady (h : steady s₀ s) : steady s₀ (deliverRead s) :=
  .foldl (fun _ _ h => .ite (modCtx_steady h fun _ => Memory.wf_writeN) h) h.frame

theorem failHeldRead_steady {addr : Nat} {p : Port} (h : steady s₀ s) : steady s₀ (failHeldRead addr p s) := by
  unfold failHeldRead
  split
  · exact .ite (modPort_steady h) h
  · exact h

theorem failFetch_steady {addr : Nat} (h : steady s₀ s) : steady s₀ (failFetch addr s) := by
  unfold failFetch
  split
  · exact .ite (runInstr_steady h) h
  · exact h

theorem memRead_steady {a n : Nat} (h : steady s₀ s) : steady s₀ (memRead a n s).2.2 := by
  unfold memRead
  split
  · exact h
  · split
    · exact h.frame
    · exact otherRead_steady h

theorem memProgram_steady {tag a : Nat} {data : List Byte} (h : steady s₀ s) : steady s₀ (memProgram tag a data s) :=
  .ite (completeTag_steady h) (startFlash_steady h)

theorem memErase_steady {tag a code : Nat} (h : steady s₀ s) : steady s₀ (memErase tag a code s) :=
  .ite (completeTag_steady h) (startFlash_steady h)

theorem memProfile_steady {tag : Nat} {p : List Byte} (h : steady s₀ s) : steady s₀ (memProfile tag p s) := by
  unfold memProfile
  extract_lets old copy seq first wr s₁ sec scanned s₂ erase prog _ s₃ _
  have h₁ : steady s₀ s₁ := applyProfile_steady h
  have h₂ : steady s₀ s₂ := .iteSnd (scanIntents_steady h₁) h₁
  have h₃ : steady s₀ s₃ := startFlash_steady h₂
  exact .ite (.ite h₂.frame h₃.frame) (.ite (completeTag_steady h₂) h₂)

theorem memXip_steady {on : Bool} (h : steady s₀ s) : steady s₀ (memXip on s) := .ite h.frame h.frame

theorem memDiscover_steady {pin : Nat} (h : steady s₀ s) : steady s₀ (memDiscover pin s).2 := by
  unfold memDiscover
  extract_lets
  split
  · exact h
  · exact freeBytes_steady (freeBytes_steady h)

theorem memBoot_steady (h : steady s₀ s) : steady s₀ (memBoot s) := by
  unfold memBoot
  extract_lets _ s₁
  have h₁ : steady s₀ s₁ := h.frame
  refine .ite h₁ ?_
  split
  · exact h₁
  · next seq copy p _ =>
    exact scanIntents_steady (applyProfile_steady (p := p) (seq := seq) (copy := copy) h₁).frame

/-! ### Temperatures and fans -/

theorem overRec_steady {sub item : Nat} (h : steady s₀ s) : steady s₀ (overRec sub item s) :=
  .ite (thermalRec_steady h) (thermalRec_steady (fresh_steady h))

theorem overrideEval_steady (h : steady s₀ s) : steady s₀ (overrideEval s) :=
  .ite (overRec_steady h.frame) (.ite (overRec_steady h.frame) h.frame)

theorem blQuiet_steady {k : Nat} (h : steady s₀ s) : steady s₀ (blQuiet k s) :=
  modBl_steady (withdraw_steady (dropReReq_steady h))

theorem blApply_steady {k d : Nat} (h : steady s₀ s) : steady s₀ (blApply k d s) := by
  have hq := blQuiet_steady (k := k) h
  have hp := modBl_steady (n := k) (f := fun b => { b with pend := some d }) h
  exact .ite (modBl_steady (.ite (releaseGrant_steady hq) (setCost_steady hq)))
    (.ite (modBl_steady h) (.ite h (.ite hp (follow_steady hp))))

theorem blRun_steady {dt k : Nat} (h : steady s₀ s) : steady s₀ (blRun dt k s) := by
  unfold blRun
  extract_lets b lim asked want want' der acc step d s₁ s₂
  have h₁ : steady s₀ s₁ := modBl_steady h
  have h₂ : steady s₀ s₂ := .ite (thermalRec_steady h₁) (.ite (thermalRec_steady h₁) h₁)
  exact .ite (blApply_steady h) (.ite (blQuiet_steady h₂) (.ite h₂ (blApply_steady h₂)))

theorem polRun_steady {n : Nat} (h : steady s₀ s) : steady s₀ (polRun n s) := modFan_steady h

theorem policyRun_steady (h : steady s₀ s) : steady s₀ (policyRun s) := by
  unfold policyRun
  extract_lets _ s₁ dt _ s₂ s₃
  have h₁ : steady s₀ s₁ := by
    unfold s₁
    split
    · exact h.frame
    · exact h
  have h₃ : steady s₀ s₃ := overrideEval_steady (polRun_steady (polRun_steady (polRun_steady h₁.frame)))
  exact driveFollow_steady (blRun_steady (blRun_steady h₃))

theorem fanStop_steady {st n : Nat} (h : steady s₀ s) : steady s₀ (fanStop st n s) := by
  have hr {a b c d : Nat} : steady s₀ (releaseGrant a b (releaseGrant c d s)) := releaseGrant_steady (releaseGrant_steady h)
  exact modFan_steady (dropReReq_steady (dropReReq_steady (withdraw_steady (withdraw_steady hr))))

theorem fanRec_steady {sub n cause speed setp : Nat} (h : steady s₀ s) :
    steady s₀ (fanRec sub n cause speed setp s) :=
  record_steady h

theorem fanAsk_steady {n : Nat} (h : steady s₀ s) : steady s₀ (fanAsk n s) := .ite h (request_steady h)

theorem fanFail_steady {n cause : Nat} (h : steady s₀ s) : steady s₀ (fanFail n cause s) := by
  unfold fanFail
  extract_lets f s₁ s₂ s₃ s₄
  have h₂ : steady s₀ s₂ := modFan_steady (fanStop_steady h)
  exact overrideEval_steady (.ite (fanRec_steady h₂) (latchFault_steady (fanRec_steady (modFan_steady h₂))))

theorem fanApply_steady {n : Nat} (h : steady s₀ s) : steady s₀ (fanApply n s) := by
  unfold fanApply
  split
  · exact h
  · extract_lets old emf s₁
    have h₁ : steady s₀ s₁ := modFan_steady h
    exact .ite (overrideEval_steady (modFan_steady (fanStop_steady h₁))) (.ite (fanAsk_steady (fanStop_steady h₁)) h₁)

/-! ### Images -/

theorem openSession_steady {i total : Nat} (h : steady s₀ s) : steady s₀ (openSession i total s) := by
  unfold openSession
  exact abortSession_steady h

theorem modSession_steady {fl : Bool} {i : Nat} {f : Session → Session} (h : steady s₀ s) :
    steady s₀ (modSession fl i f s) :=
  h.frame

theorem reserve_steady {flashed : Bool} {i n : Nat} {t : State} (h : steady s₀ s) (hr : reserve flashed i n s = some t) :
    steady s₀ t := by
  have hr := (Option.ite_none_left_eq_some.1 hr).2
  split at hr
  · cases hr
    exact modSession_steady h
  · cases hr
    exact startCompact_steady (modSession_steady h)

theorem appendData_steady {i : Nat} {data : List Byte} (h : steady s₀ s) : steady s₀ (appendData i data s).2 := by
  unfold appendData
  split
  · exact h
  · refine .iteSnd (.iteSnd (dropSession_steady h) ?_) (modSession_steady h)
    split
    · next hr => exact reserve_steady (modSession_steady h) hr
    · exact dropSession_steady h

theorem failLoad_steady {fl : Bool} {i tag r : Nat} (h : steady s₀ s) : steady s₀ (failLoad fl i tag r s) :=
  completeTag_steady (dropSession_steady h)

theorem awaitBind_steady {fl : Bool} {i tag : Nat} {e : Session} {b : List Byte} {xipBase : Option Nat} (h : steady s₀ s) :
    steady s₀ (awaitBind fl i tag e b xipBase s) :=
  deferCmd_steady h.frame

theorem verifyDone_steady {i : Nat} {runs : Bool} (h : steady s₀ s) : steady s₀ (verifyDone i runs s) := by
  unfold verifyDone
  split
  · exact h
  · dsimp only
    split
    · exact .ite (failLoad_steady h) (.ite (completeTag_steady (modSession_steady h)) (awaitBind_steady h))
    · next off xip _ =>
      refine .ite (failLoad_steady h) ?_
      split
      · exact failLoad_steady h
      · next t ht =>
        have h : steady s₀ t := by
          split at ht
          · cases ht
            exact h
          · exact reserve_steady h ht
        exact .ite (failLoad_steady h) (.ite (completeTag_steady (dropSession_steady h)) (awaitBind_steady h))

theorem installed_steady {xip : Bool} {a : Nat} {bs : List Byte} (h : steady s₀ s) :
    steady s₀ (if xip then s else { s with eng.code := Memory.writeN 0 s.eng.code a bs }) :=
  .ite h (code_steady h Memory.wf_writeN)

theorem bindOne_steady {w : BindWait} (h : steady s₀ s) : steady s₀ (bindOne w s) :=
  .ite (completeTag_steady h.frame) (.ite (completeTag_steady h.frame)
    (completeTag_steady (modCtx_steady (installed_steady h.frame))))

theorem startKeyWrite_steady {w : OtpWrite} (h : steady s₀ s) : steady s₀ (startKeyWrite w s) := h.frame

/-! ### The link -/

theorem spanRec_steady {sub pos value : Nat} (h : steady s₀ s) : steady s₀ (spanRec sub pos value s) :=
  record_steady h

theorem causeSpan_steady (h : steady s₀ s) : steady s₀ (causeSpan s) := cause_steady (cause_steady h)

theorem spanFault_steady (h : steady s₀ s) : steady s₀ (spanFault s) := causeSpan_steady (latchFault_steady h)

theorem adoptCtx_steady {acc : Nat × State} {x : Nat × List Byte × List Byte} (h : steady s₀ acc.2) :
    steady s₀ (adoptCtx acc x).2 :=
  .iteSnd (modCtx_steady h fun _ _ => rfl)
    (ctxReset_steady (modRun_steady (.ite (code_steady (modCtx_steady h fun _ _ => rfl) Memory.wf_writeN)
      (modCtx_steady h fun _ _ => rfl))))

theorem adoptCtxs_steady {xs : List (Nat × List Byte × List Byte)} {acc : Nat × State} (h : steady s₀ acc.2) :
    steady s₀ (xs.foldl adoptCtx acc).2 := by
  induction xs generalizing acc with
  | nil => exact h
  | cons x xs ih => exact ih (adoptCtx_steady h)

theorem adoptBlob_steady {b : List Byte} (h : steady s₀ s) : steady s₀ (adoptBlob b s) := by
  unfold adoptBlob
  dsimp only
  refine adoptCtxs_steady (.foldl (fun _ _ h => unassign_steady h) ?_)
  exact code_steady h fun _ => Memory.wf_nil

theorem modMember_steady {p : Nat} {f : Member → Member} (h : steady s₀ s) : steady s₀ (modMember p f s) := h.frame

theorem clearRing_steady (h : steady s₀ s) : steady s₀ (clearRing s) := by
  unfold clearRing
  exact steady.foldl (fun _ _ h => completeTag_steady h) (completeOpt_steady h)

theorem startClaim_steady (h : steady s₀ s) : steady s₀ (startClaim s) := .ite (clearRing_steady h) h

theorem becomeIsland_steady (h : steady s₀ s) : steady s₀ (becomeIsland s) :=
  spanFault_steady (spanRec_steady (clearRing_steady h.frame))

theorem becomeExcluded_steady {sub value : Nat} (h : steady s₀ s) : steady s₀ (becomeExcluded sub value s) :=
  spanFault_steady (spanRec_steady (clearRing_steady h.frame))

/-! ### Registers -/

theorem regTouch_steady {a : Nat} (h : steady s₀ s) : steady s₀ (regTouch a s) := by
  unfold regTouch
  split
  all_goals try exact h.frame

theorem regsRead_steady {n a : Nat} (h : steady s₀ s) : steady s₀ (regsRead n a s).2 := by
  induction n generalizing a s with
  | zero => exact h
  | succ n ih => exact ih (regTouch_steady h)

theorem deferWrite_steady {p : Port} {a ones : Nat} (h : steady s₀ s) : steady s₀ (deferWrite p a ones s) := h.frame

theorem writeFrcCfg_steady {n w ones : Nat} (h : steady s₀ s) : steady s₀ (writeFrcCfg n w ones s) :=
  modBridge_steady h

theorem writeThermEn_steady {w : Nat} (h : steady s₀ s) : steady s₀ (writeThermEn w s) :=
  steady.foldl (fun _ _ h => enableThm_steady h) h

theorem writeTlim_steady {w : Nat} (h : steady s₀ s) : steady s₀ (writeTlim w s) := .ite h.frame h

theorem writeFgeom_steady {xs : Bool} {w : Nat} (h : steady s₀ s) : steady s₀ (writeFgeom xs w s) :=
  .ite h (.ite (.ite h.frame h.frame) (.ite h.frame h.frame))

theorem writeHsCfg_steady {w : Nat} (h : steady s₀ s) : steady s₀ (writeHsCfg w s) := h.frame

theorem clearLapse_steady {l0 l1 : Bool} (h : steady s₀ s) : steady s₀ (clearLapse l0 l1 s) :=
  settle_steady h.frame

theorem clearSafecause_steady {ones : Nat} (h : steady s₀ s) : steady s₀ (clearSafecause ones s) := h.frame

theorem clearFlags_steady {k ones : Nat} (h : steady s₀ s) : steady s₀ (clearFlags k ones s) := h.frame

theorem regPut_steady {p : Port} {a w ones : Nat} (h : steady s₀ s) : steady s₀ (regPut p a w ones s) := by
  refine .ite (.ite (writeFrcCfg_steady h) (modBridge_steady h)) (.ite (clearFlags_steady h) (.ite (modFan_steady h) ?_))
  split
  · exact h.frame
  · exact h.frame
  · exact h.frame
  · exact h.frame
  · exact clearSafecause_steady h
  · exact clearLapse_steady h
  · exact .ite h.frame h
  · exact h.frame
  · exact h.frame
  · exact h.frame
  · exact h.frame
  · exact h.frame
  · exact h.frame
  · exact .ite h.frame h
  · exact h.frame
  · exact deferWrite_steady h.frame
  · exact deferWrite_steady h.frame
  · exact h.frame
  · exact .ite h.frame h
  · exact writeThermEn_steady h
  · exact modThm_steady (modThm_steady h)
  · exact modThm_steady (modThm_steady h)
  · exact .foldl (fun _ _ h => modThm_steady h) h
  · exact h.frame
  · exact writeTlim_steady h
  · exact h.frame
  · exact h.frame
  · exact writeFgeom_steady h
  · exact writeFgeom_steady h
  · exact h.frame
  · exact h.frame
  · exact h.frame
  · exact h.frame
  · exact h.frame
  · exact h.frame
  · exact h.frame
  · exact h.frame
  · exact writeHsCfg_steady h
  · exact h.frame
  · exact h.frame
  · exact h.frame
  · exact h.frame
  · exact h.frame
  · exact h.frame
  · exact h.frame
  · exact h.frame
  · exact h.frame
  · exact .ite h.frame h
  · exact h.frame
  · exact h

theorem regWrite_steady {p : Port} {a value mask : Nat} (h : steady s₀ s) :
    steady s₀ (regWrite p a value mask s) :=
  regPut_steady h

/-! ### Replies -/

theorem faultRead_steady {p : Port} (h : steady s₀ s) : steady s₀ (faultRead p s).2 := settle_steady (modPort_steady h)

theorem tagRead_steady {p : Port} {t : Nat} (h : steady s₀ s) : steady s₀ (tagRead p t s).2 := by
  unfold tagRead
  split
  · exact h
  · split
    · exact h
    · split
      · exact settle_steady h.frame
      · exact h

theorem numberRecs_steady {p : Port} {rs : List QRec} (h : steady s₀ s) : steady s₀ (numberRecs p rs s) :=
  .foldl (fun _ _ h => .ite h (mapCtxs_steady (modPort_steady h) fun _ hc => by split <;> exact hc)) h

theorem evtRead_steady {p : Port} {count : Nat} (h : steady s₀ s) : steady s₀ (evtRead p count s).2 :=
  modPort_steady (numberRecs_steady h)

theorem ackRecs_steady {p : Port} {ok : Nat → Bool} (h : steady s₀ s) : steady s₀ (ackRecs p ok s) :=
  settle_steady (mapCtxs_steady (modPort_steady h) fun _ hc => by split <;> exact hc)

theorem clampRead_steady {clear : Bool} (h : steady s₀ s) : steady s₀ (clampRead clear s).2 := .ite h.frame h

theorem liveReply_steady {p : Port} {code : Nat} {pl : List Byte} (h : steady s₀ s) :
    steady s₀ (liveReply p code pl s).2 := by
  unfold liveReply
  extract_lets ok via
  split
  · exact h
  · exact h
  · exact h
  · exact faultRead_steady h
  · exact h
  · exact tagRead_steady h
  · exact h
  · exact h
  · exact h
  · exact evtRead_steady h
  · exact h
  · split
    next r t ht =>
    have hu := steady.ofSnd (journalRead_steady h) ht
    split
    · exact hu
    · exact h
  · exact h
  · exact h
  · exact h
  · exact clampRead_steady h
  · exact h
  · exact h
  · exact h
  · exact h
  · exact h
  · exact h
  · exact h
  · exact h
  · exact memRead_steady h
  · exact h
  · exact h
  · exact h
  · exact .ite h (otherRead_steady h)
  · exact regsRead_steady h
  · exact h

theorem closeTransfer_steady {p : Port} (h : steady s₀ s) : steady s₀ (closeTransfer p s) := by
  unfold closeTransfer
  split
  · exact h
  · exact modPort_steady h

theorem sendReply_steady {p : Port} (h : steady s₀ s) : steady s₀ (sendReply p s).2 := by
  unfold sendReply
  split
  · exact h
  · exact modPort_steady h
  · exact modPort_steady (liveReply_steady h)

/-! ### The host channel -/

/-- A command whose effect is steady. -/
def Cmd.keeps (c : Cmd) : Prop := ∀ {s₀ s : State} (p : Port) (pl : List Byte), steady s₀ s → steady s₀ (c.run p pl s).2

theorem setReply_steady {p : Port} {r : Reply} (h : steady s₀ s) : steady s₀ (setReply p r s) := modPort_steady h

theorem carry_steady {p : Port} {c : Cmd} {pl : List Byte} (hc : c.keeps) (h : steady s₀ s) : steady s₀ (carry p c pl s) :=
  .ite (setReply_steady (hc p pl (modPort_steady (modPort_steady h))))
    (setReply_steady (.ite (modPort_steady (modPort_steady h)) (modPort_steady h)))

theorem reject_steady {p : Port} {err : Nat} (h : steady s₀ s) : steady s₀ (reject p err s) :=
  setReply_steady (modPort_steady h)

theorem takeTag_steady {p : Port} {code : Nat} {ctx : Option Nat} (h : steady s₀ s) : steady s₀ (takeTag p code ctx s).2 :=
  h.frame

theorem tagged_steady {t : Nat} (h : steady s₀ s) : steady s₀ (tagged t s).2 := h

theorem hsEdge_steady {clocks : Nat} {mode3 : Bool} (h : steady s₀ s) : steady s₀ (hsEdge clocks mode3 s) := by
  unfold hsEdge
  exact .ite (by split <;> [exact h.frame; exact h]) (by split <;> [exact h.frame; exact h])

theorem hsReply_steady (h : steady s₀ s) : steady s₀ (hsReply s) :=
  modPort_steady (sendReply_steady (closeTransfer_steady h))

theorem hsBusy_steady {clocks : Nat} {mode3 : Bool} (h : steady s₀ s) : steady s₀ (hsBusy clocks mode3 s) :=
  .ite h (.ite (modPort_steady (hsEdge_steady h)) (modPort_steady (hsEdge_steady h)))

theorem hsTransact_steady {clocks : Nat} {mode3 : Bool} {inward : State → State}
    (hi : ∀ {t}, steady s₀ t → steady s₀ (inward t)) (h : steady s₀ s) : steady s₀ (hsTransact clocks mode3 inward s) :=
  .ite (hsBusy_steady h) (.ite (modPort_steady (hsEdge_steady h)) (hi (hsReply_steady (hsEdge_steady h))))

theorem hsReject_steady {code : Nat} {u : HostUnit} {f : Fate} (h : steady s₀ s) : steady s₀ (hsReject code u f s) := by
  unfold hsReject
  extract_lets
  split
  · exact reject_steady h.frame
  · exact reject_steady (.ite h.frame h.frame)

theorem hsPass_steady {code : Nat} {resync : Bool} {u : HostUnit} (h : steady s₀ s) : steady s₀ (hsPass code resync u s) :=
  .ite h.frame h.frame

theorem hsUnit_steady {code : Nat} {resync : Bool} {c : Cmd} {u : HostUnit} (hc : c.keeps) (h : steady s₀ s) :
    steady s₀ (hsUnit code resync c u s) := by
  unfold hsUnit
  split
  · exact h
  · exact h
  · exact carry_steady hc (hsPass_steady h)
  · exact hsReject_steady h

theorem twBegin_steady (h : steady s₀ s) : steady s₀ (twBegin s) :=
  .ite (closeTransfer_steady h) (closeTransfer_steady h)

theorem twReject_steady (h : steady s₀ s) : steady s₀ (twReject s) := reject_steady h.frame

theorem twUnit_steady {code : Nat} {c : Cmd} {u : HostUnit} (hc : c.keeps) (h : steady s₀ s) :
    steady s₀ (twUnit code c u s) := by
  unfold twUnit
  refine .ite h ?_
  dsimp only
  split
  · exact carry_steady hc (twBegin_steady h)
  · exact twReject_steady (twBegin_steady h)

theorem hostUnit_steady {code : Nat} {resync : Bool} {c : Cmd} {u : HostUnit} (hc : c.keeps) (h : steady s₀ s) :
    steady s₀ (hostUnit code resync c u s) := by
  unfold hostUnit
  split
  · exact twUnit_steady hc h
  · exact hsTransact_steady (hsUnit_steady hc) h

/-! ### Commands on contexts -/

theorem twStatus_steady (h : steady s₀ s) : steady s₀ (twStatus s) := .ite h (modPort_steady (twBegin_steady h))

theorem acceptSet_steady {f : FeatSet} (h : steady s₀ s) : steady s₀ (acceptSet f s) :=
  settle_steady (.ite (startClaim_steady (.ite (ledgerStart_steady h.frame) h.frame)) (.ite (ledgerStart_steady h.frame) h.frame))

theorem hsPresence_steady {p : Port} (h : steady s₀ s) : steady s₀ (hsPresence p s) := .ite h (.ite h.frame h.frame)

theorem dropTags_steady {p : Port} (h : steady s₀ s) : steady s₀ (dropTags p s) := h.frame

theorem faultClear_steady {p : Port} {mask att : Nat} (h : steady s₀ s) : steady s₀ (faultClear p mask att s) := by
  unfold faultClear
  extract_lets c freed _ s₁ s₂ _ s₃ s₄ s₅ s₆ s₇
  have h₂ : steady s₀ s₂ := clearSafecause_steady h.frame
  have h₃ : steady s₀ s₃ := .ite (.foldl (fun _ _ h => leaveRunning_steady h) h₂.frame) h₂
  have h₄ : steady s₀ s₄ := .ite (leaveSafe_steady h₃) h₃
  have h₅ : steady s₀ s₅ := .ite (.ite (clearLapse_steady h₄) (clearLapse_steady h₄)) h₄
  exact settle_steady (.foldl (fun _ _ h => latchFault_steady h) (modPort_steady h₅))

theorem openCtx_steady {p : Port} {caps : BitVec 16} {pl : List Byte} (h : steady s₀ s) : steady s₀ (openCtx p caps pl s) :=
  modCtx_steady h fun _ hc => by
    split
    · rfl
    · exact hc

theorem closeNow_steady {i : Nat} (h : steady s₀ s) : steady s₀ (closeNow i s) := closeCtx_steady h.frame

theorem applyContract_steady {pl : List Byte} (h : steady s₀ s) : steady s₀ (applyContract pl s) :=
  .ite h (notify_steady (modCtx_steady h))

theorem applyRegion_steady {pl : List Byte} (h : steady s₀ s) : steady s₀ (applyRegion pl s) :=
  .ite h (notify_steady (modCtx_steady h))

theorem applyStock_steady {pl : List Byte} (h : steady s₀ s) : steady s₀ (applyStock pl s) :=
  .ite h (modRun_steady (modCtx_steady h))

theorem applyStart_steady {pl : List Byte} (h : steady s₀ s) : steady s₀ (applyStart pl s) :=
  .ite h (modCtx_steady (.ite (modRun_steady (ctxReset_steady (modRun_steady h))) (modRun_steady h)))

theorem applyStop_steady {pl : List Byte} (h : steady s₀ s) : steady s₀ (applyStop pl s) :=
  .ite (leaveRunning_steady h) (.ite (modCtx_steady h) h)

/-! ### Commands on the device -/

theorem assignLater_steady {p : Port} {code : Nat} {pl : List Byte} {stock : Nat} {rec_ : List Byte} (h : steady s₀ s) :
    steady s₀ (assignLater p code pl stock rec_ s) :=
  deferCmd_steady (.ite h (assignProfile_steady h))

theorem powerForce_steady {f : Option ModeSel} (h : steady s₀ s) : steady s₀ (powerForce f s) := by
  unfold powerForce
  extract_lets
  split
  · exact .ite h.frame (.ite (.ite (takeMode_steady h.frame) h.frame) (choose_steady h.frame))
  · exact .ite h.frame (choose_steady h.frame)

theorem ledKeyWrite_steady {pl : List Byte} (h : steady s₀ s) : steady s₀ (ledKeyWrite pl s) :=
  ledRec_steady (startKeyWrite_steady h)

theorem startDiag_steady {p : Port} {code : Nat} {pl : List Byte} (h : steady s₀ s) :
    steady s₀ (startDiag p code pl s).2 :=
  tagged_steady h.frame

theorem applyDeferred_steady {d : Deferred} (h : steady s₀ s) : steady s₀ (applyDeferred d s) := by
  unfold applyDeferred
  split
  · exact openCtx_steady h
  · exact closeCtx_steady h
  · exact applyContract_steady h
  · exact applyRegion_steady h
  · exact applyStock_steady h
  · exact applyStart_steady h
  · exact applyStop_steady h
  · split
    · exact bindOne_steady h
    · exact h
  · exact h.frame
  · exact applySeed_steady h
  · exact applyRestore_steady h
  · exact h

/-! ### The span -/

theorem placeNow_steady {n a : Nat} {t : State} (h : steady s₀ s) (hp : placeNow n s = some (a, t)) : steady s₀ t := by
  unfold placeNow at hp
  split at hp
  · cases hp
    exact h
  · obtain ⟨b, -, hb⟩ := Option.map_eq_some_iff.1 hp
    cases hb
    exact relocate_steady h

theorem installImage_steady {pl : List Byte} (h : steady s₀ s) : steady s₀ (installImage pl s) := by
  unfold installImage
  dsimp only
  split
  · exact h
  · next hp => exact .ite h (modCtx_steady (code_steady (placeNow_steady h hp) Memory.wf_writeN))

theorem applyChange_steady {leader : Bool} {d : Deferred} (h : steady s₀ s) : steady s₀ (applyChange leader s d) := by
  unfold applyChange
  split
  · split
    · split
      · exact bindOne_steady h
      · exact h
    · exact installImage_steady h
  · exact assignProfile_steady h
  · exact assignProfile_steady h
  · exact h.frame
  · exact applyDeferred_steady h

theorem applyChanges_steady {leader : Bool} {cs : List Deferred} (h : steady s₀ s) : steady s₀ (applyChanges leader cs s) :=
  .foldl (fun _ _ h => applyChange_steady h) h

theorem sendConfig_steady {kind dst : Nat} {bs : List Byte} {off n : Nat} (h : steady s₀ s) :
    steady s₀ (sendConfig kind dst bs off n s) :=
  steady.foldl (fun _ _ h => sendPacket_steady h) h

theorem sendPull_steady (h : steady s₀ s) : steady s₀ (sendPull s) := sendPacket_steady h.frame

theorem darken_steady (h : steady s₀ s) : steady s₀ (darken s) := clearTracked_steady h

theorem becomeHeld_steady (h : steady s₀ s) : steady s₀ (becomeHeld s) := sendPull_steady (darken_steady h.frame)

theorem joinMembers_steady {mask : BitVec 16} (h : steady s₀ s) : steady s₀ (joinMembers mask s) := by
  unfold joinMembers
  exact steady.foldl (fun _ _ h => spanRec_steady (modMember_steady h)) h.frame

theorem dropMember_steady {p st : Nat} (h : steady s₀ s) : steady s₀ (dropMember p st s) := h.frame

theorem leaderCommit_steady {cs : List Deferred} (h : steady s₀ s) : steady s₀ (leaderCommit cs s) :=
  steady.foldl (fun _ _ h => completeTag_steady h) (applyChanges_steady h)

theorem takeCommit_steady {p : Proposal} (h : steady s₀ s) : steady s₀ (takeCommit p s) := by
  unfold takeCommit
  extract_lets cs u _ t
  have ht : steady s₀ t := (applyChanges_steady h : steady s₀ u).frame
  split
  · exact .ite (leaderCommit_steady h) (.ite ht (sendReady_steady (becomeHeld_steady ht)))
  · exact .ite (joinMembers_steady h) h
  · exact h

theorem adoptAtK_steady (h : steady s₀ s) : steady s₀ (adoptAtK s) := by
  unfold adoptAtK
  split
  · exact h
  · extract_lets _ s₁ s₂
    have h₂ : steady s₀ s₂ := completeOpt_steady (adoptBlob_steady h.frame)
    exact .ite (sendReady_steady h₂.frame) h.frame

theorem commitAtK_steady (h : steady s₀ s) : steady s₀ (commitAtK s) := by
  unfold commitAtK
  extract_lets
  split
  · exact .ite (adoptAtK_steady h) (takeCommit_steady (adoptAtK_steady h))
  · exact .ite (.ite (adoptAtK_steady h) (leaderCommit_steady (sendConfig_steady (adoptAtK_steady h)))) (adoptAtK_steady h)

/-! ### Frames -/

theorem timeOnly_steady {t : State} (ht : timeOnly s t) (h : steady s₀ s) : steady s₀ t := by
  obtain ⟨c, w, l, rfl⟩ := ht
  exact h.frame

theorem tickTo_steady {t : Nat} (h : steady s₀ s) : steady s₀ (tickTo t s) := timeOnly_steady (timeOnly_tickTo t s) h

theorem boundaryAt_steady {b f : Nat} (h : steady s₀ s) : steady s₀ { s with frame.bTb := b, frame.bFrac := f } := h.frame

theorem toBoundary_steady (h : steady s₀ s) : steady s₀ (toBoundary s) := by
  obtain ⟨b, f, hto⟩ := toBoundary_eq s
  rw [hto]
  exact boundaryAt_steady (tickTo_steady h)

theorem boundaryMode_steady (h : steady s₀ s) : steady s₀ (boundaryMode s) := by
  unfold boundaryMode
  extract_lets s₁
  have h₁ : steady s₀ s₁ := .ite (choose_steady h) h
  split
  · exact .ite h₁ (.ite (enterMode_steady h₁) (.ite h₁.frame (enterMode_steady h₁.frame)))
  · exact h₁

theorem beginFrame_steady (h : steady s₀ s) : steady s₀ (beginFrame s) :=
  .ite (resumeSettle_steady (setDomains_steady h.frame)) (setDomains_steady h.frame)

theorem scanNeed_steady (h : steady s₀ s) : steady s₀ (scanNeed s) := by
  have hd : steady s₀ (if s.fe.scanFb then dropReReq 2 0x50 { s with fe.scanAmp := none, fe.scanFb := false } else s) :=
    .ite (dropReReq_steady h.frame) h
  unfold scanNeed
  refine .ite (.ite hd (follow_steady hd)) (.ite h ?_)
  split
  · exact .ite h (follow_steady h)
  · exact follow_steady h

theorem settingsDone_steady (h : steady s₀ s) : steady s₀ (settingsDone s) := h.frame

theorem retune_steady {turn : Bool} (h : steady s₀ s) : steady s₀ (retune turn s) := by
  unfold retune
  exact .ite (convertTaps_steady h) h

theorem moveTone_steady (h : steady s₀ s) : steady s₀ (moveTone s).2 := by
  unfold moveTone
  extract_lets
  split
  · exact retune_steady h
  · exact hopRestart_steady (retune_steady h)

theorem newTone_steady (h : steady s₀ s) : steady s₀ (newTone s).2 := by
  unfold newTone
  dsimp only
  refine .iteSnd (moveTone_steady h.frame) ?_
  split
  · exact retune_steady h
  · exact .iteSnd (retune_steady h).frame (moveTone_steady h.frame)

theorem newColour_steady (h : steady s₀ s) : steady s₀ (newColour s) := by
  unfold newColour
  split
  · exact .ite h h.frame
  · exact h

theorem newAmplitude_steady {vhv : Nat} (h : steady s₀ s) : steady s₀ (newAmplitude vhv s) :=
  .ite (scaleAmp_steady h.frame) h.frame

theorem boundarySettings_steady {vhv : Nat} (h : steady s₀ s) : steady s₀ (boundarySettings vhv s) := by
  unfold boundarySettings
  extract_lets s₁
  split
  next hop s₂ hs₂ =>
  have h₂ := steady.ofSnd (newTone_steady (settingsDone_steady (newColour_steady h))) hs₂
  extract_lets s₃ s₄
  have h₃ : steady s₀ s₃ := decideLeave_steady (scanNeed_steady (rereqFrame_steady h₂))
  have h₄ : steady s₀ s₄ := newAmplitude_steady (restorePins_steady h₃)
  exact h₄.frame

theorem retryOpen_steady (h : steady s₀ s) : steady s₀ (retryOpen s) := h.frame

theorem retryClose_steady (h : steady s₀ s) : steady s₀ (retryClose s) :=
  .ite h (steady.foldl (fun _ _ h => .ite h.frame (restorePin_steady h)) h.frame)

theorem retryWait_steady (h : steady s₀ s) : steady s₀ (retryWait s) := h.frame

theorem censusPacket_steady (h : steady s₀ s) : steady s₀ (censusPacket s) := .ite (sendPacket_steady h) h

theorem senseFrame_steady {x : Sense} (h : steady s₀ s) : steady s₀ (senseFrame x s) := by
  unfold senseFrame
  extract_lets p s₁ s₂ charge s₃ s₄ s₅
  have h₁ : steady s₀ s₁ := slotMutual_steady (censusPacket_steady (slotListen_steady (retryOpen_steady h)))
  have h₃ : steady s₀ s₃ := applyGuards_steady (retryWait_steady (retryClose_steady h₁))
  have h₄ : steady s₀ s₄ := .ite (slotCharge_steady h₃) (noCharge_steady h₃)
  have h₅ : steady s₀ s₅ := .ite (gammaSample_steady h₄) h₄
  exact .ite h₅ (urgentMove_steady h₅)

/-- A frame from the state that its boundary leaves. -/
def frameFrom (x : Sense) (s : State) : State :=
  if !framesIn s.sel then s
  else
    let t := boundarySettings x.vhv (beginFrame s)
    let t := if t.dark then t else senseFrame x t
    if t.span.role == 2 then { t with spanx.beaconSent := false } else { t with spanx.beacon := none }

theorem frameBoundary_cases (x : Sense) (s : State) :
    frameBoundary x s = s ∨ frameBoundary x s = frameFrom x (boundaryMode (toBoundary s)) := by
  unfold frameBoundary
  generalize boundaryMode (toBoundary s) = u
  refine iteInduction (motive := (fun t => t = s ∨ t = frameFrom x u)) (fun _ => .inl rfl) fun _ => ?_
  exact iteInduction (motive := (fun t => t = s ∨ t = frameFrom x u)) (fun _ => .inl rfl) fun _ => .inr rfl

theorem frameFrom_steady {x : Sense} (h : steady s₀ s) : steady s₀ (frameFrom x s) := by
  unfold frameFrom
  extract_lets t u
  have ht : steady s₀ t := boundarySettings_steady (beginFrame_steady h)
  have hu : steady s₀ u := .ite ht (senseFrame_steady ht)
  exact .ite h (.ite hu.frame hu.frame)

theorem frameBoundary_steady {x : Sense} (h : steady s₀ s) : steady s₀ (frameBoundary x s) := by
  rcases frameBoundary_cases x s with hx | hx
  · rw [hx]
    exact h
  · rw [hx]
    exact frameFrom_steady (boundaryMode_steady (toBoundary_steady h))

theorem runDeferred_steady {ds : List Deferred} {held : List Nat} {kept : List Deferred} (h : steady s₀ s) :
    steady s₀ (runDeferred ds held kept s).2 := by
  induction ds generalizing held kept s with
  | nil => exact h
  | cons d ds ih => exact .iteSnd (ih h) (.iteSnd (ih h) (ih (applyDeferred_steady h)))

theorem effectsAtK_steady (h : steady s₀ s) : steady s₀ (effectsAtK s) := by
  unfold effectsAtK
  split
  next kept u hu =>
    have hu := steady.ofSnd (runDeferred_steady h) hu
    dsimp only
    split
    · exact hu.frame
    · exact hu.frame

theorem faultsAtK_steady (h : steady s₀ s) : steady s₀ (faultsAtK s) :=
  steady.foldl (fun _ _ h => .ite (unassign_steady (leaveRunning_steady h)) h) h.frame

theorem msgsAtK_steady (h : steady s₀ s) : steady s₀ (msgsAtK s) :=
  steady.foldl (fun _ ⟨_, _, _⟩ h => .ite (notify_steady h) h) h.frame

theorem mailAtK_steady (h : steady s₀ s) : steady s₀ (mailAtK s) := mapCtxs_steady h

theorem mergeCensus_steady (h : steady s₀ s) : steady s₀ (mergeCensus s) := h.frame

theorem leaderCensus_steady (h : steady s₀ s) : steady s₀ (leaderCensus s) :=
  .ite (urgentMove_steady (censusCount_steady (mergeCensus_steady h))) h.frame

theorem startComputation_steady (h : steady s₀ s) : steady s₀ (startComputation s) :=
  .ite (prePass_steady h.frame) (finishPass_steady (prePass_steady h.frame))

theorem computeFrom_steady (h : steady s₀ s) : steady s₀ (computeFrom s) := by
  unfold computeFrom
  extract_lets _ v
  have hv : steady s₀ v :=
    latchForce_steady (msgsAtK_steady (commitAtK_steady (mailAtK_steady (effectsAtK_steady (faultsAtK_steady h.frame)))))
  exact .ite h.frame (.ite hv (startComputation_steady (markClamps_steady hv)))

theorem sensed_steady (h : steady s₀ s) : steady s₀ { s with frame.sensed := false } := h.frame

theorem atCompute_steady (h : steady s₀ s) : steady s₀ (atCompute s) :=
  leaderCensus_steady (sensed_steady (tickTo_steady h))

theorem computationStart_steady (h : steady s₀ s) : steady s₀ (computationStart s) := by
  by_cases hs : s.framesRun = true ∧ s.frame.sensed = true
  · rw [computationStart_sensed s hs.1 hs.2]
    exact computeFrom_steady (atCompute_steady h)
  · rw [computationStart_idle s (by simpa [or_iff_not_imp_left] using hs)]
    exact h

theorem sendMsgs_steady (h : steady s₀ s) : steady s₀ (sendMsgs s) :=
  steady.foldl (fun _ ⟨_, _, _⟩ h => steady.foldl (fun _ _ h => sendPacket_steady h) h) h.frame

theorem relayRecords_steady (h : steady s₀ s) : steady s₀ (relayRecords s) := by
  unfold relayRecords
  extract_lets rs s₁ s₂
  have h₁ : steady s₀ s₁ := .foldl (fun _ _ h => sendPacket_steady h) h
  have h₂ : steady s₀ s₂ := sendPacket_steady h₁
  exact .ite h (.foldl (fun _ _ h => modCtx_steady h) h₂)

theorem wakeRaised_steady (h : steady s₀ s) : steady s₀ (wakeRaised s) := .ite (floorWake_steady h) h

theorem postPass_steady (h : steady s₀ s) : steady s₀ (postPass s) :=
  choose_steady (deliverRead_steady (policyRun_steady (compactStep_steady h)))

theorem publication_steady (h : steady s₀ s) : steady s₀ (publication s) := by
  unfold publication
  extract_lets s₁ s₂ s₃
  have h₁ : steady s₀ s₁ := runPass_steady h
  have h₃ : steady s₀ s₃ := publish_steady (wakeRaised_steady (relayRecords_steady (sendMsgs_steady h₁)))
  exact .ite h (.ite h₁ (postPass_steady h₃.frame))

theorem epochEnd_steady (h : steady s₀ s) : steady s₀ (epochEnd s) := by
  have h₁ : steady s₀ (epochMove (calEpochEnd s)) := epochMove_steady (calEpochEnd_steady h)
  exact .ite h h₁.frame

theorem sweepTarn_steady (h : steady s₀ s) : steady s₀ (sweepTarn s) := baselineStep_steady (pushLines_steady h)

theorem toSweep_steady (h : steady s₀ s) : steady s₀ (toSweep s) := timeOnly_steady (timeOnly_toSweep s) h

theorem sweepFrom_steady {charge : List (List Int)} {g : Ratios} (h : steady s₀ s) : steady s₀ (sweepFrom charge g s) := by
  have ht : steady s₀ (sweepSensed charge g s) := gammaSample_steady (slotCharge_steady (applyGuards_steady h.frame))
  unfold sweepFrom
  extract_lets t b _ u
  have hu : steady s₀ u := ht.frame
  exact .ite (captureCharge_steady hu) (approach_steady (approachStep_steady (sweepTarn_steady hu)))

theorem dozeSweep_steady {charge : List (List Int)} {g : Ratios} (h : steady s₀ s) : steady s₀ (dozeSweep charge g s) := by
  by_cases hs : s.aon.mode = .doze ∧ s.clk.spare = false
  · rw [dozeSweep_eq charge g s hs.1 hs.2]
    exact sweepFrom_steady (toSweep_steady h)
  · have hidle : dozeSweep charge g s = s := if_pos (by simpa [or_iff_not_imp_left] using hs)
    rw [hidle]
    exact h

theorem idleEffects_steady (h : steady s₀ s) : steady s₀ (idleEffects s) := by
  unfold idleEffects
  extract_lets due s₁ s₂ s₃
  have h₂ : steady s₀ s₂ := .foldl (fun _ _ h => applyForceCfg_steady h) (effectsAtK_steady h)
  have h₃ : steady s₀ s₃ := commitAtK_steady h₂
  exact .ite (choose_steady h₃) h₃

theorem hearthDecision_steady (h : steady s₀ s) : steady s₀ (hearthDecision s) :=
  .ite (decideLeave_steady h) (driveFollow_steady (idleEffects_steady (decideLeave_steady h.frame)))

/-! ### Reset and boot -/

theorem cutOtp_steady (h : steady s₀ s) : steady s₀ (cutOtp s) := by
  unfold cutOtp
  split
  · exact .ite h.frame (freeBytes_steady (fresh_steady h))
  · exact h

theorem wipe_steady (h : steady s₀ s) : steady s₀ (wipe s) :=
  h.memories rfl fun ⟨hflash, _, _⟩ => ⟨hflash, Memory.wf_nil, fun c hc => by
    obtain ⟨-, rfl⟩ := List.mem_replicate.1 hc
    rfl⟩

theorem wipeKept_steady (h : steady s₀ s) : steady s₀ (wipeKept s) := by
  have hw : steady s₀ (wipe (ledTouches s)) := wipe_steady (ledTouches_steady h)
  unfold wipeKept
  extract_lets s₁ t _
  exact hw.frame

theorem bootAccept_steady {f : FeatSet} (h : steady s₀ s) : steady s₀ (bootAccept f s) :=
  hsPresence_steady (acceptSet_steady h)

theorem bootSeed_steady (h : steady s₀ s) : steady s₀ (bootSeed s) := by
  unfold bootSeed
  split
  · exact h
  · exact .ite (applySeed_steady h) h

theorem bootStart_steady {xtal : Bool} {i : Nat} (h : steady s₀ s) : steady s₀ (bootStart xtal i s) :=
  .ite (applyStart_steady h) h.frame

theorem bootStock_steady {xtal : Bool} (h : steady s₀ s) : steady s₀ (bootStock xtal s) :=
  bootStart_steady (applyStock_steady (openCtx_steady (bootSeed_steady (bootAccept_steady h))))

theorem bootImage_steady {i off : Nat} {xip : Bool} (h : steady s₀ s) : steady s₀ (bootImage i off xip s).2 := by
  unfold bootImage
  dsimp only
  refine .iteSnd h ?_
  split
  · exact h
  · exact .iteSnd h (modCtx_steady (.ite h.frame (code_steady h Memory.wf_writeN)))

theorem entryFails_steady (h : steady s₀ s) : steady s₀ (entryFails s).2 := fresh_steady h

theorem bootEntry_steady {xtal : Bool} {e : List Byte} (h : steady s₀ s) : steady s₀ (bootEntry xtal e s).2 := by
  unfold bootEntry
  extract_lets i p _ s₁ s₂ _ s₃
  have h₂ : steady s₀ s₂ := applyContract_steady (openCtx_steady h)
  have h₃ : steady s₀ s₃ := applyStock_steady h₂
  refine .iteSnd (.iteSnd (entryFails_steady h₂) (.iteSnd (bootStart_steady h₃) (entryFails_steady h₃)))
    (.iteSnd (entryFails_steady h₂) ?_)
  split
  next r u hu =>
    have hu := steady.ofSnd (bootImage_steady h₂) hu
    exact .iteSnd hu (.iteSnd (bootStart_steady hu) (entryFails_steady hu))

theorem bootFlash_steady {xtal : Bool} {b : List Byte} (h : steady s₀ s) : steady s₀ (bootFlash xtal b s) := by
  unfold bootFlash
  extract_lets s₁ _ _ s₂ s₃ s₄ s₅ _ s₆
  have h₂ : steady s₀ s₂ := (bootAccept_steady h : steady s₀ s₁).frame
  have h₄ : steady s₀ s₄ := .foldl (fun _ _ h => modFan_steady h) (assignProfile_steady h₂)
  have h₅ : steady s₀ s₅ := .ite (bootSeed_steady h₄) h₄
  refine .foldl (fun t e h => ?_) (.ite h₅.frame h₅)
  have he := bootEntry_steady (xtal := xtal) (e := e) h
  split
  · next hu => exact steady.ofSnd he hu
  · next hu => exact .ite (steady.ofSnd he hu) (steady.ofSnd he hu).frame

theorem bootPath_steady {xtal : Bool} (h : steady s₀ s) : steady s₀ (bootPath xtal s) := by
  unfold bootPath
  split
  · exact h
  · exact choose_steady (bootStock_steady h.frame)
  · exact choose_steady (by
      split
      · exact bootFlash_steady h.frame
      · exact bootStock_steady (latchFault_steady h.frame))
  · exact enterMode_steady h.frame

theorem sampleStraps_steady {b : BootInput} (h : steady s₀ s) : steady s₀ (sampleStraps b s) := h.frame

theorem bootMemory_steady (h : steady s₀ s) : steady s₀ (bootMemory s) := by
  unfold bootMemory
  extract_lets s₁ recover s₂
  have h₁ : steady s₀ s₁ := memBoot_steady h
  have h₂ : steady s₀ s₂ := .ite (runRecoveries_steady h₁) h₁
  exact .ite (ledRecover_steady (spillRecover_steady h₂)) h₂

theorem setRdy_steady (h : steady s₀ s) : steady s₀ (setRdy s) :=
  .ite (latchFault_steady (cause_steady (cause_steady h.frame))) (cause_steady (cause_steady h.frame))

theorem resetRecord_steady {found : Rst} {vin : Nat} (h : steady s₀ s) : steady s₀ (resetRecord found vin s) :=
  record_steady h

theorem bootUp_steady {b : BootInput} (h : steady s₀ s) : steady s₀ (bootUp b s) := by
  unfold bootUp
  extract_lets s₁ s₂ found s₃ t _ s₄ s₅
  have h₁ : steady s₀ s₁ := sampleStraps_steady h
  have h₃ : steady s₀ s₃ := resetRecord_steady (bootMemory_steady (setRdy_steady h₁))
  have ht : steady s₀ t := toCrystal_steady h₃
  clear_value t
  have h₄ : steady s₀ s₄ := bootPath_steady (.ite ht.frame h₃)
  have h₅ : steady s₀ s₅ := .ite h₄ (xtalFailed_steady h₄)
  exact .ite h₁ (.ite (safeShdn_steady h₅) h₅)

theorem powerReset_steady {kind : Nat} {b : BootInput} (h : steady s₀ s) : steady s₀ (powerReset kind b s) := by
  unfold powerReset
  extract_lets s₁ _ s₂ _
  have h₁ : steady s₀ s₁ := wipe_steady (cutOtp_steady (cutProgram_steady h))
  have h₂ : steady s₀ s₂ := h₁.frame
  exact .ite h₂.frame (.ite h₂ (bootUp_steady h₂))

theorem heldReset_steady {kind : Nat} (h : steady s₀ s) : steady s₀ (heldReset kind s) := by
  unfold heldReset
  extract_lets s₁
  have h₁ : steady s₀ s₁ := wipeKept_steady (cutOtp_steady (cutProgram_steady h))
  exact h₁.frame

/-! ### Joining a span -/

theorem linkLock_steady (h : steady s₀ s) : steady s₀ (linkLock s) := .ite (.ite h.frame (startClaim_steady h.frame)) h

theorem loseRing_steady (h : steady s₀ s) : steady s₀ (loseRing s) :=
  .ite (becomeIsland_steady h) (.ite h (stopFrames_steady (clearRing_steady h)))

theorem ringBreak_steady (h : steady s₀ s) : steady s₀ (ringBreak s) := loseRing_steady (.ite h.frame h)

theorem healed_steady (h : steady s₀ s) : steady s₀ (healed s) := .ite (startClaim_steady (spanRec_steady h)) h

theorem spanAlone_steady (h : steady s₀ s) : steady s₀ (spanAlone s) :=
  .ite (choose_steady (clearRing_steady h)) h

theorem packetForward_steady {p : Packet} {crcOk : Bool} {rtt : Nat} (h : steady s₀ s) :
    steady s₀ (packetForward p crcOk rtt s) :=
  .ite h (.ite h.frame (.ite (.ite h.frame h.frame) h.frame))

theorem spanCrc_steady (h : steady s₀ s) : steady s₀ (spanCrc s) := .ite (spanRec_steady h.frame) h.frame

theorem claimSend_steady (h : steady s₀ s) : steady s₀ (claimSend s) := .ite (sendPacket_steady h) h

theorem putMember_steady {m : Member} (h : steady s₀ s) : steady s₀ (putMember m s) := h.frame

theorem classify_steady {m : Member} (h : steady s₀ s) : steady s₀ (classify m s) :=
  .ite (putMember_steady h.frame) (.ite (putMember_steady h.frame)
    (.ite (putMember_steady h.frame) (spanRec_steady (putMember_steady h.frame))))

theorem claim_steady {p : Packet} (h : steady s₀ s) : steady s₀ (claim p s) := by
  have hm := putMember_steady (m := claimOf p) h
  unfold claim
  refine .ite h (.ite (.ite h (.ite (stopFrames_steady (becomeExcluded_steady h)) h.frame)) (.ite ?_ (.ite ?_ h)))
  · exact .ite (classify_steady (spanRec_steady (dropMember_steady h))) (classify_steady h)
  · exact .ite hm.frame hm

theorem lead_steady (h : steady s₀ s) : steady s₀ (lead s) :=
  choose_steady (steady.foldl (fun _ _ h => classify_steady h) (spanRec_steady h.frame))

theorem elected_steady (h : steady s₀ s) : steady s₀ (elected s) := .ite (.ite h (lead_steady h)) h

theorem answerProposal_steady (h : steady s₀ s) : steady s₀ (answerProposal s).2 := by
  unfold answerProposal
  split
  · exact h
  · extract_lets
    split
    · exact h.frame
    · exact spanRec_steady h.frame

theorem propose_steady {n : Nat} (h : steady s₀ s) : steady s₀ (propose n s).2 := by
  unfold propose
  extract_lets
  split
  · split <;> exact h.frame
  · split
    · exact sendConfig_steady h
    · split
      · exact h.frame
      · exact h

theorem commitMode_steady {n : Nat} (h : steady s₀ s) : steady s₀ (commitMode n s) := by
  unfold commitMode
  split
  · exact .ite (.ite h.frame h.frame) h
  · exact h

theorem servePulls_steady (h : steady s₀ s) : steady s₀ (servePulls s) := by
  unfold servePulls
  exact steady.foldl (fun _ ⟨_, _⟩ h => sendConfig_steady h) h

theorem beaconSend_steady (h : steady s₀ s) : steady s₀ (beaconSend s) := by
  unfold beaconSend
  refine .ite h ?_
  extract_lets n s₁
  split
  next said s₂ hs₂ =>
  have h₂ := steady.ofSnd (answerProposal_steady (commitMode_steady h)) hs₂
  extract_lets free
  split
  next said' s₃ hs₃ =>
  have h₃ : steady s₀ s₃ := steady.ofSnd (.iteSnd (propose_steady h₂) h₂) hs₃
  extract_lets b bin _ s₄ s₅ s₆
  have h₆ : steady s₀ s₆ := servePulls_steady (sendPacket_steady h₃.frame)
  exact .ite h₆.frame h₆

theorem stepTime_steady {d : Int} (h : steady s₀ s) : steady s₀ (stepTime d s) := spanRec_steady h.frame

theorem followClock_steady {utc : Nat} (h : steady s₀ s) : steady s₀ (followClock utc s) := .ite (setClock_steady h) h

theorem followMode_steady {code rate : Nat} (h : steady s₀ s) : steady s₀ (followMode code rate s) :=
  .ite h.frame (.ite h.frame (.ite (.ite h.frame (senseOn_steady h.frame)) (.ite h.frame (enterMode_steady h.frame))))

theorem join_steady {p : Packet} {d : Int} (h : steady s₀ s) : steady s₀ (join p d s) := by
  unfold join
  extract_lets n same _ _ s₁ _ _ s₂ s₃
  have h₁ : steady s₀ s₁ := .ite h.frame h
  have h₂ : steady s₀ s₂ := h₁.frame
  have h₃ : steady s₀ s₃ := .ite (stepTime_steady h₂) h₂
  exact .ite h₃ (becomeHeld_steady h₃)

theorem followJoined_steady {b : List Byte} (h : steady s₀ s) : steady s₀ (followJoined b s) := by
  unfold followJoined
  extract_lets own _ s₁ _ s₂
  have h₁ : steady s₀ s₁ := h.frame
  have h₂ : steady s₀ s₂ := .ite h₁.frame h₁
  exact .ite h₁ (.ite h₂.frame (.ite (darken_steady h₂.frame) h₂))

theorem followProposal_steady {b : List Byte} (h : steady s₀ s) : steady s₀ (followProposal b s) := by
  unfold followProposal
  extract_lets
  split
  · exact .ite h.frame (.ite (sendReady_steady h.frame) (.ite (sendReady_steady h.frame) (sendReady_steady h.frame)))
  · exact .ite h.frame h
  · exact h.frame
  · exact h.frame

theorem beacon_steady {p : Packet} (h : steady s₀ s) : steady s₀ (beacon p s) := by
  unfold beacon
  extract_lets b place d missing same s₁ _ _ joining s₂ step place' d' us _ _ _ s₃
  have h₁ : steady s₀ s₁ := clearRing_steady h
  have h₂ : steady s₀ s₂ := .ite (join_steady h) h
  have h₃ : steady s₀ s₃ := h₂.frame
  refine .ite h (.ite h (.ite (stopFrames_steady (becomeExcluded_steady h)) (.ite (stopFrames_steady h₁.frame) ?_)))
  exact followProposal_steady (followMode_steady (followJoined_steady (followClock_steady h₃)))

theorem ready_steady {p : Packet} (h : steady s₀ s) : steady s₀ (ready p s) := by
  unfold ready
  split
  · exact h
  · extract_lets
    split
    · exact .ite (modMember_steady (spanRec_steady h.frame)) (modMember_steady h)
    · exact modMember_steady h
    · exact .ite (spanRec_steady h.frame) h
    · exact .ite h.frame h

theorem pull_steady {p : Packet} (h : steady s₀ s) : steady s₀ (pull p s) := .ite h h.frame

theorem pulledAll_steady {b : List Byte} (h : steady s₀ s) : steady s₀ (pulledAll b s) :=
  .ite h.frame (sendReady_steady (completeOpt_steady (spanRec_steady h)))

theorem config_steady {p : Packet} (h : steady s₀ s) : steady s₀ (config p s) := by
  unfold config
  extract_lets b kind off total data start got _ _ s₁ _ s₂ cs _
  have h₁ : steady s₀ s₁ := h.frame
  have h₂ : steady s₀ s₂ := h₁.frame
  refine .ite h (.ite h (.ite h₁ ?_))
  clear_value kind
  split
  · exact pulledAll_steady h₂
  · exact .ite h₂.frame h₂
  · exact .ite (applyChanges_steady h₂) h₂

theorem census_steady {p : Packet} (h : steady s₀ s) : steady s₀ (census p s) := .ite h.frame h

theorem relay_steady {p : Packet} (h : steady s₀ s) : steady s₀ (relay p s) :=
  .ite h (.ite (.ite h.frame h) (.ite h (putCtx_steady (.ite h.frame h))))

theorem msg_steady {p : Packet} (h : steady s₀ s) : steady s₀ (msg p s) := .ite h (.ite h.frame (.ite h.frame h))

/-! ### Commands -/

theorem cmdImgFromFlash_keeps : cmdImgFromFlash.keeps := by
  intro s₀ s p pl h
  have ht := takeTag_steady (p := p) (code := 0x23) (ctx := some (ctxIn pl)) h
  have hx : steady s₀ { (takeTag p 0x23 (some (ctxIn pl)) s).2 with mem.xipEn := true } := ht.frame
  exact (otherRead_steady (steady.ite (c := (byteAt pl 5 == 1) = true) hx ht)).frame

theorem cmdThermPolicy_keeps : cmdThermPolicy.keeps := by
  intro s₀ s p pl h
  unfold cmdThermPolicy
  dsimp only
  split
  · exact h
  · exact h.frame

theorem cmdSpanConfig_keeps : cmdSpanConfig.keeps := by
  intro s₀ s p pl h
  have ht := takeTag_steady (p := p) (code := 0x80) (ctx := none) h
  exact .iteSnd (deferCmd_steady ht) (completeTag_steady ht.frame)

theorem cmdSpanPull_keeps : cmdSpanPull.keeps := by
  intro s₀ s p pl h
  have ht := takeTag_steady (p := p) (code := 0x83) (ctx := none) h
  exact .iteSnd (completeTag_steady ht) (sendPull_steady ht.frame)

theorem cmdOf_keeps (code : Nat) : (cmdOf code).keeps := by
  unfold cmdOf
  split
  · exact fun _ _ h => h
  · exact fun _ _ h => h
  · exact fun _ _ h => h
  · exact fun _ _ h => h
  · exact fun _ _ h => faultClear_steady h
  · exact fun _ _ h => h
  · exact fun _ _ h => h.frame
  · exact fun _ _ h => .iteSnd (deferCmd_steady h) (openCtx_steady h)
  · exact fun _ _ h => .iteSnd (deferCmd_steady h) (closeNow_steady h)
  · exact fun _ _ h => deferCmd_steady h
  · exact fun _ _ h => deferCmd_steady h
  · exact fun _ _ h => deferCmd_steady h
  · exact fun _ _ h => deferCmd_steady h
  · exact fun _ _ h => deferCmd_steady h
  · exact fun _ _ h => h
  · exact fun _ _ h => modCtx_steady h
  · exact fun _ _ h => .ite (modCtx_steady h) (notify_steady (modCtx_steady h))
  · exact fun _ _ h => openSession_steady h
  · exact fun _ _ h => .iteSnd (.iteSnd (appendData_steady h) (appendData_steady h)) h
  · exact fun _ _ h => modSession_steady (takeTag_steady h)
  · exact cmdImgFromFlash_keeps
  · exact fun _ _ h => h
  · exact fun _ _ h => abortSession_steady h
  · exact fun _ _ h => h
  · exact fun _ _ h => startKeyWrite_steady (takeTag_steady h)
  · exact fun _ _ h => .ite (ackRecs_steady h) h
  · exact fun _ _ h => ackRecs_steady h
  · exact fun _ _ h => modPort_steady h
  · exact fun _ _ h => h
  · exact fun _ _ h => assignLater_steady h
  · exact fun _ _ h => h
  · exact fun _ _ h => assignLater_steady h
  · exact fun _ _ h => h
  · exact fun _ _ h => h
  · exact fun _ _ h => modBridge_steady h
  · exact fun _ _ h => h
  · exact fun _ _ h => h
  · exact fun _ _ h => deferCmd_steady h
  · exact fun _ _ h => deferCmd_steady h
  · exact fun _ _ h => h.frame
  · exact fun _ _ h => deferCmd_steady h
  · exact fun _ _ h => h
  · exact cmdThermPolicy_keeps
  · exact fun _ _ h => modFan_steady h
  · exact fun _ _ h => modFan_steady h
  · exact fun _ _ h => h
  · exact fun _ _ h => modBl_steady h
  · exact fun _ _ h => modBl_steady h
  · exact fun _ _ h => deferCmd_steady h.frame
  · exact fun _ _ h => h
  · exact fun _ _ h => powerForce_steady h
  · exact fun _ _ h => h
  · exact cmdSpanConfig_keeps
  · exact fun _ _ h => h
  · exact fun _ _ h => h
  · exact cmdSpanPull_keeps
  · exact fun _ _ h => memProfile_steady (takeTag_steady h)
  · exact fun _ _ h => memDiscover_steady h
  · exact fun _ _ h => h
  · exact fun _ _ h => memProgram_steady (takeTag_steady h)
  · exact fun _ _ h => memErase_steady (takeTag_steady h)
  · exact fun _ _ h => h
  · exact fun _ _ h => memXip_steady h
  · exact fun _ _ h => setClock_steady h
  · exact fun _ _ h => h
  · exact fun _ _ h => .ite (ledKeyWrite_steady h) (ledgerConfig_steady h)
  · exact fun _ _ h => h
  · exact fun _ _ h => h
  · exact fun _ _ h => startDiag_steady h
  · exact fun _ _ h => startDiag_steady h
  · exact fun _ _ h => startDiag_steady h
  · exact fun _ _ h => h
  · exact fun _ _ h => regWrite_steady h
  · exact fun _ _ h => bootUp_steady (heldReset_steady h)
  · exact fun _ _ h => h

theorem relayed_steady {p : Port} {code : Nat} {pl : List Byte} (h : steady s₀ s) : steady s₀ (relayed p code pl s).2 := by
  have hc := cmdOf_keeps code p pl h
  unfold relayed
  extract_lets c k v
  refine .iteSnd h ?_
  split
  · next hr => exact steady.ofSnd hc hr
  · next hr => exact steady.ofSnd hc hr
  · next hr => exact liveReply_steady (steady.ofSnd hc hr)

theorem cmdPacket_steady {p : Packet} (h : steady s₀ s) : steady s₀ (cmdPacket p s) := by
  unfold cmdPacket
  extract_lets b port _
  refine .ite h (.ite (.ite ?_ h) ?_)
  · split
    · next hr => exact steady.ofSnd (relayed_steady h) hr
    · next hr => exact sendPacket_steady (steady.ofSnd (relayed_steady h) hr)
  · split
    · exact completeTag_steady h.frame
    · exact h

/-! ### The stitch pass -/

theorem holdRest_steady (h : steady s₀ s) : steady s₀ (holdRest s) := steady.foldl (fun _ _ h => holdPeak_steady h) h

theorem stitchPass_steady (h : steady s₀ s) : steady s₀ (stitchPass s) :=
  .ite h (.ite (holdRest_steady h) (sendPacket_steady (holdRest_steady h)))

theorem stitch_steady {p : Packet} (h : steady s₀ s) : steady s₀ (stitch p s) := by
  unfold stitch
  extract_lets q x _ s₁ s₂
  have h₁ : steady s₀ s₁ := h.frame
  have h₂ : steady s₀ s₂ := modMember_steady h₁
  refine .ite h ?_
  split
  · exact h₁
  · exact .ite h₂ (spanRec_steady h₂)

theorem giveUp_steady {e : Entry} (h : steady s₀ s) : steady s₀ (giveUp e s) := h.frame

theorem takeContact_steady {e : Entry} {moved : Bool} (h : steady s₀ s) : steady s₀ (takeContact e moved s) := by
  unfold takeContact
  split
  · exact h.frame
  · exact .ite h.frame h.frame

theorem setMerged_steady {e : Entry} (h : steady s₀ s) : steady s₀ (setMerged e s) := h.frame

theorem applyEntry_steady {e : Entry} (h : steady s₀ s) : steady s₀ (applyEntry e s) := by
  unfold applyEntry
  split
  · exact setMerged_steady (.ite h (takeContact_steady h))
  · exact giveUp_steady h
  · exact takeContact_steady h
  · exact holdPeak_steady h
  · exact setMerged_steady (takeContact_steady h)
  · exact h

theorem noteEntry_steady {e : Entry} (h : steady s₀ s) : steady s₀ (noteEntry e s) := .ite h.frame h

theorem notePlaces_steady {es : List Entry} (h : steady s₀ s) : steady s₀ (notePlaces es s) := h.frame

theorem foreignPalms_steady {ps : List (List Byte)} (h : steady s₀ s) : steady s₀ (foreignPalms ps s) := h.frame

theorem decided_steady {present : BitVec 16} {faulted : BitVec 32} {ps : List (List Byte)} {es : List Entry}
    (h : steady s₀ s) : steady s₀ (decided present faulted ps es s) := by
  unfold decided
  extract_lets own _ s₁ s₂ s₃
  have h₂ : steady s₀ s₂ := .foldl (fun _ _ h => noteEntry_steady h) (foreignPalms_steady h.frame)
  have h₃ : steady s₀ s₃ :=
    .ite (placeContacts_steady (.foldl (fun _ _ h => applyEntry_steady h) h₂)) (holdCands_steady h₂)
  exact finishPass_steady (notePlaces_steady h₃)

theorem decideSend_steady (h : steady s₀ s) : steady s₀ (decideSend s) :=
  .ite h (decided_steady (sendPacket_steady h.frame))

theorem decideIn_steady {p : Packet} (h : steady s₀ s) : steady s₀ (decideIn p s) := .ite h (decided_steady h)

theorem stitchTimeout_steady (h : steady s₀ s) : steady s₀ (stitchTimeout s) :=
  .ite (finishPass_steady (holdCands_steady h)) h

theorem late_steady {pos : Nat} (h : steady s₀ s) : steady s₀ (late pos s) := .ite (spanRec_steady h.frame) h

/-! ### The two-wire port -/

theorem replyRead_steady {count us : Nat} (h : steady s₀ s) : steady s₀ (replyRead count us s) := by
  unfold replyRead
  extract_lets s₁ _ s₂ _ s₃
  have h₁ : steady s₀ s₁ := twBegin_steady h
  have h₂ : steady s₀ s₂ := h₁.frame
  have h₃ : steady s₀ s₃ := .ite h₂.frame h₂
  exact .ite h (.ite h₂ (modPort_steady (sendReply_steady h₃)))

theorem quickCommand_steady {_code0 : Bool} (h : steady s₀ s) : steady s₀ (quickCommand _code0 s) := .ite h.frame h

theorem alertResponseRead_steady {won : Bool} (h : steady s₀ s) : steady s₀ (alertResponseRead won s) :=
  .ite (modPort_steady h) h

theorem requestRead_steady {won : Bool} (h : steady s₀ s) : steady s₀ (requestRead won s) :=
  .ite h (.ite (modPort_steady h) h.frame)

theorem hostNotify_steady {e : NotifyEnd} (h : steady s₀ s) : steady s₀ (hostNotify e s) := by
  unfold hostNotify
  split
  · exact h
  · split
    · exact modPort_steady h
    · exact modPort_steady h
    · exact h.frame

theorem busTimeout_steady (h : steady s₀ s) : steady s₀ (busTimeout s) := h.frame

/-! ### The rows -/

theorem dropLines_steady {a n : Nat} (h : steady s₀ s) : steady s₀ { s with mem := dropLines a n s.mem } := h.frame

theorem execStatus_steady {u : HostUnit} (h : steady s₀ s) : steady s₀ (nextOf s (execStatus u s)) := by
  dsimp only [execStatus, nextOf]
  split
  · exact twStatus_steady h
  · exact hostUnit_steady (cmdOf_keeps 0x00) h

theorem execUnitRejected_steady {u : HostUnit} {code : Nat} {cut : Bool} (h : steady s₀ s) :
    steady s₀ (nextOf s (execUnitRejected u code cut s)) := by
  dsimp only [execUnitRejected, nextOf]
  split
  · exact .ite (twReject_steady (twBegin_steady h)) h
  · exact .ite h (hsTransact_steady hsReject_steady h)

theorem execKeyProgDone_steady {readBack : Bool} (h : steady s₀ s) : steady s₀ (nextOf s (execKeyProgDone readBack s)) := by
  dsimp only [execKeyProgDone, nextOf]
  split
  · exact h
  · exact .ite (completeOpt_steady h.frame)
      (.ite (completeOpt_steady (.ite h.frame h.frame)) (completeOpt_steady h.frame))

theorem execImgSessionAbort_steady {ctx : Nat} (h : steady s₀ s) : steady s₀ (nextOf s (execImgSessionAbort ctx s)) := by
  dsimp only [execImgSessionAbort, nextOf]
  split
  · exact .ite (abortSession_steady h) h
  · exact h

theorem execReadError_steady {addr : Nat} {again : Bool} (h : steady s₀ s) :
    steady s₀ (nextOf s (execReadError addr again s)) := by
  dsimp -zeta only [execReadError, nextOf]
  refine .ite h ?_
  extract_lets _ s₁ s₂ s₃ _ s₄
  have h₁ : steady s₀ s₁ := h.frame
  have h₂ : steady s₀ s₂ := h₁.frame
  have h₃ : steady s₀ s₃ := by
    unfold s₃
    split
    · exact .ite (nextOp_steady (xferEnds_steady h₂)) h₂
    · exact h₂
  exact .ite h₁ (failFetch_steady (failHeldRead_steady (failHeldRead_steady h₃.frame)))

theorem execLineFill_steady {addr : Nat} (h : steady s₀ s) : steady s₀ (nextOf s (execLineFill addr s)) := by
  dsimp only [execLineFill, nextOf]
  split
  · exact .ite h.frame h
  · exact h

theorem execDiagComplete_steady {timeout : Bool} {result : List Byte} (h : steady s₀ s) :
    steady s₀ (nextOf s (execDiagComplete timeout result s)) := by
  dsimp only [execDiagComplete, nextOf]
  split
  · exact h
  · exact .ite (completeTag_steady h.frame) (completeTag_steady h.frame)

theorem execFanRunRemeasure_steady {fan milliwatt : Nat} (h : steady s₀ s) :
    steady s₀ (nextOf s (execFanRunRemeasure fan milliwatt s)) := by
  have hm {f : Fan → Fan} : steady s₀ (s.modFan fan f) := modFan_steady h
  exact .ite (.ite (follow_steady (modFan_steady hm)) (.ite hm (follow_steady hm))) h

theorem execGpioWake_steady {levels : BitVec 16} (h : steady s₀ s) : steady s₀ (nextOf s (execGpioWake levels s)) := by
  dsimp only [execGpioWake, nextOf]
  exact .ite (.ite (latchEntry_steady h.frame) (.ite (serveFloor_steady h.frame) h.frame)) h.frame

theorem execPortLapse_steady {port : Port} (h : steady s₀ s) : steady s₀ (nextOf s (execPortLapse port s)) := by
  refine .ite (raise_steady ?_) h
  split
  · exact h.frame
  · exact h.frame

theorem execForceConversion_steady {bridge : Nat} {x : BridgeSample} (h : steady s₀ s) :
    steady s₀ (nextOf s (execForceConversion bridge x s)) := by
  have hb := bridgeDue_steady (n := bridge) h
  exact .ite h (.ite hb (modBridge_steady (.iteSnd (fresh_steady hb) hb)))

theorem execThermistorRound_steady {xs : ThermRatios} {die : Int} (h : steady s₀ s) :
    steady s₀ (nextOf s (execThermistorRound xs die s)) := by
  have ht := thermRound_steady (xs := xs) (die := die)
    (wrote_steady (of := fun k pl => k == 0x60 || regsFrom 0x4000 0x1000 k pl) h)
  exact .ite h (.ite ht (policyRun_steady ht))

theorem execFanLoopTick_steady {fan : Nat} {x : FanSample} (h : steady s₀ s) :
    steady s₀ (nextOf s (execFanLoopTick fan x s)) := by
  dsimp -zeta only [execFanLoopTick, nextOf]
  refine .ite h ?_
  extract_lets s₁ t s₂ f
  have h₂ : steady s₀ s₂ := modFan_steady (overrideEval_steady (fanApply_steady (wrote_steady h)))
  exact .ite (fanStop_steady h₂) (.ite (modFan_steady h₂) (.ite (fanAsk_steady h₂) h₂))

theorem execBridgeHot_steady {fan : Nat} {temp : Int} (h : steady s₀ s) : steady s₀ (nextOf s (execBridgeHot fan temp s)) := by
  dsimp -zeta only [execBridgeHot, nextOf]
  refine .ite h ?_
  extract_lets s₁ f s₂
  have h₁ : steady s₀ s₁ := modFan_steady h
  have h₂ : steady s₀ s₂ := fanRec_steady (modFan_steady h₁)
  exact .ite (.ite h₂ (fanFail_steady h₂)) (.ite (fanRec_steady (modFan_steady h₁)) h₁)

theorem execQueueGap_steady {queue : Nat} (h : steady s₀ s) : steady s₀ (nextOf s (execQueueGap queue s)) := by
  refine .ite (.ite (record_steady (modCtx_steady h)) h) ?_
  dsimp only
  split
  · exact .ite (record_steady (modPort_steady h)) h
  · exact h

theorem execReadTransferComplete_steady {bad : Bool} (h : steady s₀ s) :
    steady s₀ (nextOf s (execReadTransferComplete bad s)) := by
  dsimp only [execReadTransferComplete, nextOf]
  split
  · exact .ite h (nextOp_steady (xferEnds_steady h))
  · exact h

theorem execSpanRelayTimeout_steady (h : steady s₀ s) : steady s₀ (nextOf s (execSpanRelayTimeout s)) := by
  dsimp only [execSpanRelayTimeout, nextOf]
  split
  · exact completeTag_steady h.frame
  · exact h

theorem execProgramComplete_steady (h : steady s₀ s) : steady s₀ (nextOf s (execProgramComplete s)) := by
  dsimp only [execProgramComplete, nextOf]
  split
  · refine .ite ?_ h
    refine nextOp_steady (opDone_steady (opLeaves_steady ?_))
    exact dropLines_steady (programFlash_steady (.ite h.frame h))
  · exact h

theorem execEraseComplete_steady (h : steady s₀ s) : steady s₀ (nextOf s (execEraseComplete s)) := by
  dsimp only [execEraseComplete, nextOf]
  split
  · exact .ite (eraseEnds_steady h) h
  · exact h

theorem execFlashTimeout_steady (h : steady s₀ s) : steady s₀ (nextOf s (execFlashTimeout s)) := by
  dsimp only [execFlashTimeout, nextOf]
  split
  · next o _ =>
    refine .ite ?_ h
    have hl : steady s₀ (opLeaves o { cutProgram s with mem.timeouts := satAdd 65535 s.mem.timeouts 1 }) :=
      opLeaves_steady (cutProgram_steady h).frame
    split
    · exact timeoutEnds_steady (.ite (latchFault_steady hl.frame) hl)
    · exact nextOp_steady (timeoutEnds_steady (.ite (latchFault_steady hl.frame) hl))
  · exact h

theorem execOvercapRevoke_steady (h : steady s₀ s) : steady s₀ (nextOf s (execOvercapRevoke s)) := by
  refine .ite h (.ite h.frame ?_)
  split
  · exact revoke_steady h
  · exact h

theorem execVmotUv_steady (h : steady s₀ s) : steady s₀ (nextOf s (execVmotUv s)) := by
  refine .ite h (powerRec_steady (.foldl (fun t n h => ?_) h.frame))
  have hw : steady s₀ (dropReReq 1 (0x40 + n) (withdraw 0 (0x40 + n) (withdraw 1 (0x40 + n)
      (releaseGrant 0 (0x40 + n) (releaseGrant 1 (0x40 + n) t))))) :=
    dropReReq_steady (withdraw_steady (withdraw_steady (releaseGrant_steady (releaseGrant_steady h))))
  exact .ite (modFan_steady hw) hw

theorem execVmotUvEnd_steady (h : steady s₀ s) : steady s₀ (nextOf s (execVmotUvEnd s)) := by
  refine .ite h (.foldl (fun t n h => ?_) h.frame)
  extract_lets t₁ t₂
  have h₁ : steady s₀ t₁ := .ite (modFan_steady h) h
  have h₂ : steady s₀ t₂ := modFan_steady h₁
  exact .ite (.ite (request_steady h₂) h₂) h₁

theorem execHcsWake_steady (h : steady s₀ s) : steady s₀ (nextOf s (execHcsWake s)) := by
  dsimp -zeta only [execHcsWake, nextOf]
  extract_lets _ _ s₁ _ t _
  have h₁ : steady s₀ s₁ := coreWake_steady h.frame
  have ht : steady s₀ t := coreRuns_steady h
  exact .ite (.ite h₁.frame h) (.ite ht.frame (.ite (latchEntry_steady h) h))

theorem execHostServiceEnd_steady (h : steady s₀ s) : steady s₀ (nextOf s (execHostServiceEnd s)) := by
  have hc := choose_steady (why := 0) h
  exact .ite (.ite (coreSleep_steady hc.frame) hc) (.ite h.frame (.ite (choose_steady h.frame) h))

theorem execHibernateEntry_steady (h : steady s₀ s) : steady s₀ (nextOf s (execHibernateEntry s)) := by
  dsimp only [execHibernateEntry, nextOf]
  split
  · exact .ite (serveEntry_steady (enterMode_steady h).frame) h
  · exact h

theorem execShdnAssert_steady (h : steady s₀ s) : steady s₀ (nextOf s (execShdnAssert s)) := by
  exact .ite (safeShdn_steady (.ite (thermalRec_steady h.frame) (thermalRec_steady h.frame))) h

theorem execSpillChunk_steady (h : steady s₀ s) : steady s₀ (nextOf s (execSpillChunk s)) := by
  refine .ite h ?_
  split
  · exact h
  · exact .ite (spillChunk_steady h) h

theorem cmdFeatAccept_keeps : cmdFeatAccept.keeps := by
  intro s₀ s p pl h
  have hc {q : Port} {f : PortSt → PortSt} := cause_steady (p := q) (f := f) (hsPresence_steady (p := p) (acceptSet_steady (f := setIn pl) h))
  exact .iteSnd h (choose_steady hc.frame)

theorem cmdSessionOpen_keeps : cmdSessionOpen.keeps := by
  intro s₀ s p pl h
  dsimp -zeta only [cmdSessionOpen]
  extract_lets opened was fl s₁ s₂ _ s₃ s₄
  have h₁ : steady s₀ s₁ := modPort_steady h
  have h₂ : steady s₀ s₂ := .ite h₁ (settle_steady (dropTags_steady h₁))
  have h₃ : steady s₀ s₃ := .ite h₂.frame h₂
  exact .ite (cause_steady h₃) h₃

theorem cmdSpanRelay_keeps : cmdSpanRelay.keeps := by
  intro s₀ s p pl h
  have ht := takeTag_steady (p := p) (code := 0x84) (ctx := none) h
  exact sendPacket_steady ht.frame

theorem hostRow_steady {code : Nat} {c : Cmd} {u : HostUnit} (hc : c.keeps) (h : steady s₀ s) :
    steady s₀ (nextOf s (hostRow code c u s)) :=
  hostUnit_steady hc h

/-- The row of a command that has its code. -/
theorem commandRow_steady {code : Nat} {u : HostUnit} (h : steady s₀ s) :
    steady s₀ (nextOf s (hostRow code (cmdOf code) u s)) :=
  hostRow_steady (cmdOf_keeps code) h

/-- The row of an instruction of the engine. -/
theorem instrRow_steady {x : Instr} (hx : (encodeWord x).isSome = true) (h : steady s₀ s) :
    steady s₀ (nextOf s (exec x s)) := by
  rw [exec_eq_runInstr x s hx]
  exact runInstr_steady h

theorem exec_steady (c : Instr) (h : steady s₀ s) : steady s₀ (nextOf s (exec c s)) := by
  cases c with
  | ident _ | featRead _ | faultRead _ | faultClear _ | tagRead _ | ctxOpen _ | ctxClose _ | ctxContract _
  | ctxRegion _ | ctxStock _ | ctxStart _ | ctxStop _ | ctxState _ | ctxMailWrite _ | ctxMailRead _ | imgBegin _
  | imgData _ | imgEnd _ | imgFromFlash _ | imgList _ | imgAbort _ | imgKeyRead _ | imgKeyProg _ | evtRead _
  | evtAck _ | evtMask _ | journalRead _ | feProfile _ | feGet _ | feSet _ | imageRead _ | censusRead _ | forceCfg _
  | clampRead _ | calState _ | calFreeze _ | calSeed _ | calSnapshot _ | calRestore _ | thermRead _ | thermPolicy _
  | fanSet _ | fanSkip _ | fanState _ | blSet _ | blCurve _ | powerCap _ | powerState _ | powerForce _
  | powerGrants _ | spanConfig _ | spanState _ | spanMembers _ | spanPull _ | memProfile _ | memDiscover _
  | memRead _ | memProgram _ | memErase _ | memState _ | memXip _ | clockSet _ | clockRead _ | ledgerConfig _
  | ledgerState _ | ledgerRead _ | diagSelftest _ | diagPins _ | diagLoopback _ | regRead _ | regWrite _ | reset _
  | clkTimeloRead _ | powerPinRead _ | twStretchRead _ | wcSecloRead _ | frcCfgWrite _ | calTlimWrite _
  | calFgeomWrite _ | hnoffClear _ | hsCfgWrite _ | spillForceWrite _ | thermEnWrite _ | lapseClear _ => exact commandRow_steady h
  | featAccept _ => exact hostRow_steady cmdFeatAccept_keeps h
  | sessionOpen _ => exact hostRow_steady cmdSessionOpen_keeps h
  | spanRelay _ => exact hostRow_steady cmdSpanRelay_keeps h
  | add _ | sub _ | and _ | or _ | xor _ | shl _ | shr _ | sar _ | mul _ | mulh _ | mulhu _ | min _ | max _ | minu _
  | maxu _ | adc _ | sbc _ | abs _ | clz _ | popc _ | sat16 _ | andn _ | addi _ | andi _ | ori _ | xori _ | shli _
  | shri _ | sari _ | muli _ | cmpi _ | lui _ | mini _ | maxi _ | tsti _ | ldw _ | ldh _ | ldhu _ | ldb _ | ldbu _
  | jmp _ | loop _ | bz _ | bnz _ | csel _ | cnext _ | cget _ | cdist _ | cin _ | ccount _ | emit _ | mailp _
  | mailack _ | yield _ | time _ | bCond _ | callCond _ | pld _ | pred _ | pcnt _ | pcent _ | pcopy _ | stw _ | sth _
  | stb _ | sysLedger _ | sysFan _ | sysBacklight _ | sysProfile _ | sysFreeze _ | sysCalrd _ | leave _
  | leaveRelease _ | spanSend _ | spanReceive _ | memStart _ | memPoll _ | brk _ | reservedOpcode _ =>
    exact instrRow_steady rfl h
  | status _ => exact execStatus_steady h
  | aliveResync _ => exact hostUnit_steady (cmdOf_keeps 0x08) h
  | unassignedCode _ _ => exact .ite h (hostUnit_steady (c := unassigned) (fun _ _ h => h) h)
  | unitRejected _ _ _ => exact execUnitRejected_steady h
  | imgVerifyDone _ => exact verifyDone_steady h
  | keyProgDone _ => exact execKeyProgDone_steady h
  | imgSessionAbort _ => exact execImgSessionAbort_steady h
  | readError _ _ => exact execReadError_steady h
  | lineFill _ => exact execLineFill_steady h
  | diagComplete _ _ => exact execDiagComplete_steady h
  | frameBoundary _ => exact frameBoundary_steady h
  | txLineOff _ => exact .ite (latchFault_steady h.frame) h
  | channelClip _ => exact .ite (openPin_steady h.frame) h
  | keeperGate _ => exact .ite h.frame h
  | leaveRerequest _ _ => exact .ite (askAgain_steady h) h
  | fanStartToRun _ _ _ => exact .ite (follow_steady (modFan_steady h.frame)) h
  | fanRunRemeasure _ _ => exact execFanRunRemeasure_steady h
  | meterSample _ => exact h.frame
  | dip _ => exact .ite h (.ite h (.foldl (fun _ _ h => revoke_steady h) (latchFault_steady (powerRec_steady h.frame))))
  | dipEnd _ => exact .ite (.foldl (fun _ _ h => askAgain_steady h) (powerRec_steady h.frame)) h
  | safeVin _ => exact .ite (powerRec_steady (latchFault_steady (enterSafe_steady h.frame))) h
  | brownOut _ => exact .ite h (powerReset_steady h)
  | vhvFault _ => exact .ite (powerRec_steady (latchFault_steady (enterSafe_steady (senseOff_steady h.frame)))) h
  | safeWatchdogReset _ => exact .ite (bootUp_steady (heldReset_steady h)) h
  | addressMatch _ =>
    exact .ite h (.ite (.ite (coreWake_steady h.frame) h)
      (.ite (coreRuns_steady h).frame (.ite (latchEntry_steady h.frame) h)))
  | wakeStretchEnd _ => exact .ite h.frame h
  | gpioWake _ => exact execGpioWake_steady h
  | dozeSweep _ _ => exact dozeSweep_steady h
  | alertReassert _ => exact .ite (raise_steady h) h
  | portLapse _ => exact execPortLapse_steady h
  | clockMonitorWindow _ => exact .ite h (.ite h.frame h.frame)
  | xtalFail _ => exact .ite h (.ite (xtalFailed_steady h) h)
  | forceConversion _ _ => exact execForceConversion_steady h
  | excFault _ => exact .ite (excFault_steady h) h
  | excRestored _ => exact .ite (excRestored_steady h) h
  | bridgeSaturated _ => exact .ite (bridgeSaturated_steady h) h
  | thermistorRound _ _ => exact execThermistorRound_steady h
  | sensorOk _ => exact .ite (sensorOk_steady h) h
  | shdnComparison _ _ _ => exact .ite h h.frame
  | clamp _ => exact .ite (.ite (clampRec_steady h.frame) h.frame) h
  | pinOpen _ => exact .ite (openPin_steady h) h
  | pinRestored _ => exact .ite (.ite h.frame (restorePin_steady h)) h
  | fanLoopTick _ _ => exact execFanLoopTick_steady h
  | fanAlignEnd _ => exact .ite (modFan_steady h) h
  | fanTachAbsent _ => exact .ite (fanFail_steady (modFan_steady h)) h
  | fanStall _ => exact .ite (fanFail_steady h) h
  | fanRetry _ => exact .ite (fanAsk_steady (modFan_steady h)) h
  | fanRecovered _ => exact .ite (overrideEval_steady (fanRec_steady (modFan_steady h))) h
  | bridgeHot _ _ => exact execBridgeHot_steady h
  | bridgeShort _ => exact .ite (fanFail_steady (fanRec_steady h)) h
  | replyRead _ _ => exact replyRead_steady h
  | quickCommand _ => exact .ite h.frame h
  | alertResponseRead _ => exact alertResponseRead_steady h
  | requestRead _ => exact requestRead_steady h
  | hostNotify _ => exact hostNotify_steady h
  | idleTransaction _ => exact hsTransact_steady id h
  | repeatFrame _ _ => exact .ite (hsTransact_steady id h) h
  | busyTransaction _ => exact hsBusy_steady h
  | packetForward _ _ _ => exact packetForward_steady h
  | claim _ => exact claim_steady h
  | beacon _ => exact beacon_steady h
  | census _ => exact census_steady h
  | stitch _ => exact stitch_steady h
  | decide _ => exact decideIn_steady h
  | ready _ => exact ready_steady h
  | pull _ => exact pull_steady h
  | config _ => exact config_steady h
  | relay _ => exact relay_steady h
  | msg _ => exact msg_steady h
  | cmd _ => exact cmdPacket_steady h
  | late _ => exact late_steady h
  | queueGap _ => exact execQueueGap_steady h
  | powerOnReset _ => exact .ite h (powerReset_steady h)
  | pinReset _ _ =>
    exact .ite (.ite h (.ite h.frame (heldReset_steady (kind := 3) h).frame))
      (.ite h (.ite h.frame (bootUp_steady h.frame)))
  | watchdogReset _ => exact .ite (bootUp_steady (heldReset_steady h)) h
  | fgPulse _ _ _ => exact .ite (modFan_steady h) h
  | vaonOutOfRange _ => exact powerReset_steady h
  | readTransferComplete _ => exact execReadTransferComplete_steady h
  | spanRelayTimeout => exact execSpanRelayTimeout_steady h
  | flashResume => exact h.frame
  | programComplete => exact execProgramComplete_steady h
  | eraseComplete => exact execEraseComplete_steady h
  | flashTimeout => exact execFlashTimeout_steady h
  | bootScan => exact .ite (scanIntents_steady h) h
  | urgentMove => exact urgentMove_steady h
  | computationStart => exact computationStart_steady h
  | slipWatchdog => exact .ite (safeWdog_steady h.frame) h
  | wetEnter => exact wetEnter_steady h
  | wetLeave => exact wetLeave_steady h
  | swamped => exact swampEnter_steady h
  | swampEnd => exact swampLeave_steady h
  | shadowExpire => exact shadowExpire_steady h
  | confirmByCount => exact confirmCands_steady h
  | contactEnd => exact contactEnd_steady h
  | approach => exact approach_steady h
  | noiseUnitUpdate => exact nuUpdate_steady h
  | baselineStep => exact baselineStep_steady h
  | stitchPass => exact stitchPass_steady h
  | stitchTimeout => exact stitchTimeout_steady h
  | publication => exact publication_steady h
  | modeChoice => exact choose_steady h
  | compactionStep => exact .ite h (compactStep_steady h)
  | epochEnd => exact epochEnd_steady h
  | calRailReport => exact railReport_steady h
  | keeperTrim => exact .ite (trimStep_steady h.frame) h
  | hearthDecision => exact hearthDecision_steady h
  | requestRefusal => exact refusals_steady h
  | boostStartDone => exact .ite (releaseGrant_steady h.frame) h
  | overcap => exact .ite (powerRec_steady h.frame) h
  | overcapRevoke => exact execOvercapRevoke_steady h
  | vmotUv => exact execVmotUv_steady h
  | vmotUvEnd => exact execVmotUvEnd_steady h
  | safeExit => exact leaveSafe_steady h
  | hcsWake => exact execHcsWake_steady h
  | houseRun => exact .ite (coreWake_steady h.frame) (.ite (latchEntry_steady h) h)
  | wakeFloorEnd => exact .ite h.frame h
  | hostServiceEnd => exact execHostServiceEnd_steady h
  | hibernateEntry => exact execHibernateEntry_steady h
  | xtalRestart => exact .ite h.frame h
  | xtalfailClear => exact .ite (toCrystal_steady h.frame) h
  | xtalStartFail => exact .ite h (xtalFailed_steady h)
  | crystalLock => exact .ite (.ite (toCrystal_steady h) (coreRuns_steady h)) h
  | shdnAssert => exact execShdnAssert_steady h
  | shdnRelease => exact .ite (thermalRec_steady h.frame) h
  | inBandRequest => exact .ite h.frame h
  | ibrUnanswered => exact .ite h.frame h
  | hostNotifySuspend => exact .ite h.frame h
  | sclTimeout => exact .ite (busTimeout_steady h).frame h
  | sdaTimeout => exact .ite (busTimeout_steady h).frame h
  | linkLock => exact linkLock_steady h
  | ringBreak => exact ringBreak_steady h
  | healed => exact healed_steady h
  | spanAlone => exact spanAlone_steady h
  | claimSend => exact claimSend_steady h
  | elected => exact elected_steady h
  | beaconSend => exact beaconSend_steady h
  | decideSend => exact decideSend_steady h
  | admissionRetry => exact .ite (startClaim_steady h) h
  | spanCrc => exact spanCrc_steady h
  | spillChunk => exact execSpillChunk_steady h
  | ledgerSecond => exact .ite h (ledTouches_steady h).frame
  | periodClose => exact closeDue_steady h
  | checkpoint => exact .ite (checkpoint_steady (closeDue_steady h)) h
  | vhvcntAgeOut => exact h.frame

theorem step_of_pending {c : Instr} {cs : List Instr} (h : s.pending = c :: cs) :
    step s = exec c { s with pending := cs } := by
  unfold step
  rw [h]

/-- The memories stay canonical: idle time and the row of each command are steady. -/
theorem step_memories {t : State} (hs : memoriesOk s) (h : step s = .next t) : memoriesOk t := by
  cases hq : s.pending with
  | nil =>
    rw [step_nil hq] at h
    cases h
    exact (idle_steady (steady.refl s)).2 hs
  | cons c cs =>
    rw [step_of_pending hq] at h
    have ht := exec_steady c (steady.refl { s with pending := cs })
    rw [h] at ht
    exact ht.2 hs

/-- Settles O59: the memories that a state has are canonical after each operation of the model, and so after each command
and all time that passes. -/
theorem memoriesStayCanonical : Obligations.MemoriesStayCanonical := fun _ _ => step_memories

end Sys2Proof.Machine

/-! The words of Dyrel: what the encoder makes the decoder takes apart, and the other way round (R239-R242). -/

namespace Sys2Proof

/-! ### Fields of any word -/

/-- Bit `k` of a field is the bit of the word that stands there. -/
theorem getLsbD_field {w : Word} {lo len k j : Nat} (hk : k < len) (hj : lo + k = j) :
    (w.extractLsb' lo len).getLsbD k = w.getLsbD j := by
  simp [hk, hj]

theorem opField_toNat (w : Word) : (opField w).toNat = w.toNat / 2 ^ 26 := by
  simp only [opField, BitVec.extractLsb'_toNat, Nat.shiftRight_eq_div_pow]
  exact Nat.mod_eq_of_lt (by omega)

theorem lowField_toNat (w : Word) (n : Nat) : (w.extractLsb' 0 n).toNat = w.toNat % 2 ^ n := by simp

/-! ### The form of a word, encoded again -/

section
variable {w : Word} {op : BitVec 6}

/-- The bits of the major opcode are the top bits of the word. -/
theorem getLsbD_op (h : (opField w).toNat = op.toNat) {k j : Nat} (hk : k < 6) (hj : 26 + k = j) : op.getLsbD k = w.getLsbD j := by
  rw [← BitVec.eq_of_toNat_eq h]
  exact getLsbD_field hk hj

theorem wordA_formA (h : (opField w).toNat = op.toNat) : wordA op (formA w) = w := by
  refine BitVec.eq_of_getLsbD_eq fun j hj => ?_
  rw [bits_wordA]
  split_ifs
  · exact getLsbD_field (by omega) (by omega)
  · exact getLsbD_field (by omega) (by omega)
  · exact getLsbD_field (by omega) (by omega)
  · exact getLsbD_field (by omega) (by omega)
  · exact getLsbD_op h (by omega) (by omega)

theorem wordI'_formI (h : (opField w).toNat = op.toNat) : wordI' op (formI w) = w := by
  refine BitVec.eq_of_getLsbD_eq fun j hj => ?_
  rw [bits_wordI']
  split_ifs
  · exact getLsbD_field (by omega) (by omega)
  · exact getLsbD_field (by omega) (by omega)
  · exact getLsbD_field (by omega) (by omega)
  · exact getLsbD_op h (by omega) (by omega)

theorem wordB_formB (h : (opField w).toNat = op.toNat) : wordB op (formB w) = w := by
  refine BitVec.eq_of_getLsbD_eq fun j hj => ?_
  rw [bits_wordB]
  split_ifs
  · exact getLsbD_field (by omega) (by omega)
  · exact getLsbD_field (by omega) (by omega)
  · exact getLsbD_op h (by omega) (by omega)

theorem wordP_formP (h : (opField w).toNat = op.toNat) : wordP op (formP w) = w := by
  refine BitVec.eq_of_getLsbD_eq fun j hj => ?_
  rw [bits_wordP]
  split_ifs
  · exact getLsbD_field (by omega) (by omega)
  · exact getLsbD_field (by omega) (by omega)
  · exact getLsbD_field (by omega) (by omega)
  · exact getLsbD_field (by omega) (by omega)
  · exact getLsbD_op h (by omega) (by omega)

theorem wordR_formR {fn : BitVec 5} (h : (opField w).toNat = (0#6).toNat) (hf : (w.extractLsb' 0 5).toNat = fn.toNat) :
    wordR fn (formR w) = w := by
  refine BitVec.eq_of_getLsbD_eq fun j hj => ?_
  rw [bits_wordR]
  split_ifs with h1 _ h3
  · rw [← BitVec.eq_of_toNat_eq hf]
    exact getLsbD_field (by omega) (by omega)
  · exact getLsbD_field (by omega) (by omega)
  · obtain rfl : j = 13 := by omega
    simp [formR]
  · exact getLsbD_field (by omega) (by omega)
  · exact getLsbD_field (by omega) (by omega)
  · exact getLsbD_field (by omega) (by omega)
  · exact getLsbD_op h (by omega) (by omega)

theorem wordT_formT {k : BitVec 2} (h : (opField w).toNat = (0x15#6).toNat) (hk : (w.extractLsb' 12 2).toNat = k.toNat) :
    wordT k (formT w) = w := by
  refine BitVec.eq_of_getLsbD_eq fun j hj => ?_
  rw [bits_wordT]
  split_ifs
  · exact getLsbD_field (by omega) (by omega)
  · rw [← BitVec.eq_of_toNat_eq hk]
    exact getLsbD_field (by omega) (by omega)
  · exact getLsbD_field (by omega) (by omega)
  · exact getLsbD_field (by omega) (by omega)
  · exact getLsbD_field (by omega) (by omega)
  · exact getLsbD_op h (by omega) (by omega)

theorem wordL_formL {k : BitVec 1} (h : (opField w).toNat = op.toNat) (hk : w.getLsbD 5 = k.getLsbD 0) :
    wordL op k (formL w) = w := by
  refine BitVec.eq_of_getLsbD_eq fun j hj => ?_
  rw [bits_wordL]
  split_ifs
  · exact getLsbD_field (by omega) (by omega)
  · obtain rfl : j = 5 := by omega
    exact hk.symm
  · exact getLsbD_field (by omega) (by omega)
  · exact getLsbD_field (by omega) (by omega)
  · exact getLsbD_field (by omega) (by omega)
  · exact getLsbD_field (by omega) (by omega)
  · exact getLsbD_op h (by omega) (by omega)

theorem wordS_formS {k : BitVec 4} (h : (opField w).toNat = (0x3C#6).toNat) (hk : (w.extractLsb' 0 4).toNat = k.toNat) :
    wordS k (formS w) = w := by
  refine BitVec.eq_of_getLsbD_eq fun j hj => ?_
  rw [bits_wordS]
  split_ifs
  · rw [← BitVec.eq_of_toNat_eq hk]
    exact getLsbD_field (by omega) (by omega)
  · exact getLsbD_field (by omega) (by omega)
  · exact getLsbD_field (by omega) (by omega)
  · exact getLsbD_field (by omega) (by omega)
  · exact getLsbD_field (by omega) (by omega)
  · exact getLsbD_op h (by omega) (by omega)

theorem wordM_formM {k : BitVec 1} (h : (opField w).toNat = (0x3D#6).toNat) (hk : w.getLsbD 0 = k.getLsbD 0) :
    wordM k (formM w) = w := by
  refine BitVec.eq_of_getLsbD_eq fun j hj => ?_
  rw [bits_wordM]
  split_ifs
  · obtain rfl : j = 0 := by omega
    exact hk.symm
  · exact getLsbD_field (by omega) (by omega)
  · exact getLsbD_field (by omega) (by omega)
  · exact getLsbD_field (by omega) (by omega)
  · exact getLsbD_field (by omega) (by omega)
  · exact getLsbD_op h (by omega) (by omega)

theorem word_brk (h : (opField w).toNat = (0x3E#6).toNat) : (0x3E#6 ++ w.extractLsb' 0 26 : Word) = w := by
  refine BitVec.eq_of_getLsbD_eq fun j hj => ?_
  rw [bits_brk]
  split_ifs
  · exact getLsbD_field (by omega) (by omega)
  · exact getLsbD_op h (by omega) (by omega)

end

/-! ### Reserved words -/

/-- The major opcodes that are reserved, and 0x3F (R242, R267). -/
theorem decodeWord_reserved {w : Word} (h : w.toNat / 2 ^ 26 ∈ [0x3F, 0x0F, 0x1C, 0x1D, 0x1E, 0x1F, 0x25, 0x26, 0x27, 0x28, 0x29,
    0x2A, 0x2B, 0x31, 0x32, 0x33, 0x37]) : decodeWord w = .reservedOpcode w := by
  rw [← opField_toNat] at h
  unfold decodeWord
  split
  case h_48 => rfl
  all_goals
    next hop =>
      rw [hop] at h
      exact absurd h (by decide)

/-- The reserved operations of the register ALU (R247). -/
theorem decodeWord_reservedAlu {w : Word} (hop : w.toNat / 2 ^ 26 = 0) (hfn : 22 ≤ w.toNat % 32) :
    decodeWord w = .reservedOpcode w := by
  rw [← opField_toNat] at hop
  have hdec : decodeWord w = decodeAlu w := by simp [decodeWord, hop]
  rw [hdec]
  unfold decodeAlu
  rw [lowField_toNat]
  split
  case h_23 => rfl
  all_goals omega

/-! ### Encoding what a word decodes to -/

theorem encodeWord_decodeAlu {w : Word} (h : (opField w).toNat = 0) : encodeWord (decodeAlu w) = some w := by
  unfold decodeAlu
  split
  case h_23 => rfl
  all_goals
    next hf => exact congrArg some (wordR_formR h hf)

theorem encodeWord_decodeStore {w : Word} (h : (opField w).toNat = 21) : encodeWord (decodeStore w) = some w := by
  unfold decodeStore
  split
  case h_4 => rfl
  all_goals
    next hk => exact congrArg some (wordT_formT h hk)

theorem encodeWord_decodeSys {w : Word} (h : (opField w).toNat = 60) : encodeWord (decodeSys w) = some w := by
  unfold decodeSys
  split
  case h_7 => rfl
  all_goals
    next hk => exact congrArg some (wordS_formS h hk)

/-- Settles O4: each branch of the decoder yields the form of the word, and the form encodes to the word. -/
theorem encodeOfDecode : Obligations.EncodeOfDecode := by
  intro w
  unfold decodeWord
  split
  case h_1 h => exact encodeWord_decodeAlu h
  case h_21 h => exact encodeWord_decodeStore h
  case h_45 h => exact encodeWord_decodeSys h
  case h_15 h | h_33 h | h_34 h | h_35 h | h_36 h | h_37 h | h_38 h | h_39 h | h_40 h | h_42 h | h_43 h =>
    exact congrArg some (wordA_formA h)
  case h_22 h | h_23 h => exact congrArg some (wordB_formB h)
  case h_28 h | h_29 h | h_30 h | h_31 h | h_32 h => exact congrArg some (wordP_formP h)
  case h_41 h | h_44 h =>
    split
    next hk => exact congrArg some (wordL_formL (k := 1#1) h hk)
    next hk => exact congrArg some (wordL_formL (k := 0#1) h (by simpa using hk))
  case h_46 h =>
    split
    next hk => exact congrArg some (wordM_formM (k := 1#1) h hk)
    next hk => exact congrArg some (wordM_formM (k := 0#1) h (by simpa using hk))
  case h_47 h => exact congrArg some (word_brk h)
  case h_48 => rfl
  all_goals
    next h => exact congrArg some (wordI'_formI h)

/-! ### Decoding what an instruction encodes to -/

theorem decodeWord_wordR (fn : BitVec 5) (o : OpR) : decodeWord (wordR fn o) = decodeAlu (wordR fn o) := by
  simp [decodeWord]

theorem decodeWord_wordT (k : BitVec 2) (o : OpT) : decodeWord (wordT k o) = decodeStore (wordT k o) := by
  simp [decodeWord]

theorem decodeWord_wordS (k : BitVec 4) (o : OpS) : decodeWord (wordS k o) = decodeSys (wordS k o) := by
  simp [decodeWord]

/-- The four instructions that a bit of their word tells apart. -/
theorem decodeWord_wordL (o : OpL) :
    decodeWord (wordL 0x38#6 0#1 o) = .leave o ∧ decodeWord (wordL 0x38#6 1#1 o) = .leaveRelease o ∧
    decodeWord (wordL 0x3B#6 0#1 o) = .spanSend o ∧ decodeWord (wordL 0x3B#6 1#1 o) = .spanReceive o := by
  simp [decodeWord, -BitVec.getLsbD_eq_getElem, releaseBit_wordL]

theorem decodeWord_wordM (o : OpM) :
    decodeWord (wordM 0#1 o) = .memStart o ∧ decodeWord (wordM 1#1 o) = .memPoll o := by
  simp [decodeWord, -BitVec.getLsbD_eq_getElem, pollBit_wordM]

/-- Settles O3: the fields of the word that a form encodes to are the form's, and a reserved word is well formed where it
decodes to itself. -/
theorem decodeOfEncode : Obligations.DecodeOfEncode := by
  intro x w hwf henc
  cases x with
  | reservedOpcode v =>
    cases henc
    simpa [Instr.wf, reservedWord] using hwf
  | leave o | leaveRelease o | spanSend o | spanReceive o =>
    cases henc
    simp [decodeWord_wordL]
  | memStart o | memPoll o =>
    cases henc
    simp [decodeWord_wordM]
  | stw o | sth o | stb o =>
    cases henc
    simp [decodeWord_wordT, decodeStore]
  | sysLedger o | sysFan o | sysBacklight o | sysProfile o | sysFreeze o | sysCalrd o =>
    cases henc
    simp [decodeWord_wordS, decodeSys]
  | add o | sub o | and o | or o | xor o | shl o | shr o | sar o | mul o | mulh o | mulhu o | min o | max o | minu o | maxu o
  | adc o | sbc o | abs o | clz o | popc o | sat16 o | andn o =>
    cases henc
    simp [decodeWord_wordR, decodeAlu]
  | _ => cases henc <;> simp [decodeWord]

/-- Settles O5: each word is taken apart by the decoder's definition. -/
theorem decodedWords : Obligations.DecodedWords := by
  unfold Obligations.DecodedWords
  decide

end Sys2Proof

/-! What an instruction of Dyrel does where it passes the checks of R245, and the trap that it raises where one fails. -/

namespace Sys2Proof.Machine
open Sys2Proof Sys2Proof.Safety

section
variable {op i cost : Nat} {t : Turn} {s u : State} {plan : Nat → State → Plan}

/-! ### The outcome of a row -/

theorem trap_eq_trapped (h : inTurn i t s) (cause detail : Nat) : trap i cause detail s = trapped i cause detail t s := by
  obtain ⟨hturn, _⟩ := h
  simp [trap, trapped, hturn]

/-- A row whose instruction passes the checks has its effect in the state in which it is issued. -/
theorem dyrelRow_runs (h : runs i cost t s) (hl : (plan i s).legal = true) (hc : (plan i s).cap = none)
    (hb : (plan i s).bounds = none) (hcost : (plan i s).cost = cost) (hrun : (plan i s).run (issued i cost s) = u) :
    dyrelRow op plan s = .next (after i u) := by
  subst hcost hrun
  exact congrArg _ (dyrel_runs h.1 hl hc hb h.2)

theorem dyrelRow_illegal (h : inTurn i t s) (hl : (plan i s).legal = false) :
    dyrelRow op plan s = .next (trapped i 2 op t s) :=
  congrArg _ ((dyrel_illegal h hl).trans (trap_eq_trapped h 2 op))

theorem dyrelRow_capability {k : Nat} (h : inTurn i t s) (hl : (plan i s).legal = true) (hc : (plan i s).cap = some k) :
    dyrelRow op plan s = .next (trapped i 4 k t s) :=
  congrArg _ ((dyrel_capability h hl hc).trans (trap_eq_trapped h 4 k))

theorem dyrelRow_bounds {d : Nat} (h : inTurn i t s) (hl : (plan i s).legal = true) (hc : (plan i s).cap = none)
    (hb : (plan i s).bounds = some d) : dyrelRow op plan s = .next (trapped i 3 d t s) :=
  congrArg _ ((dyrel_bounds h hl hc hb).trans (trap_eq_trapped h 3 d))

theorem dyrelRow_overrun (h : inTurn i t s) (hl : (plan i s).legal = true) (hc : (plan i s).cap = none)
    (hb : (plan i s).bounds = none) (hu : (s.ctx i).budget < t.used + (plan i s).cost) :
    dyrelRow op plan s = .next (trapped i 1 0 t s) :=
  congrArg _ ((dyrel_overrun h hl hc hb hu).trans (trap_eq_trapped h 1 0))

end

/-- Settles O17: the four checks in their order, each with its trap, then the effect. -/
theorem checksInOrder : Obligations.ChecksInOrder := by
  intro op i plan t s
  refine ⟨fun hidle => congrArg _ (dyrel_idle hidle), fun h => ⟨dyrelRow_illegal h, fun hl => ⟨fun k => dyrelRow_capability h hl,
    fun hc => ⟨fun d => dyrelRow_bounds h hl hc, fun hb => ⟨dyrelRow_overrun h hl hc hb, fun hu => ?_⟩⟩⟩⟩⟩
  exact dyrelRow_runs ⟨h, hu⟩ hl hc hb rfl rfl

/-- Settles O15: BRK and a reserved word have a plan that is never legal; a reserved major opcode is none of the decoder's. -/
theorem breakAndReservedWordsTrap : Obligations.BreakAndReservedWordsTrap :=
  ⟨fun _ _ _ _ h => dyrelRow_illegal h rfl, fun _ _ _ _ h => dyrelRow_illegal h rfl,
    fun _ h => decodeWord_reserved (by rw [h]; decide), fun _ h => decodeWord_reserved (List.mem_cons_of_mem _ h)⟩

/-! ### The end of an entry -/

theorem setPc_eq_jump (i pc : Nat) (s : State) : setPc i pc s = jump i pc s := rfl

theorem after_of_end {i : Nat} {s : State} (h : (s.ctx i).pc = 0xFFFFFFFC) : after i s = endEntry s := if_pos h

theorem jump_pc {i : Nat} {s : State} (pc : Nat) (h : i < s.ctxs.length) : ((jump i pc s).ctx i).pc = pc :=
  congrArg Ctx.pc (State.ctx_modCtx_same s i _ h)

theorem endEntry_inTurn {i : Nat} {t : Turn} {s : State} (h : inTurn i t s) :
    let left : State := { s with eng.turn := some { t with inEntry := false, msg := none } }
    endEntry s = settleTurn turnFuel (if t.entryKind = 3 then
      left.modCtx i (fun c => { c with lostNotice := false, lostQueue := false }) else left) := by
  obtain ⟨hturn, _, hcur, _⟩ := h
  by_cases hk : t.entryKind = 3
  · simp only [endEntry, hturn, hcur, hk, beq_self_eq_true, if_true]
    rfl
  · simp [endEntry, hturn, hk]

/-- Settles O13: YIELD is a jump to the address that ends an entry. -/
theorem yieldEndsTheEntry : Obligations.YieldEndsTheEntry := by
  refine ⟨fun o i t s h hd ha hb hf => ?_, fun o i t s h hf => ?_, fun i t s h => endEntry_inTurn h,
    fun i s _ hpc => after_of_end hpc⟩
  · obtain ⟨⟨_, _, _, hi⟩, _⟩ := id h
    refine (dyrelRow_runs h (by simp [plain, hd, ha, hb, hf]) rfl rfl rfl (setPc_eq_jump i endAddr _)).trans ?_
    exact congrArg _ (after_of_end (jump_pc _ (by simpa using hi)))
  · refine dyrelRow_illegal h ?_
    simp only [plain, Bool.and_eq_false_iff, beq_eq_false_iff_ne]
    tauto

end Sys2Proof.Machine

/-! The scalar ALU of Dyrel: each operation's result and flags, and its traps (R243, R244, R247, R248). -/

namespace Sys2Proof.Machine
open Sys2Proof Sys2Proof.Safety

/-! ### Results in the terms of the statements -/

theorem fitsS_eq_signed32 (x : Int) : fitsS x = signed32 x := rfl

theorem aluAdd_eq (a b : Word) (c : Bool) : aluAdd a b c =
    ⟨BitVec.ofNat 32 (a.toNat + b.toNat + one c), 2 ^ 32 ≤ a.toNat + b.toNat + one c,
      !signed32 (a.toInt + b.toInt + one c)⟩ := by
  simp only [aluAdd, Alu.mk.injEq]
  refine ⟨?_, rfl, rfl⟩
  simp [BitVec.ofNat_add, flag, one]

theorem aluSub_eq (a b : Word) (borrow : Bool) : aluSub a b borrow =
    ⟨BitVec.ofInt 32 ((a.toNat : Int) - b.toNat - one borrow), b.toNat + one borrow ≤ a.toNat,
      !signed32 (a.toInt - b.toInt - one borrow)⟩ := by
  simp only [aluSub, Alu.mk.injEq]
  refine ⟨?_, rfl, rfl⟩
  cases borrow <;> simp [Int.sub_eq_add_neg, BitVec.sub_eq_add_neg, BitVec.ofInt_add, BitVec.ofInt_neg, flag, one]

theorem aluSub_noBorrow (a b : Word) : aluSub a b false = ⟨a - b, b.toNat ≤ a.toNat, !signed32 (a.toInt - b.toInt)⟩ := by
  simp [aluSub, flag, fitsS_eq_signed32]

theorem aluMul_eq (a b : Word) : aluMul a b = ⟨BitVec.ofNat 32 (a.toNat * b.toNat), false, !signed32 (a.toInt * b.toInt)⟩ := by
  simp [aluMul, BitVec.ofNat_mul, fitsS_eq_signed32]

/-- Of equal words either is the larger one. -/
theorem aluMax_eq (a b : Word) : aluMax a b = aluZN (pick (b.toInt < a.toInt) a b) := by
  simp only [aluMax, pick, BitVec.slt_iff_toInt_lt, decide_eq_true_eq]
  split_ifs with hab hba hba
  · omega
  · rfl
  · rfl
  · rw [BitVec.eq_of_toInt_eq (x := a) (y := b) (by omega)]

theorem aluMaxu_eq (a b : Word) : aluMaxu a b = aluZN (pick (b.toNat < a.toNat) a b) := by
  simp only [aluMaxu, pick, BitVec.ult_iff_lt, BitVec.lt_def, decide_eq_true_eq]
  split_ifs with hab hba hba
  · omega
  · rfl
  · rfl
  · rw [BitVec.eq_of_toNat_eq (x := a) (y := b) (by omega)]

theorem aluAbs_val (a : Word) : (aluAbs a).val = BitVec.ofNat 32 a.toInt.natAbs := by
  apply BitVec.eq_of_toNat_eq
  simp only [aluAbs]
  have h := a.isLt
  rw [BitVec.toInt_eq_msb_cond]
  cases hm : a.msb with
  | true =>
    have := BitVec.le_toNat_of_msb_true hm
    simp
    omega
  | false =>
    simp

/-- Counting zeros down from bit n - 1 is taking the clear ones among the top bits. -/
theorem clzGo_eq (a : Word) (n : Nat) :
    clzGo a n = ((List.range n).takeWhile (fun k => !a.getLsbD (n - 1 - k))).length := by
  induction n with
  | zero => rfl
  | succ n ih =>
    rw [List.range_succ_eq_map, List.takeWhile_cons]
    cases hb : a.getLsbD n with
    | true => simp [clzGo, hb]
    | false => simp [clzGo, hb, ih, List.takeWhile_map, Function.comp_def, Nat.sub_sub, Nat.add_comm]

theorem popN_eq_countP (k v : Nat) : popN k v = (List.range k).countP v.testBit := by
  induction k generalizing v with
  | zero => rfl
  | succ k ih =>
    have hhalf : v.testBit ∘ Nat.succ = (v / 2).testBit := funext fun j => Nat.testBit_succ v j
    have hlow : (if v.testBit 0 then 1 else 0) = v % 2 := by
      rw [Nat.testBit_zero]
      rcases Nat.mod_two_eq_zero_or_one v with h | h <;> simp [h]
    rw [popN, ih, List.range_succ_eq_map, List.countP_cons, List.countP_map, hhalf, hlow, Nat.add_comm]

/-! ### The register ALU -/

/-- An operation means what its result says. -/
theorem aluMeans_of {unary : Bool} {mk : OpR → Instr} {f : Bool → Word → Word → Alu}
    {g : Bool → Word → Word → Word × Bool × Bool} (hexec : ∀ o s, exec (mk o) s = aluRow unary f o s) (hg : ∀ c a b, f c a b = ⟨(g c a b).1, (g c a b).2.1, (g c a b).2.2⟩) :
    aluMeans unary mk g := by
  intro o i t s h hr hb
  rw [hexec, aluRow_means unary f o h hr hb, hg]

theorem aluRow_reserved {unary : Bool} {f : Bool → Word → Word → Alu} {o : OpR} {i : Nat} {t : Turn} {s : State}
    (h : inTurn i t s) (hr : o.rsv ≠ 0) : aluRow unary f o s = .next (trapped i 2 0 t s) :=
  dyrelRow_illegal h (Bool.and_eq_false_iff.2 (.inl (beq_eq_false_iff_ne.2 hr)))

theorem aluRow_unary_b {f : Bool → Word → Word → Alu} {o : OpR} {i : Nat} {t : Turn} {s : State}
    (h : inTurn i t s) (hb : o.b ≠ 0) : aluRow true f o s = .next (trapped i 2 0 t s) :=
  dyrelRow_illegal h (Bool.and_eq_false_iff.2 (.inr (beq_eq_false_iff_ne.2 hb)))

/-- Settles O7: every operation is a row of the register ALU, whose result is the one that the statement names. -/
theorem registerAlu : Obligations.RegisterAlu := by
  refine ⟨?add, ?sub, ?and, ?or, ?xor, ?shl, ?shr, ?sar, ?mul, ?mulh, ?mulhu, ?min, ?max, ?minu, ?maxu, ?adc, ?sbc, ?abs, ?clz,
    ?popc, ?sat16, ?andn, ?reserved, ?operand, ?operation⟩
  case add => exact aluMeans_of (fun _ _ => rfl) (fun _ a b => by simp [aluAdd_eq, one, BitVec.ofNat_add])
  case sub => exact aluMeans_of (fun _ _ => rfl) (fun _ => aluSub_noBorrow)
  case and | or | xor | andn => exact aluMeans_of (fun _ _ => rfl) (fun _ _ _ => rfl)
  case shl | shr | sar => exact aluMeans_of (fun _ _ => rfl) (fun _ _ _ => rfl)
  case mul => exact aluMeans_of (fun _ _ => rfl) (fun _ => aluMul_eq)
  case mulh =>
    exact aluMeans_of (fun _ _ => rfl) (fun _ a b => by simp [aluMulh, aluZN, Int.fdiv_eq_ediv_of_nonneg])
  case mulhu => exact aluMeans_of (fun _ _ => rfl) (fun _ _ _ => rfl)
  case min | minu => exact aluMeans_of (fun _ _ => rfl) (fun _ _ _ => rfl)
  case max => exact aluMeans_of (fun _ _ => rfl) (fun _ => aluMax_eq)
  case maxu => exact aluMeans_of (fun _ _ => rfl) (fun _ => aluMaxu_eq)
  case adc => exact aluMeans_of (fun _ _ => rfl) (fun c a b => aluAdd_eq a b c)
  case sbc => exact aluMeans_of (fun _ _ => rfl) (fun c a b => aluSub_eq a b (!c))
  case abs => exact aluMeans_of (fun _ _ => rfl) (fun _ a _ => by rw [← aluAbs_val]; rfl)
  case clz => exact aluMeans_of (fun _ _ => rfl) (fun _ a _ => by rw [aluClz, clzGo_eq]; rfl)
  case popc => exact aluMeans_of (fun _ _ => rfl) (fun _ a _ => by rw [aluPopc, popN_eq_countP]; rfl)
  case sat16 => exact aluMeans_of (fun _ _ => rfl) (fun _ _ _ => rfl)
  case reserved =>
    simp only [List.forall_mem_cons, List.not_mem_nil, false_implies, implies_true, and_true]
    and_intros
    all_goals exact fun _ _ _ _ h hr => aluRow_reserved h hr
  case operand =>
    simp only [List.forall_mem_cons, List.not_mem_nil, false_implies, implies_true, and_true]
    and_intros
    all_goals exact fun _ _ _ _ h hb => aluRow_unary_b h hb
  case operation =>
    intro w i t s h hop hfn
    have hrow : exec (.reservedOpcode w) s = .next (trapped i 2 (w.toNat / 2 ^ 26) t s) := dyrelRow_illegal h rfl
    exact ⟨decodeWord_reservedAlu hop hfn, by rw [hrow, hop]⟩

/-! ### Immediate forms -/

theorem immMeans_of {op : Nat} {mk : OpI → Instr} {legal : OpI → Bool} {f : Word → BitVec 18 → Word} {P : OpI → Prop}
    (hexec : ∀ o s, exec (mk o) s = immRow op legal f o s) (hl : ∀ o, P o → legal o = true) : immMeans mk P f := by
  intro o i t s h ho
  rw [hexec, immRow_means op legal f o h (hl o ho)]

theorem setFlags_eq_flags (i : Nat) (x : Alu) (s : State) :
    s.modCtx i (Ctx.setFlags x) = flags i (x.val == 0) x.val.msb x.c x.v s := rfl

theorem flagRow_means {op i : Nat} {t : Turn} {s : State} (f : Word → BitVec 18 → Alu) {o : OpI} (h : runs i 1 t s) (hd : o.d = 0) :
    let x := f (s.reg i o.a) o.imm
    flagRow op f o s = .next (after i (flags i (x.val == 0) x.val.msb x.c x.v (issued i 1 s))) :=
  dyrelRow_runs h (by simp [plain, hd]) rfl rfl rfl (setFlags_eq_flags i _ _)

theorem condition_eq_cond (c : Ctx) {k : Nat} (h : k < 13) : condition c k = c.cond k := by
  interval_cases k <;> rfl

theorem exec_maxi (o : OpI) (s : State) :
    exec (.maxi o) s = immRow 0x0C anyI (fun a k => (aluMax a (k.signExtend 32)).val) o s := rfl

theorem exec_cmpi (o : OpI) (s : State) :
    exec (.cmpi o) s = flagRow 0x09 (fun a k => aluSub a (k.signExtend 32) false) o s := rfl

theorem exec_tsti (o : OpI) (s : State) :
    exec (.tsti o) s = flagRow 0x0D (fun a k => aluZN (a &&& k.zeroExtend 32)) o s := rfl

/-- Settles O8: each form is an immediate row or a row of flags, and the reserved fields make it illegal. -/
theorem immediateAlu : Obligations.ImmediateAlu := by
  refine ⟨?addi, ?andi, ?ori, ?xori, ?shli, ?shri, ?sari, ?muli, ?lui, ?mini, ?maxi, ?flags, ?csel, ?illegal, ?cselIllegal⟩
  case addi | andi | ori | xori | muli | mini => exact immMeans_of (legal := anyI) (fun _ _ => rfl) (fun _ _ => rfl)
  case shli | shri | sari => exact immMeans_of (legal := shiftI) (fun _ _ => rfl) (fun _ ho => decide_eq_true ho)
  case lui => exact immMeans_of (legal := fun o => o.a == 0) (fun _ _ => rfl) (fun _ ho => beq_iff_eq.2 ho)
  case maxi =>
    refine immMeans_of (op := 0x0C) (legal := anyI) (fun o s => ?_) (fun _ _ => rfl)
    rw [exec_maxi]
    simp only [aluMax_eq]
    rfl
  case flags =>
    refine fun o i t s h hd => ⟨?_, ?_⟩
    · rw [exec_cmpi, flagRow_means _ h hd, aluSub_noBorrow]
    · rw [exec_tsti, flagRow_means _ h hd]
      rfl
  case csel =>
    refine fun o i t s h hf => dyrelRow_runs h (decide_eq_true hf) rfl rfl rfl ?_
    rw [condition_eq_cond _ hf]
    exact setReg_eq_put _ _ _
  case illegal =>
    refine fun o i t s h => ⟨fun hk => ?_, fun hd => ?_, fun ha => dyrelRow_illegal h (beq_eq_false_iff_ne.2 ha)⟩
    · have hs : shiftI o = false := by simpa [shiftI] using hk
      exact ⟨dyrelRow_illegal h hs, dyrelRow_illegal h hs, dyrelRow_illegal h hs⟩
    · have hl : (o.d == 0) = false := beq_eq_false_iff_ne.2 hd
      exact ⟨by rw [exec_cmpi]; exact dyrelRow_illegal h hl, by rw [exec_tsti]; exact dyrelRow_illegal h hl⟩
  case cselIllegal => exact fun o i t s h hf => dyrelRow_illegal h (by simpa [plain] using hf)
end Sys2Proof.Machine

/-! Loads, stores and control flow: what they read and write, where they go on, and their traps (R249-R253). -/

namespace Sys2Proof.Machine
open Sys2Proof Sys2Proof.Safety

/-! ### Areas of the address space -/

theorem inRoom_iff {a n : Nat} : inRoom a n = true ↔ 0x10000000 ≤ a ∧ a + n ≤ 0x10002000 := by simp [inRoom]

theorem inFlash_iff {a : Nat} : inFlash a = true ↔ 0x40000000 ≤ a ∧ a < 0x44000000 := by simp [inFlash]

/-- An aligned access whose width divides the room's end lies in the room where its first byte does. -/
theorem inRoom_iff_of_aligned {a n : Nat} (hpos : 0 < n) (hn : n ∣ 0x10002000) (ha : a % n = 0) :
    inRoom a n = true ↔ 0x10000000 ≤ a ∧ a < 0x10002000 := by
  rw [inRoom_iff]
  refine and_congr_right fun _ => ⟨fun h => by omega, fun h => ?_⟩
  have hrest : n ≤ 0x10002000 - a := Nat.le_of_dvd (by omega) (Nat.dvd_sub hn (Nat.dvd_of_mod_eq_zero ha))
  omega

/-- No shelf lies in the flash part of the space. -/
theorem shelfByte_flash {a : Nat} (s : State) (i : Nat) (h : inFlash a = true) : shelfByte s i a = none := by
  obtain ⟨hlo, _⟩ := inFlash_iff.1 h
  unfold shelfByte
  repeat rw [if_neg (by omega)]

theorem inRoom_flash {a : Nat} (n : Nat) (h : inFlash a = true) : inRoom a n = false := by
  obtain ⟨hlo, _⟩ := inFlash_iff.1 h
  simp [inRoom]
  omega

/-! ### Loads -/

section
variable {op i n a : Nat} {t : Turn} {s : State}

theorem loadBounds_misaligned (h : a % n ≠ 0) : loadBounds s i a n = some 3 := by simp [loadBounds, h]

theorem aligned_of_loadBounds (h : loadBounds s i a n = none) : a % n = 0 := by
  by_contra hne
  rw [loadBounds_misaligned hne] at h
  cases h

theorem loadBounds_outside (ha : a % n = 0) (hr : inRoom a n = false) (hf : inFlash a = false)
    (hs : shelfByte s i a = none) : loadBounds s i a n = some 0 := by
  simp [loadBounds, ha, hr, hf, hs]

theorem loadBounds_flash (ha : a % n = 0) (hf : inFlash a = true) : loadBounds s i a n =
    if s.feat 35 && a - 0x40000000 + n ≤ s.window then (if s.fenced (a - 0x40000000) n then some 4 else none) else some 0 := by
  simp [loadBounds, ha, inRoom_flash n hf, shelfByte_flash s i hf, hf]

/-- What a load of n bytes reads, by the area in which its address lies (R222). -/
def areaBytes (s : State) (i a n : Nat) : List Byte :=
  if 0x10000000 ≤ a ∧ a < 0x10002000 then Memory.readN 0 (s.ctx i).room (a - 0x10000000) n
  else if 0x40000000 ≤ a ∧ a < 0x44000000 then Memory.readN 0xFF s.mem.flash (a - 0x40000000) n
  else (List.range n).map (fun k => (shelfByte s i (a + k)).getD 0)

theorem loadBytes_eq_areaBytes (hpos : 0 < n) (hn : n ∣ 0x10002000) (ha : a % n = 0) :
    loadBytes s i a n = areaBytes s i a n := by
  unfold loadBytes areaBytes
  simp only [inRoom_iff_of_aligned hpos hn ha, inFlash_iff]
  rfl

/-- What a load does, by what its register takes of the bytes. -/
theorem loadRow_means {g : Nat → Word} (f : List Byte → Word) (hg : ∀ b, g (ofLe b) = f b) (o : OpI)
    (hpos : 0 < n) (hn : n ∣ 0x10002000) :
    let ea := (s.reg i o.a + o.imm.signExtend 32).toNat
    runs i (1 + (loadLine ea s).1) t s → loadCap s i ea = none → loadBounds s i ea n = none →
    dyrelRow op (loadPlan n g o) s =
      .next (after i (put i o.d (f (areaBytes s i ea n)) (loadLine ea (issued i (1 + (loadLine ea s).1) s)).2)) := by
  intro ea h hc hb
  refine dyrelRow_runs h rfl hc hb rfl ((setReg_eq_put _ _ _).trans ?_)
  rw [hg]
  exact congrArg (fun b => put i o.d (f b) _) (loadBytes_eq_areaBytes hpos hn (aligned_of_loadBounds hb))

/-- The signed number that bytes spell is the sign extension of their value. -/
theorem signedW_eq (w v : Nat) : signedW w v = (BitVec.ofNat w v).signExtend 32 := by
  unfold signedW wordI toS BitVec.signExtend BitVec.toInt
  simp

theorem loadLine_outside (h : inFlash a = false) : loadLine a s = (0, s) := by simp [loadLine, h]

end

/-- Settles O9: the loads differ in their width and in what the register takes of the bytes. -/
theorem loads : Obligations.Loads :=
  ⟨fun o i t s => loadRow_means _ (fun _ => rfl) o (by decide) (by decide),
    fun o i t s => loadRow_means _ (fun _ => signedW_eq 16 _) o (by decide) (by decide),
    fun o i t s => loadRow_means _ (fun _ => rfl) o (by decide) (by decide),
    fun o i t s => loadRow_means _ (fun _ => signedW_eq 8 _) o (by decide) (by decide),
    fun o i t s => loadRow_means _ (fun _ => rfl) o (by decide) (by decide),
    fun s ea h => loadLine_outside (Bool.eq_false_iff.2 (fun hf => h (inFlash_iff.1 hf)))⟩

/-! ### Stores -/

@[simp] theorem le_length (n v : Nat) : (le n v).length = n := by
  induction n generalizing v with
  | zero => rfl
  | succ n ih => simp [le, ih]

/-- Byte k of a number is what is left of it after k divisions by 256. -/
theorem le_getD {n k : Nat} (v : Nat) (d : Byte) (h : k < n) : (le n v).getD k d = BitVec.ofNat 8 (v / 256 ^ k) := by
  induction n generalizing v k with
  | zero => omega
  | succ n ih =>
    cases k with
    | zero => simp [le]
    | succ k => rw [le, List.getD_cons_succ, ih _ (by omega), Nat.div_div_eq_div_mul, Nat.pow_succ']

section
variable {op i n a : Nat} {t : Turn} {s : State}

theorem storeBounds_misaligned (h : a % n ≠ 0) : storeBounds a n = some 3 := by simp [storeBounds, h]

theorem storeBounds_outside (ha : a % n = 0) (hr : inRoom a n = false) : storeBounds a n = some 1 := by
  simp [storeBounds, ha, hr]

theorem storeBounds_inside (ha : a % n = 0) (hr : inRoom a n = true) : storeBounds a n = none := by
  simp [storeBounds, ha, hr]

/-- The context that writes its room, in the state in which its instruction is issued: its room and its pc change. -/
theorem ctx_writeRoom_issued (cost a : Nat) (bs : List Byte) (hi : i < s.ctxs.length) :
    (writeRoom i a bs (issued i cost s)).ctx i =
      { s.ctx i with pc := (s.ctx i).pc + 4, room := Memory.writeN 0 (s.ctx i).room (a - 0x10000000) bs } := by
  rw [writeRoom, State.ctx_modCtx_same _ i _ (by simpa using hi), issued_ctx_same cost hi]

theorem ctx_writeRoom_issued_other {j : Nat} (cost a : Nat) (bs : List Byte) (hj : j ≠ i) :
    (writeRoom i a bs (issued i cost s)).ctx j = s.ctx j :=
  (State.ctx_modCtx_other _ i j _ hj).trans (issued_ctx_other cost s hj)

/-- What a room reads as after the low bytes of a word are written into it. -/
theorem read_writeN_le {m : List Host.Cell} {x : Nat} (v : Nat) (hm : Memory.wf 0 m = true) :
    Memory.read 0 (Memory.writeN 0 m a (le n v)) x =
      if a ≤ x ∧ x < a + n then BitVec.ofNat 8 (v / 256 ^ (x - a)) else Memory.read 0 m x := by
  rw [Memory.read_writeN hm, le_length]
  refine ite_congr rfl (fun hx => ?_) (fun _ => rfl)
  exact le_getD v 0 (by omega)

/-- What a store does, and what it leaves as it is. -/
theorem storeRow_means (o : OpT) :
    let ea := (s.reg i o.a + o.off.signExtend 32).toNat
    runs i 1 t s → o.b = 0 → ea % n = 0 → 0x10000000 ≤ ea → ea + n ≤ 0x10002000 →
    let u := writeRoom i ea (le n (s.reg i o.d).toNat) (issued i 1 s)
    dyrelRow op (storePlan n o) s = .next (after i u) ∧
    (u.ctx i).regs = (s.ctx i).regs ∧
    (u.ctx i).z = (s.ctx i).z ∧ (u.ctx i).n = (s.ctx i).n ∧ (u.ctx i).c = (s.ctx i).c ∧ (u.ctx i).v = (s.ctx i).v ∧
    (∀ j, j ≠ i → u.ctx j = s.ctx j) ∧ u.mem = s.mem ∧
    (Memory.wf 0 (s.ctx i).room = true → ∀ x : Nat,
      Memory.read 0 (u.ctx i).room x =
        if ea - 0x10000000 ≤ x ∧ x < ea - 0x10000000 + n then
          BitVec.ofNat 8 ((s.reg i o.d).toNat / 256 ^ (x - (ea - 0x10000000)))
        else Memory.read 0 (s.ctx i).room x) := by
  intro ea h hb ha hlo hhi u
  obtain ⟨⟨_, _, _, hi⟩, _⟩ := id h
  have hrow : dyrelRow op (storePlan n o) s = .next (after i u) :=
    dyrelRow_runs h (beq_iff_eq.2 hb) rfl (storeBounds_inside ha (inRoom_iff.2 ⟨hlo, hhi⟩)) rfl rfl
  have hctx : u.ctx i = _ := ctx_writeRoom_issued 1 ea _ hi
  have hmem : u.mem = s.mem := charge_mem 1 _
  refine ⟨hrow, ?_, ?_, ?_, ?_, ?_, fun j => ctx_writeRoom_issued_other 1 ea _, hmem, fun hwf x => ?_⟩
  all_goals rw [hctx]
  exact read_writeN_le _ hwf

/-- The traps of a store. -/
theorem storeRow_traps (o : OpT) (h : inTurn i t s) :
    let ea := (s.reg i o.a + o.off.signExtend 32).toNat
    (o.b ≠ 0 → dyrelRow op (storePlan n o) s = .next (trapped i 2 op t s)) ∧
    (o.b = 0 → ea % n ≠ 0 → dyrelRow op (storePlan n o) s = .next (trapped i 3 3 t s)) ∧
    (o.b = 0 → ea % n = 0 → ¬ (0x10000000 ≤ ea ∧ ea + n ≤ 0x10002000) →
      dyrelRow op (storePlan n o) s = .next (trapped i 3 1 t s)) := by
  refine ⟨fun hb => dyrelRow_illegal h (beq_eq_false_iff_ne.2 hb),
    fun hb ha => dyrelRow_bounds h (beq_iff_eq.2 hb) rfl (storeBounds_misaligned ha),
    fun hb ha hr => dyrelRow_bounds h (beq_iff_eq.2 hb) rfl (storeBounds_outside ha ?_)⟩
  exact Bool.eq_false_iff.2 (fun hin => hr (inRoom_iff.1 hin))

/-- The traps of a load: the capability before the bounds. -/
theorem loadRow_traps {g : Nat → Word} (o : OpI) (h : inTurn i t s) :
    let ea := (s.reg i o.a + o.imm.signExtend 32).toNat
    let flash : Prop := 0x40000000 ≤ ea ∧ ea < 0x44000000
    let row := dyrelRow op (loadPlan n g o) s
    (flash → s.holds i 7 = false → row = .next (trapped i 4 7 t s)) ∧
    ((flash → s.holds i 7 = true) →
      (ea % n ≠ 0 → row = .next (trapped i 3 3 t s)) ∧
      (ea % n = 0 → ¬ flash → ¬ (0x10000000 ≤ ea ∧ ea + n ≤ 0x10002000) → shelfByte s i ea = none →
        row = .next (trapped i 3 0 t s)) ∧
      (ea % n = 0 → flash → s.feat 35 = false → row = .next (trapped i 3 0 t s)) ∧
      (ea % n = 0 → flash → s.feat 35 = true → ea - 0x40000000 + n ≤ s.window → s.fenced (ea - 0x40000000) n = true →
        row = .next (trapped i 3 4 t s))) := by
  intro ea flash row
  have hflash : inFlash ea = true ↔ flash := inFlash_iff
  refine ⟨fun hf hcap => dyrelRow_capability h rfl ?_, fun hcap => ?_⟩
  · change loadCap s i ea = some 7
    simp [loadCap, hflash.2 hf, hcap]
  · have hc : loadCap s i ea = none := by
      by_cases hf : flash
      · simp [loadCap, hcap hf]
      · simp [loadCap, hflash, hf]
    have trap_of {d : Nat} (hb : loadBounds s i ea n = some d) : row = .next (trapped i 3 d t s) := dyrelRow_bounds h rfl hc hb
    refine ⟨fun ha => trap_of (loadBounds_misaligned ha), fun ha hf hr hs => trap_of (loadBounds_outside ha ?_ ?_ hs),
      fun ha hf hx => trap_of ?_, fun ha hf hx hw hfen => trap_of ?_⟩
    · exact Bool.eq_false_iff.2 (fun hin => hr (inRoom_iff.1 hin))
    · exact Bool.eq_false_iff.2 (fun hin => hf (hflash.1 hin))
    · simp [loadBounds_flash ha (hflash.2 hf), hx]
    · simp [loadBounds_flash ha (hflash.2 hf), hx, hw, hfen]

end

/-- Settles O10: the stores differ in their width. -/
theorem stores : Obligations.Stores :=
  ⟨fun o _ _ _ => storeRow_means o, fun o _ _ _ => storeRow_means o, fun o _ _ _ => storeRow_means o⟩

/-- Settles O11: a row's traps are those of its plan's capability and bounds. -/
theorem accessTraps : Obligations.AccessTraps :=
  ⟨fun o _ _ _ h => loadRow_traps o h, fun o _ _ _ h => loadRow_traps o h, fun o _ _ _ h => loadRow_traps o h,
    fun o _ _ _ h => loadRow_traps o h, fun o _ _ _ h => loadRow_traps o h, fun o _ _ _ h => storeRow_traps o h,
    fun o _ _ _ h => storeRow_traps o h, fun o _ _ _ h => storeRow_traps o h⟩

/-! ### Control flow -/

theorem put_eq_setReg (i : Nat) (r : Reg) (v : Word) (s : State) : put i r v s = setReg i r v s := (setReg_eq_put r v s).symm

/-- Settles O12: the rows of control flow in the order of the table, each with its own traps. -/
theorem controlFlow : Obligations.ControlFlow := by
  refine ⟨fun o i t s h hk => ⟨?branch, ?call⟩, fun o i t s h => ⟨fun hg => ?jump, fun ha hd => ?loop, fun hd => ⟨?bz, ?bnz⟩⟩,
    fun o i t s h hk => ⟨?branchIllegal, ?callIllegal⟩, fun o i t s h => ⟨fun hg => ?jumpTrap, fun hf => ?loopIllegal,
      fun hd => ⟨?bzIllegal, ?bnzIllegal⟩⟩⟩
  case branch =>
    refine dyrelRow_runs h (decide_eq_true hk) rfl rfl rfl ?_
    rw [condition_eq_cond _ hk]
    rfl
  case call =>
    refine dyrelRow_runs h (decide_eq_true hk) rfl rfl rfl ?_
    rw [condition_eq_cond _ hk, put_eq_setReg]
    rfl
  case jump =>
    refine dyrelRow_runs h rfl rfl (if_pos (beq_iff_eq.2 hg)) rfl ?_
    rw [put_eq_setReg]
    rfl
  case loop =>
    refine dyrelRow_runs h (Bool.and_eq_true_iff.2 ⟨beq_iff_eq.2 ha, bne_iff_ne.2 hd⟩) rfl rfl rfl ?_
    simp only [put_eq_setReg, plain, beq_iff_eq, sub_eq_zero]
    rfl
  case bz | bnz =>
    refine dyrelRow_runs h (beq_iff_eq.2 hd) rfl rfl rfl ?_
    simp only [plain, beq_iff_eq]
    rfl
  case branchIllegal | callIllegal => exact dyrelRow_illegal h (decide_eq_false (Nat.not_lt.2 hk))
  case jumpTrap => exact dyrelRow_bounds h rfl rfl (if_neg (fun he => hg (beq_iff_eq.1 he)))
  case loopIllegal =>
    refine dyrelRow_illegal h ?_
    simp only [plain, Bool.and_eq_false_iff, beq_eq_false_iff_ne, bne_eq_false_iff_eq]
    exact hf
  case bzIllegal | bnzIllegal => exact dyrelRow_illegal h (beq_eq_false_iff_ne.2 hd)

end Sys2Proof.Machine

/-! The plane operations of Dyrel, and what a reduction finds in a box (R254-R256). -/

namespace Sys2Proof.Machine
open Sys2Proof Sys2Proof.Safety

/-! ### Reductions -/

/-- The first element of the largest key, as a fold that replaces its candidate by larger ones alone finds it. -/
def firstBest {α : Type} (key : α → Int) (x : α) (xs : List α) : α := xs.foldl (fun a y => if key a < key y then y else a) x

section
variable {α : Type} (key : α → Int)

/-- A candidate gives way to a larger element. -/
theorem firstBest_cons_of_lt {x y : α} (ys : List α) (h : key x < key y) : firstBest key x (y :: ys) = firstBest key y ys :=
  congrArg (List.foldl _ · ys) (if_pos h)

theorem firstBest_cons_of_le {x y : α} (ys : List α) (h : ¬ key x < key y) : firstBest key x (y :: ys) = firstBest key x ys :=
  congrArg (List.foldl _ · ys) (if_neg h)

theorem firstBest_mem (x : α) (xs : List α) : firstBest key x xs ∈ x :: xs := by
  induction xs generalizing x with
  | nil => exact List.mem_cons_self
  | cons y ys ih =>
    by_cases h : key x < key y
    · rw [firstBest_cons_of_lt key ys h]
      exact List.mem_cons_of_mem _ (ih y)
    · rw [firstBest_cons_of_le key ys h]
      exact List.mem_cons.2 ((List.mem_cons.1 (ih x)).imp_right (List.mem_cons_of_mem _))

theorem firstBest_max (x : α) (xs : List α) : ∀ z ∈ x :: xs, key z ≤ key (firstBest key x xs) := by
  induction xs generalizing x with
  | nil => simp [firstBest]
  | cons y ys ih =>
    rw [List.forall_mem_cons, List.forall_mem_cons]
    by_cases h : key x < key y
    · rw [firstBest_cons_of_lt key ys h]
      obtain ⟨hy, hys⟩ := List.forall_mem_cons.1 (ih y)
      exact ⟨by omega, hy, hys⟩
    · rw [firstBest_cons_of_le key ys h]
      obtain ⟨hx, hys⟩ := List.forall_mem_cons.1 (ih x)
      exact ⟨hx, by omega, hys⟩

/-- Of the elements of the largest key it has the lowest index, where the indices ascend. -/
theorem firstBest_first (idx : α → Nat) (x : α) (xs : List α) (h : (x :: xs).Pairwise (fun a b => idx a < idx b)) :
    ∀ z ∈ x :: xs, key z = key (firstBest key x xs) → idx (firstBest key x xs) ≤ idx z := by
  induction xs generalizing x with
  | nil => simp [firstBest]
  | cons y ys ih =>
    intro z hz
    obtain ⟨hx, htail⟩ := List.pairwise_cons.1 h
    have hxys : (x :: ys).Pairwise (fun a b => idx a < idx b) :=
      List.pairwise_cons.2 ⟨fun b hb => hx b (List.mem_cons_of_mem _ hb), (List.pairwise_cons.1 htail).2⟩
    by_cases hlt : key x < key y
    · rw [firstBest_cons_of_lt key ys hlt]
      intro heq
      have hmax := firstBest_max key y ys y List.mem_cons_self
      rcases List.mem_cons.1 hz with rfl | hz
      · omega
      · exact ih y htail z hz heq
    · rw [firstBest_cons_of_le key ys hlt]
      intro heq
      have hmax := firstBest_max key x ys x List.mem_cons_self
      have hfirst := ih x hxys
      rcases List.mem_cons.1 hz with rfl | hz
      · exact hfirst _ List.mem_cons_self heq
      · rcases List.mem_cons.1 hz with rfl | hz
        · have := hfirst x List.mem_cons_self (by omega)
          have := hx z List.mem_cons_self
          omega
        · exact hfirst z (List.mem_cons_of_mem _ hz) heq

end

theorem clampI_eq {lo hi : Int} (h : lo ≤ hi) (x : Int) : clampI lo hi x = max lo (min hi x) := by
  unfold clampI
  split_ifs <;> omega

/-- What each kind of reduction finds in a box that holds an element. -/
theorem reduce_cons (x : Nat × Int) (xs : List (Nat × Int)) :
    let hi := firstBest Prod.snd x xs
    let lo := firstBest (fun y => -y.2) x xs
    reduce 0 (x :: xs) = BitVec.ofInt 32 (max (-2147483648) (min 2147483647 ((x :: xs).map (·.2)).sum)) ∧
    reduce 1 (x :: xs) = BitVec.ofInt 32 hi.2 ∧ reduce 2 (x :: xs) = BitVec.ofInt 32 lo.2 ∧
    reduce 3 (x :: xs) = BitVec.ofNat 32 hi.1 ∧ reduce 4 (x :: xs) = BitVec.ofNat 32 lo.1 := by
  have hlo : (fun a y : Nat × Int => if y.2 < a.2 then y else a) = fun a y => if -a.2 < -y.2 then y else a := by
    funext a y
    simp
  refine ⟨?_, rfl, ?_, rfl, ?_⟩
  · rw [← clampI_eq (by decide), List.sum_eq_foldl]
    rfl
  · simp only [reduce, hlo]
    rfl
  · simp only [reduce, hlo]
    rfl

/-- Settles O20: the fold keeps the first of the largest values, and for the smallest the first of the largest negated. -/
theorem predFindsTheExtremes : Obligations.PredFindsTheExtremes := by
  refine ⟨fun _ => rfl, fun xs hne => ?_⟩
  obtain ⟨x, r, rfl⟩ := List.exists_cons_of_ne_nil hne
  obtain ⟨hsum, hmax, hmin, hargmax, hargmin⟩ := reduce_cons x r
  refine ⟨⟨_, firstBest_mem Prod.snd x r, firstBest_max Prod.snd x r, hmax, hargmax, firstBest_first Prod.snd Prod.fst x r⟩,
    ⟨_, firstBest_mem (fun y => -y.2) x r, fun y hy => ?_, hmin, hargmin, fun hp y hy heq => ?_⟩, hsum⟩
  · exact Int.neg_le_neg_iff.1 (firstBest_max (fun y => -y.2) x r y hy)
  · exact firstBest_first (fun y => -y.2) Prod.fst x r hp y hy (congrArg Neg.neg heq)

/-! ### Plane operations -/

/-- PCNT's comparisons as the statement writes them. -/
theorem compares_eq (k : Nat) (v x : Int) : compares k v x =
    if k = 0 then decide (x ≤ v) else if k = 1 then decide (v ≤ x) else if k = 2 then v == x else v != x := by
  unfold compares
  split
  · rfl
  · rfl
  · rfl
  · next h0 h1 h2 => rw [if_neg h0, if_neg h1, if_neg h2]

theorem planeOk_eq {s : State} {k : Nat} {shape : Nat × Nat} (hf : s.feat 33 = true) (hs : planeShape k = some shape)
    (allowed : Nat → Bool) : planeOk s k allowed = allowed k := by simp [planeOk, hf, hs]

theorem selfPlane_iff {k : Nat} : selfPlane k = true ↔ k = 5 ∨ k = 6 := by simp [selfPlane]

/-- An operation over a box that passes its checks works on the elements of the box. -/
theorem boxPlan_runs {op i k : Nat} {q legal : Bool} {w : Word} {box : List Nat} {t : Turn} {s u : State}
    {run : List (Nat × Int) → State → State} {plan : Nat → State → Plan} (hplan : plan i s = boxPlan legal k q w i s run)
    (hbox : boxOf k w = some box) (hl : legal = true) (hcap : planeCap s i k = none)
    (h : runs i (4 + (box.length + 3) / 4) t s)
    (hrun : run (boxElems s k q box) (issued i (4 + (box.length + 3) / 4) s) = u) : dyrelRow op plan s = .next (after i u) := by
  refine dyrelRow_runs h ?_ ?_ ?_ ?_ ?_ <;> rw [hplan]
  · exact hl
  · exact hcap
  · simp [boxPlan, hbox]
  · simp [boxPlan, hbox, quarterUp, ceilDiv]
  · simpa [boxPlan, hbox] using hrun

/-- Settles O19: PLD and PCOPY index the plane, the others work on the elements of a box. -/
theorem planeOperations : Obligations.PlaneOperations := by
  intro o i size width t s h hfeat hshape hcap k e f
  have hok := planeOk_eq hfeat hshape
  have hfn (hf : f = 0) : o.fn = 0 := BitVec.eq_of_toNat_eq hf
  refine ⟨fun hf he hr => ?pld, fun box hbox => ?boxes, fun h1 h2 he ha hlo hhi hr => ?pcopy⟩
  case pld =>
    refine dyrelRow_runs hr ?_ hcap ?_ rfl (setRegZN_eq _ _ _)
    · simp [hok, hfn hf]
    · simp [e, hshape, he]
  case pcopy =>
    have hin : inRoom (s.reg i o.d).toNat (f * width) = true := inRoom_iff.2 ⟨hlo, hhi⟩
    refine dyrelRow_runs hr ?_ ?_ ?_ ?_ ?_ <;> simp only [k, hshape, Option.getD_some]
    · simpa [hok] using ⟨h1, h2⟩
    · exact hcap
    · simp [e, f, he, ha, hin]
    · rfl
    · rfl
  case boxes =>
    intro n q xs half
    have hself (hh : half) : f < 16 ∧ (f < 8 ∨ selfPlane k = true) := by simpa [half, selfPlane_iff] using hh
    refine ⟨fun hk hkind hh hr => ?_, fun hk hkind hh hr => ?_, fun hk hf hr => ?_⟩
    · obtain ⟨h16, hs⟩ := hself hh
      refine boxPlan_runs rfl hbox ?_ hcap hr (setRegZN_eq _ _ _)
      simp [hok, k, f, hk, hkind, h16, hs]
    · obtain ⟨h16, hs⟩ := hself hh
      have hbit : bits f 2 1 = 0 := by
        simp only [bits]
        omega
      refine boxPlan_runs rfl hbox ?_ hcap hr ((setRegZN_eq _ _ _).trans ?_)
      · simp [hok, k, f, hk, hbit, h16, hs]
      · simp only [compares_eq]
        rfl
    · have hq : q = false := by simp [q, hf]
      refine boxPlan_runs rfl hbox ?_ hcap hr ((setRegZN_eq _ _ _).trans ?_)
      · simpa [hok, hfn hf] using hk
      · simp only [xs, hq]
        rfl

end Sys2Proof.Machine

/-! The contact operations of Dyrel, and its events and mail (R257-R260, R268). -/

namespace Sys2Proof.Machine
open Sys2Proof Sys2Proof.Safety

/-! ### Contacts -/

theorem maskOk_of {fn : BitVec 14} (h16 : fn.toNat < 16) (h0 : fn.toNat % 2 = 0) : maskOk fn = true := by
  simp [maskOk, h16, bits, h0]

theorem wordN_flag (p : Prop) [Decidable p] : wordN (flag (decide p)) = if p then 1 else 0 := by
  by_cases h : p <;> simp [h, flag, wordN]

/-- Settles O21: each operation is a row without traps of its own but CIN, whose rectangle lies in the room. -/
theorem contactOperations : Obligations.ContactOperations := by
  intro o i t s h f a b see seen phased p
  refine ⟨fun hb h16 h0 hr => ?cnext, fun hb hf hr => ?cget, fun hf hr => ?cdist, fun hf hal hlo hhi hr => ?cin,
    fun ha hb h16 h0 hr => ?ccount⟩
  case cnext =>
    exact dyrelRow_runs hr (Bool.and_eq_true_iff.2 ⟨beq_iff_eq.2 hb, maskOk_of h16 h0⟩) rfl rfl rfl (setRegZN_eq _ _ _)
  case cget =>
    exact dyrelRow_runs hr (Bool.and_eq_true_iff.2 ⟨beq_iff_eq.2 hb, decide_eq_true hf⟩) rfl rfl rfl (setRegZN_eq _ _ _)
  case cdist =>
    exact dyrelRow_runs hr (beq_iff_eq.2 (BitVec.eq_of_toNat_eq hf)) rfl rfl rfl (setRegZN_eq _ _ _)
  case cin =>
    have hin : inRoom b 8 = true := inRoom_iff.2 ⟨hlo, hhi⟩
    refine dyrelRow_runs hr (beq_iff_eq.2 (BitVec.eq_of_toNat_eq hf)) rfl
      (if_pos (Bool.and_eq_true_iff.2 ⟨beq_iff_eq.2 hal, hin⟩)) rfl ((setRegZN_eq _ _ _).trans ?_)
    simp only [← Bool.decide_and, wordN_flag, and_assoc]
    rfl
  case ccount =>
    refine dyrelRow_runs hr ?_ rfl rfl rfl (setRegZN_eq _ _ _)
    exact Bool.and_eq_true_iff.2 ⟨Bool.and_eq_true_iff.2 ⟨beq_iff_eq.2 ha, beq_iff_eq.2 hb⟩, maskOk_of h16 h0⟩

/-! ### Events and mail -/

theorem lacks_of_holds {s : State} {i k : Nat} (h : s.holds i k = true) : lacks s i k = none := if_pos h

/-- The origin of a context's records is no matter of the cycles charged (R232). -/
theorem originOf_issued (i j cost : Nat) (s : State) : (issued i cost s).originOf j = s.originOf j := by
  unfold State.originOf
  rw [issued_frame]

theorem emitRec_issued (i typ time cost : Nat) (payload : List Byte) (s : State) :
    emitRec i typ time payload (issued i cost s) = modTurn (fun t => { t with emits := t.emits + 1 })
      (putCtx i { time := time, origin := s.originOf i, typ := typ, payload := payload } (issued i cost s)) := by
  rw [emitRec, originOf_issued]

/-- The types that EMIT takes, and the b field that is 0 for a contact's records (R258). -/
theorem emit_legal {o : OpA} (h1 : 1 ≤ o.fn.toNat) (hf : o.fn.toNat ≤ 6 ∨ (128 ≤ o.fn.toNat ∧ o.fn.toNat < 256))
    (hb : o.fn.toNat ≤ 3 → o.b = 0) :
    (decide (o.fn.toNat < 256) && emitType (o.fn.toNat % 256) && (decide (4 ≤ o.fn.toNat % 256) || o.b == 0)) = true := by
  have hlt : o.fn.toNat < 256 := by omega
  have htype : emitType o.fn.toNat = true := by
    simp only [emitType, Bool.or_eq_true, Bool.and_eq_true, decide_eq_true_eq]
    omega
  have hfield : 4 ≤ o.fn.toNat ∨ o.b = 0 := by
    by_cases h3 : o.fn.toNat ≤ 3
    · exact .inr (hb h3)
    · exact .inl (by omega)
  rw [Nat.mod_eq_of_lt hlt, htype]
  simpa [hlt] using hfield

/-- What EMIT does where it passes its checks: the limit of a turn is asked before the contact (R258, R268). -/
theorem exec_emit_runs {o : OpA} {i : Nat} {t : Turn} {s : State} (h : runs i 4 t s) (hcap : s.holds i 0 = true)
    (h1 : 1 ≤ o.fn.toNat) (hf : o.fn.toNat ≤ 6 ∨ (128 ≤ o.fn.toNat ∧ o.fn.toNat < 256)) (hb : o.fn.toNat ≤ 3 → o.b = 0) :
    let u := issued i 4 s
    exec (.emit o) s = .next (after i (
      if 16 ≤ t.emits then putZN i o.d 2 u
      else if o.fn.toNat ≤ 3 then
        match s.contactOf i (s.reg i o.a) with
        | some c => putZN i o.d 1
            (emitRec i o.fn.toNat (if o.fn.toNat = 1 then c.onset else s.frame.mutComp) (contactPayload c) u)
        | none => putZN i o.d 0 u
      else putZN i o.d 1 (emitRec i o.fn.toNat s.frame.mutComp
        (le 4 (s.reg i o.a).toNat ++ le 4 (s.reg i o.b).toNat) u))) := by
  obtain ⟨⟨hturn, _⟩, _⟩ := id h
  have hmod : o.fn.toNat % 256 = o.fn.toNat := Nat.mod_eq_of_lt (by omega)
  refine dyrelRow_runs h (emit_legal h1 hf hb) (lacks_of_holds hcap) rfl rfl ?_
  simp only [hmod, hturn, Option.map_some, Option.getD_some, setRegZN_eq, beq_iff_eq] <;> rfl

/-- Settles O22: EMIT by its limit and its kind of record, MAILP and MAILACK by the box that they find. -/
theorem eventsAndMail : Obligations.EventsAndMail := by
  intro o i t s h f a u see emitted
  refine ⟨fun hcap hr => ⟨fun h1 hf hb hfull => ?full, fun h1 h3 hb hroom => ?contact, fun h4 hf hroom => ?program⟩,
    fun hcap h1 h64 hb hlo hhi hr => ?mailp, fun ha hb hf hr => ?mailack⟩
  case full => rw [exec_emit_runs hr hcap h1 hf hb, if_pos hfull]
  case contact =>
    rw [exec_emit_runs hr hcap h1 (.inl (by omega)) (fun _ => hb), if_neg (Nat.not_le.2 hroom), if_pos h3]
    simp only [emitRec_issued]
    rfl
  case program =>
    rw [exec_emit_runs hr hcap (by omega) hf (fun h3 => absurd h3 (by omega)), if_neg (Nat.not_le.2 hroom),
      if_neg (by omega), emitRec_issued]
    rfl
  case mailp =>
    refine dyrelRow_runs hr ?_ (lacks_of_holds hcap) (if_pos (inRoom_iff.2 ⟨hlo, hhi⟩)) rfl ?_
    · simpa [hb] using ⟨h1, h64⟩
    · simp only [setRegZN_eq, List.isEmpty_iff]
      rfl
  case mailack =>
    refine dyrelRow_runs hr (by simp [plain, ha, hb, hf]) rfl rfl rfl ?_
    simp only [plain, setRegZN_eq, mailLen]
    cases (s.ctx i).mailVis <;> rfl

end Sys2Proof.Machine

/-! The instructions of Dyrel that reach the supplies, the clock, the span, the system and the flash (R261, R263-R266). -/

namespace Sys2Proof.Machine
open Sys2Proof Sys2Proof.Safety

/-! ### LEAVE and TIME -/

/-- The decoding and the rights of LEAVE (R261). -/
theorem leaveLegal_of {o : OpL} (hhi : o.hi = 0) (hb : o.b = 0) (hk : o.lo.toNat % 16 ∈ [2, 4, 5, 6, 7, 8])
    (hrev : 16 ≤ o.lo.toNat → o.lo.toNat % 16 = 8) : leaveLegal o = true := by
  have hclass : leaveClass (o.lo.toNat % 16) = true := by
    have : ∀ k ∈ [2, 4, 5, 6, 7, 8], leaveClass k = true := by decide
    exact this _ hk
  have hbit : o.lo.toNat < 16 ∨ o.lo.toNat % 16 = 8 := (Nat.lt_or_ge o.lo.toNat 16).imp_right hrev
  simpa [leaveLegal, hhi, hb, hclass] using hbit

theorem leaveCap_of {s : State} {i k : Nat} (h5 : s.holds i 5 = true) (h10 : k = 5 → s.holds i 10 = true) :
    leaveCap s i k = none := by
  simp only [leaveCap, lacks_of_holds h5, beq_iff_eq]
  split_ifs with hk
  · exact lacks_of_holds (h10 hk)
  · rfl

theorem classRevocable_eq (k : Nat) : classRevocable k = decide (k ∈ [2, 4, 5]) := by
  rw [Bool.eq_iff_iff]
  simp [classRevocable, or_assoc]

theorem timeValue_inTurn {s : State} {t : Turn} (i k : Nat) (h : s.eng.turn = some t) : timeValue s i k =
    match k with
    | 0 => s.frame.mutComp % 2 ^ 32
    | 1 => s.frame.mutComp / 2 ^ 32
    | 2 => t.used
    | 3 => (s.ctx i).budget - t.used - 1
    | 4 => s.frame.comp
    | 5 => leAt s.eng.frameShelf 40 4
    | _ => leAt s.eng.frameShelf 44 4 := by
  simp only [timeValue, h, Option.map_some, Option.getD_some] <;> rfl

/-- Settles O23: LEAVE answers by the request and the grant of the class that the context has, TIME by its selector. -/
theorem leaveAndTimeOperations : Obligations.LeaveAndTimeOperations := by
  refine ⟨?leave, ?time⟩
  case leave =>
    intro o i t s h hpower hhi hb k cost u hk hrev h10
    have hlegal := leaveLegal_of hhi hb hk hrev
    have hcap := leaveCap_of hpower h10
    constructor
    · refine dyrelRow_runs h hlegal hcap rfl rfl ?_
      simp only [setRegZN_eq, Bool.or_eq_true, decide_eq_true_eq, classRevocable_eq, beq_iff_eq]
      rfl
    · refine dyrelRow_runs h hlegal hcap rfl rfl ?_
      simp only [setRegZN_eq]
      rfl
  case time =>
    intro o i t s h ha hb hf
    obtain ⟨⟨hturn, _⟩, _⟩ := id h
    refine dyrelRow_runs h (by simp [plain, ha, hb, hf]) rfl rfl rfl ((setRegZN_eq _ _ _).trans ?_)
    rw [timeValue_inTurn i _ hturn]
    rfl

/-! ### SPAN -/

/-- Settles O24: a send leaves where somebody is addressed and the limit of the turn allows it; a receive reads the notice of
the entry that runs. -/
theorem spanOperations : Obligations.SpanOperations := by
  intro o i t s h hfeat hcap all mask u
  obtain ⟨⟨hturn, _⟩, _⟩ := id h
  refine ⟨fun hhi hall => ?send, fun hhi ha hb hlo => ?receive⟩
  case send =>
    have hlegal : o.lo.toNat < 16 ∨ o.lo.toNat = 16 := (Nat.lt_or_ge o.lo.toNat 16).imp_right hall
    refine dyrelRow_runs h ?_ (lacks_of_holds hcap) rfl rfl ?_
    · simpa [hfeat, hhi] using hlegal
    · simp only [hturn, Option.map_some, Option.getD_some, setRegZN_eq, Bool.and_eq_true, bne_iff_ne, decide_eq_true_eq]
      rfl
  case receive =>
    refine dyrelRow_runs h (by simp [hfeat, hhi, ha, hb, hlo]) (lacks_of_holds hcap) rfl rfl ?_
    simp only [hturn, Option.bind_some]
    cases t.msg with
    | none => exact setRegZN_eq _ _ _
    | some m =>
      by_cases hm : m.word % 256 = 4
      · simp only [hm, beq_self_eq_true, if_true, setRegZN_eq]
        rfl
      · simp only [hm, beq_iff_eq, if_false, setRegZN_eq]
        rfl

/-! ### SYS and MEM -/

section
variable {i cap : Nat} {t : Turn} {s : State} {o : OpS}

/-- What a SYS function does where the context holds its capability: the result and the effect that it gives, or 0 (R265). -/
theorem sysRow_runs {f : Nat → Word → Word → State → Option (Word × (State → State))} (h : runs i 4 t s) (hr : o.rsv = 0)
    (hcap : s.holds i cap = true) : sysRow cap o f s = .next (after i (
      match f i (s.reg i o.a) (s.reg i o.b) s with
      | some (d, g) => putZN i o.d d (g (issued i 4 s))
      | none => putZN i o.d 0 (issued i 4 s))) := by
  refine dyrelRow_runs h (beq_iff_eq.2 hr) (lacks_of_holds hcap) rfl rfl ?_
  cases f i (s.reg i o.a) (s.reg i o.b) s with
  | none => exact setRegZN_eq _ _ _
  | some x => exact setRegZN_eq _ _ _

/-- A SYS function that answers 1 and acts where a condition holds, and answers 0 elsewhere. -/
theorem sysRow_answers {f : Nat → Word → Word → State → Option (Word × (State → State))} {g : State → State} {ok : Prop}
    [Decidable ok] (h : runs i 4 t s) (hr : o.rsv = 0) (hcap : s.holds i cap = true)
    (hf : f i (s.reg i o.a) (s.reg i o.b) s = if ok then some (1, g) else none) :
    sysRow cap o f s =
      .next (after i (if ok then putZN i o.d 1 (g (issued i 4 s)) else putZN i o.d 0 (issued i 4 s))) := by
  rw [sysRow_runs h hr hcap, hf]
  split_ifs <;> rfl

end

/-- Settles O25: each function gives its effect under its condition; CALRD gives the register that it names. -/
theorem systemFunctions : Obligations.SystemFunctions := by
  intro o i t s h hr a b u answer
  refine ⟨fun hcap => ?ledger, fun hcap => ?fan, fun hcap => ?backlight, fun hcap => ?profile, fun hcap => ?freeze,
    fun hcap => ?calrd⟩
  case ledger =>
    change execSysLedger o s = _
    exact sysRow_answers (g := fun u => { u with led.period.progs := modAt (fun v => min 0xFFFFFFFF (v + a)) b u.led.period.progs })
      h hr hcap (by simp [a, b])
  case fan =>
    change execSysFan o s = _
    exact sysRow_answers (g := fun u => u.modRun i (fun r => { r with fanReq := r.fanReq.set b a })) h hr hcap
      (by simp [a, b, and_assoc])
  case backlight =>
    change execSysBacklight o s = _
    exact sysRow_answers (g := fun u => u.modRun i (fun r => { r with blReq := r.blReq.set b (some a) })) h hr hcap
      (by simp [a, b, and_assoc])
  case profile =>
    change execSysProfile o s = _
    exact sysRow_answers (g := assignProfile b a (stockProfile a)) h hr hcap (by simp [a, b, State.inSpan, and_assoc])
  case freeze =>
    change execSysFreeze o s = _
    exact sysRow_answers (g := fun u => { u with eng.freezeNext := some a }) h hr hcap rfl
  case calrd =>
    change execSysCalrd o s = _
    refine (sysRow_runs h hr hcap).trans (congrArg (fun v => Host.Outcome.next (after i v)) ?_)
    simp only [Bool.or_eq_true, Bool.and_eq_true, beq_iff_eq, decide_eq_true_eq, and_assoc, a, b]
    split_ifs
    · rfl
    · cases calReg s (s.reg i o.a).toNat (s.reg i o.b).toNat (s.reg i o.b).toNat <;> rfl

/-- Settles O26: START answers by its descriptor and starts the transfer with the answer 0, POLL by the state of the last. -/
theorem memoryTransfers : Obligations.MemoryTransfers := by
  intro o i t s h hr hb hcap a d u
  refine ⟨fun hlo hhi => ?start, fun ha => ?poll⟩
  case start =>
    refine dyrelRow_runs h (by simp [hr, hb]) (lacks_of_holds hcap) (if_pos (inRoom_iff.2 ⟨hlo, hhi⟩)) rfl
      ((setRegZN_eq _ _ _).trans ?_)
    simp only [beq_iff_eq]
    rfl
  case poll =>
    exact dyrelRow_runs h (by simp [hr, hb, ha]) (lacks_of_holds hcap) rfl rfl (setRegZN_eq _ _ _)

end Sys2Proof.Machine

/-! Program images: load sessions and what they take, verification and binding, and the keys of the one-time-programmable memory
(R278-R283, R286-R288, R295-R297). -/

namespace Sys2Proof.Machine
open Sys2Proof Sys2Proof.Safety

/-! ### Acceptance of a command that its own rules can lock -/

/-- The steps of R303 on a command that is ordinary but for its lock. -/
theorem verdict_lockable (u : HostUnit) (k : Checks) (d : State) (h : { k with locked := false }.ordinary) :
    verdict u.port (d.port u.port).session k d = 0 ↔
      served k.feats k.longest u d ∧ k.locked = false ∧ k.ownSteps d := by
  obtain ⟨hs, hf, he, hsafe, -⟩ := h
  dsimp only at hs hf he hsafe
  simp only [verdict_eq_zero, hs, hf, he, hsafe, served, inSession, fits, notFollower, full_eq_false_iff_spare,
    Checks.ownSteps, Bool.false_eq_true, or_false, false_or, true_and]
  constructor
  · rintro ⟨hses, hacc, hfeat, hmode, hlock, hlen, hfit, hown⟩
    exact ⟨⟨hses, hacc, hfeat, hmode, hfit⟩, hlock, hlen, hown⟩
  · rintro ⟨⟨hses, hacc, hfeat, hmode, hfit⟩, hlock, hlen, hown⟩
    exact ⟨hses, hacc, hfeat, hmode, hlock, hlen, hfit, hown⟩

/-- The byte that names a context, as the checks of the commands have it. -/
theorem byteAt_zero_eq_ctxIn (pl : List Byte) : byteAt pl 0 = ctxIn pl := rfl

/-- The count of open load sessions, as the checks of the commands have it. -/
theorem length_filter_eq_openSessions (d : State) : (d.eng.sessions.filter (·.flash.isNone)).length = d.openSessions := rfl

/-- A unit that names a context which its port owns or nobody will (R217). -/
theorem ctxPerm_of_lt (p : Port) (pl : List Byte) (d : State) (h : ctxIn pl < 32) :
    ctxPerm p pl d = true ↔ (d.fut (ctxIn pl)).st = 0 ∨ (d.fut (ctxIn pl)).owner = p := by
  simp [ctxPerm, State.mayCtx, Nat.not_le.2 h]

/-! ### Sessions -/

/-- Bytes are kept; those that complete a header have it checked, and space reserved for its code (R224, R279, R280). -/
theorem appendData_some {k : Nat} (data : List Byte) {s : State} {x : Session} (hx : s.session k = some x) :
    let b := x.bytes ++ data
    let t := modSession false k (fun e => { e with bytes := b }) s
    let r := headerResult s (s.ctx k).caps (some x.length) (b.take 64)
    appendData k data s =
      if x.bytes.length < 64 ∧ 64 ≤ b.length then
        if r ≠ 0 then (r, dropSession false k s)
        else (reserve false k (hdrCode b) t).elim (0x07, dropSession false k s) (Prod.mk 0)
      else (0, t) := by
  simp only [appendData, hx, Bool.and_eq_true, decide_eq_true_eq, bne_iff_ne]
  cases reserve false k (hdrCode (x.bytes ++ data)) (modSession false k (fun e => { e with bytes := x.bytes ++ data }) s) <;> rfl

/-! ### The end of a verification -/

/-- The row ends the verification with the state that the context will have (R282, R303). -/
theorem exec_imgVerifyDone (k : Nat) (s : State) :
    exec (.imgVerifyDone k) s = .next (verifyDone k (decide ((s.fut k).st = 3)) s) := rfl

/-- A load ends in one of three ways: it fails, it is verified for a context that runs, or it waits to be bound (R281, R282). -/
theorem ending_cases (r st : Nat) (fails verified waits : State) :
    let t := if r ≠ 0 then fails else if decide (st = 3) then verified else waits
    (r ≠ 0 → t = fails) ∧ (r = 0 → st = 3 → t = verified) ∧ (r = 0 → st ≠ 3 → t = waits) := by
  refine ⟨fun hr => if_pos hr, fun hr hst => ?_, fun hr hst => ?_⟩
  · simp only [hr, hst, ne_eq, not_true_eq_false, if_false, decide_true, if_true]
  · simp only [hr, hst, ne_eq, not_true_eq_false, if_false, decide_false, Bool.false_eq_true]

section
variable {k : Nat} {s : State} {x : Session} (runs : Bool)
  (hx : s.eng.sessions.find? (fun e => e.ctx == k && e.verifying.isSome) = some x)
include hx

/-- A load session whose image came whole is checked, and then bound, but to no context that runs (R281, R282). -/
theorem verifyDone_session (hflash : x.flash = none) :
    let r := if x.short then 0x0E else finalResult s (s.ctx k).caps x.length x.bytes
    verifyDone k runs s =
      if r ≠ 0 then failLoad false k (x.verifying.getD 0) r s
      else if runs then completeTag (x.verifying.getD 0) 0x08 [] (modSession false k (fun e => { e with verifying := none }) s)
      else awaitBind false k (x.verifying.getD 0) x x.bytes none s := by
  simp only [verifyDone, hx, hflash, bne_iff_ne]

variable {off : Nat} {xip : Bool} (hflash : x.flash = some (off, xip))
include hflash

/-- An image that cannot be read from flash, or whose header fails its checks, ends the load (R283, R288). -/
theorem verifyDone_flash_unread (hr : (if x.bad then 0x0F else (flashImage s (s.ctx k).caps off).1) ≠ 0) :
    verifyDone k runs s = failLoad true k (x.verifying.getD 0) (if x.bad then 0x0F else (flashImage s (s.ctx k).caps off).1) s := by
  simp only [verifyDone, hx, hflash, bne_iff_ne, if_pos hr]

variable (hr : (if x.bad then 0x0F else (flashImage s (s.ctx k).caps off).1) = 0)
include hr

/-- An image in flash that has its place, or needs none, is checked as one that came from a host is (R283). -/
theorem verifyDone_flash_placed {v : State}
    (hv : (if xip then some s else reserve true k (hdrCode (flashImage s (s.ctx k).caps off).2) s) = some v) :
    let b := (flashImage s (s.ctx k).caps off).2
    let r := finalResult v (s.ctx k).caps (imgLength b) b
    verifyDone k runs s =
      if r ≠ 0 then failLoad true k (x.verifying.getD 0) r v
      else if runs then completeTag (x.verifying.getD 0) 0x08 [] (dropSession true k v)
      else awaitBind true k (x.verifying.getD 0) ((v.loading k).getD x) b (if xip then some (off + 64) else none) v := by
  simp only [verifyDone, hx, hflash, bne_iff_ne, hr, hv, ne_eq, not_true_eq_false, if_false]

/-- Without room in the code store the load ends (R224, R288). -/
theorem verifyDone_flash_full
    (hv : (if xip then some s else reserve true k (hdrCode (flashImage s (s.ctx k).caps off).2) s) = none) :
    verifyDone k runs s = failLoad true k (x.verifying.getD 0) 0x07 s := by
  simp only [verifyDone, hx, hflash, bne_iff_ne, hr, hv, ne_eq, not_true_eq_false, if_false]

end

/-! ### Bindings -/

@[simp] theorem raise_eng (p : Port) (s : State) : (raise p s).eng = s.eng := by rw [raise_frame]

/-- A completion touches neither the contexts nor the engine. -/
theorem completeTag_keeps (t err : Nat) (comp : List Byte) (s : State) :
    (completeTag t err comp s).ctxs = s.ctxs ∧ (completeTag t err comp s).eng = s.eng := by
  unfold completeTag
  split
  · exact ⟨rfl, rfl⟩
  · split
    · exact ⟨rfl, rfl⟩
    · exact ⟨raise_ctxs _ _, raise_eng _ _⟩

@[simp] theorem completeTag_ctx (t err : Nat) (comp : List Byte) (s : State) (j : Nat) :
    (completeTag t err comp s).ctx j = s.ctx j :=
  congrArg (fun cs : List Ctx => cs.getD j .closed) (completeTag_keeps t err comp s).1

@[simp] theorem completeTag_eng (t err : Nat) (comp : List Byte) (s : State) : (completeTag t err comp s).eng = s.eng :=
  (completeTag_keeps t err comp s).2

/-- A context that runs is never rebound, and the tag completes with BUSY_CONTEXT (R281). -/
theorem bindOne_running {w : BindWait} {s : State} (h : (s.ctx w.ctx).st = 3) :
    bindOne w s = completeTag w.tag 0x08 [] { s with eng.binds := s.eng.binds.filter (fun x => x.ctx != w.ctx) } :=
  if_pos (beq_iff_eq.2 h)

/-- A closed context takes no program, and the tag completes with ABORTED (R287). -/
theorem bindOne_closed {w : BindWait} {s : State} (h : (s.ctx w.ctx).st = 0) :
    bindOne w s = completeTag w.tag 0x09 [0x0D] { s with eng.binds := s.eng.binds.filter (fun x => x.ctx != w.ctx) } :=
  (if_neg (by rw [beq_iff_eq]; exact fun h3 => absurd (h.symm.trans h3) (by decide))).trans (if_pos (beq_iff_eq.2 h))

/-- A binding of a context that neither runs nor is closed releases the program before it and loads its own (R281). -/
theorem bindOne_binds {w : BindWait} {s : State} (hrun : (s.ctx w.ctx).st ≠ 3) (hclosed : (s.ctx w.ctx).st ≠ 0) :
    let base := if w.img.xip then w.img.base else w.place.getD 0
    bindOne w s = completeTag w.tag 0 ([0] ++ le 4 w.img.estimate)
      ({ s with
        eng.binds := s.eng.binds.filter (fun x => x.ctx != w.ctx)
        eng.code := if w.img.xip then s.eng.code else Memory.writeN 0 s.eng.code base w.code }.modCtx w.ctx
          (fun c => { c with st := 2, prog := .image, img := { w.img with base := base } })) := by
  refine (if_neg (mt beq_iff_eq.1 hrun)).trans ((if_neg (mt beq_iff_eq.1 hclosed)).trans ?_)
  cases w.img.xip <;> rfl

/-! ### Keys -/

/-- A slot is written, or SIGREQ alone where the write names no slot (R296, R297). -/
theorem keyProgDone_some (good : Bool) {s : State} {w : OtpWrite} (hw : s.otp.write = some w) :
    exec (.keyProgDone good) s = .next (
      let o := { s.otp with write := none }
      let p := setSlot w.ledger w.slot { hash := w.hash, check := crc32c w.hash, lock := good } o
      if w.slot = 2 then completeOpt w.tag 0 [] { s with otp := { o with sigreq := true } }
      else if good then completeOpt w.tag 0 [] { s with otp := { p with sigreq := p.sigreq || w.sigreq } }
      else completeOpt w.tag 0x0D [] { s with otp := p }) := by
  change execKeyProgDone good s = _
  simp only [execKeyProgDone, hw, beq_iff_eq]
  cases w.sigreq <;> simp

/-- Settles O36: acceptance is taken apart by `carries_ordinary`, and by `verdict_lockable` for the key write, which its own
rules lock; the rows without a unit are taken apart into the ways in which they end. -/
theorem imageCommands : Obligations.ImageCommands := by
  refine ⟨⟨?begin, ?data, ?append, ?endSession, ?fromFlash, ?abort, ?keyProg⟩, ?keyWrite, ?verifyDone, ?bind, ?idle,
    ?noKey, ?key⟩
  case begin =>
    refine carries_ordinary (fun _ _ => rfl) (fun _ _ => ⟨rfl, rfl, rfl, rfl, rfl⟩) (fun u d => ?_) (fun u e => rfl)
    simp [cmdImgBegin, Checks.ownSteps, ofCtx_iff_steps, imgFeats, byteAt_zero_eq_ctxIn, length_filter_eq_openSessions,
      and_assoc]
    tauto
  case data =>
    refine carries_ordinary (fun _ _ => rfl) (fun _ _ => ⟨rfl, rfl, rfl, rfl, rfl⟩) (fun u d => ?_) (fun u e => ?_)
    · cases hx : d.session (ctxIn u.payload) <;>
        simp [cmdImgData, Checks.ownSteps, ofCtx_iff_steps, imgFeats, chunkMax, chunkTaken, byteAt_zero_eq_ctxIn, hx, and_assoc]
    · simp only [cmdImgData, beq_iff_eq, bne_iff_ne, ite_not]
      rfl
  case append =>
    intro k data s x hx
    have happend := appendData_some data hx
    refine ⟨fun hno => happend.trans (if_neg hno),
      fun hfirst hr => happend.trans ((if_pos hfirst).trans (if_pos hr)), fun hfirst hr => ?_⟩
    refine happend.trans ((if_pos hfirst).trans ((if_neg (not_not.2 hr)).trans ?_))
    cases reserve false k (hdrCode (x.bytes ++ data))
      (modSession false k (fun e => { e with bytes := x.bytes ++ data }) s) <;> rfl
  case endSession =>
    refine carries_ordinary (fun _ _ => rfl) (fun _ _ => ⟨rfl, rfl, rfl, rfl, rfl⟩) (fun u d => ?_) (fun u e => rfl)
    simp [cmdImgEnd, Checks.ownSteps, ofCtx_iff_steps, imgFeats, Option.isSome_iff_ne_none, byteAt_zero_eq_ctxIn, and_assoc]
    tauto
  case fromFlash =>
    refine carries_ordinary (fun _ _ => rfl) (fun _ _ => ⟨rfl, rfl, rfl, rfl, rfl⟩) (fun u d => ?_) (fun u e => ?_)
    · simp [cmdImgFromFlash, Checks.ownSteps, ofCtx_iff_steps, imgFeats, Option.isSome_iff_ne_none, byteAt_zero_eq_ctxIn,
        and_assoc]
      tauto
    · simp only [cmdImgFromFlash, beq_eq_decide]
      rfl
  case abort =>
    refine carries_ordinary (fun _ _ => rfl) (fun _ _ => ⟨rfl, rfl, rfl, rfl, rfl⟩) (fun u d => ?_) (fun u e => rfl)
    have hperm := ctxPerm_of_lt u.port u.payload d
    simp [cmdImgAbort, Checks.ownSteps, imgFeats, Option.isSome_iff_ne_none, byteAt_zero_eq_ctxIn]
    tauto
  case keyProg =>
    refine carries_of_judged (fun _ _ => rfl) (fun u s _ => ?_) (fun u e => rfl)
    refine (verdict_lockable u _ _ ⟨rfl, rfl, rfl, rfl, rfl⟩).trans ?_
    simp [cmdImgKeyProg, Checks.ownSteps, imgFeats, Option.isSome_iff_ne_none]
    tauto
  case keyWrite =>
    intro pl s
    unfold keyWrite blankSlot
    cases s.imgKey with
    | none => simp only [bit_eq_testBit]; split_ifs <;> rfl
    | some h => simp [bit_eq_testBit, and_assoc]
  case verifyDone =>
    intro k s
    simp only [exec_imgVerifyDone]
    cases hx : s.eng.sessions.find? (fun x => x.ctx == k && x.verifying.isSome) with
    | none => simp only [verifyDone, hx]
    | some x =>
      cases hflash : x.flash with
      | none =>
        simp only [hflash, verifyDone_session _ hx hflash, Host.Outcome.next.injEq]
        exact ending_cases _ _ _ _ _
      | some fl =>
        obtain ⟨off, xip⟩ := fl
        simp only [hflash]
        refine ⟨fun hr => ?_, fun hr v hv => ?_, fun hr hxip hv => ?_⟩
        · rw [verifyDone_flash_unread _ hx hflash hr, failLoad]
        · simp only [verifyDone_flash_placed _ hx hflash hr hv, Host.Outcome.next.injEq]
          exact ending_cases _ _ _ _ _
        · rw [verifyDone_flash_full _ hx hflash hr (by simpa [hxip] using hv), failLoad]
  case bind =>
    intro w s a
    refine ⟨bindOne_running, bindOne_closed, fun hrun hclosed hctx => ?_⟩
    simp only [bindOne_binds hrun hclosed, completeTag_ctx, completeTag_eng]
    exact ⟨State.ctx_modCtx_same _ _ _ hctx, rfl, fun j hj => State.ctx_modCtx_other _ _ _ _ hj⟩
  case idle =>
    intro k s
    refine ⟨fun ⟨⟨x, hx, hv⟩, hm⟩ => congrArg Host.Outcome.next ?_, fun hc => congrArg Host.Outcome.next ?_⟩
    · simp [hx, hv, hm]
    · cases hx : s.session k with
      | none => rfl
      | some x =>
        refine if_neg (fun hb => hc ?_)
        obtain ⟨hv, hm⟩ : x.verifying = none ∧ s.aon.mode ≠ .hibernate := by simpa using hb
        exact ⟨⟨x, hx, hv⟩, hm⟩
  case noKey =>
    intro good s hw
    change execKeyProgDone good s = _
    simp only [execKeyProgDone, hw]
  case key =>
    intro good s w hw
    have h := keyProgDone_some good hw
    exact ⟨fun h2 => h.trans (congrArg _ (if_pos h2)), fun h2 hg => h.trans (congrArg _ ((if_neg h2).trans (if_pos hg))),
      fun h2 hg => h.trans (congrArg _ ((if_neg h2).trans (if_neg (by simp [hg]))))⟩

end Sys2Proof.Machine

/-! The status byte of a port, the checks of R303 in their order, and what a refusal leaves (R301, R303, R325, R336). -/

namespace Sys2Proof.Machine
open Sys2Proof Sys2Proof.Safety

/-! ### Flags packed into a number -/

theorem flag_lt_two (b : Bool) : flag b < 2 := by cases b <;> decide

/-- Each bit of a number packed from flags is its flag, and beyond the last flag there is none. -/
theorem testBit_flagsOf (bs : List Bool) (k : Nat) : (flagsOf bs).testBit k = bs.getD k false := by
  induction bs generalizing k with
  | nil => simp [flagsOf]
  | cons b bs ih =>
    cases k with
    | zero => cases b <;> simp [flagsOf, flag]
    | succ k =>
      have hdiv : (flag b + 2 * flagsOf bs) / 2 = flagsOf bs := by
        have := flag_lt_two b
        omega
      simp only [flagsOf, Nat.testBit_succ, hdiv, ih, List.getD_cons_succ]

theorem flagsOf_lt (bs : List Bool) : flagsOf bs < 2 ^ bs.length := by
  induction bs with
  | nil => simp [flagsOf]
  | cons b bs ih =>
    have := flag_lt_two b
    rw [List.length_cons, Nat.pow_succ, flagsOf]
    omega

/-- Settles O27: the status byte and the causes are packed from flags, and each bit is its flag. -/
theorem statusByteBits : Obligations.StatusByteBits := by
  intro p s
  have hbit (k : Nat) : (statusByte p s).testBit k = _ := testBit_flagsOf _ k
  have hcause (k : Nat) : (s.causes p).testBit k = _ := testBit_flagsOf _ k
  refine ⟨(flagsOf_lt _).trans_eq (by simp), hbit 7, hbit 6, ?_, hbit 4, hbit 3, hbit 2, hbit 1, ?_, hcause 0, ?_,
    hcause 3, hcause 4, hcause 5, hcause 6⟩
  · simp [hbit 5, bne, beq_eq_decide]
  · simp [hbit 0, bne, beq_eq_decide]
  · refine (hcause 1).trans ?_
    cases p <;> rfl

/-! ### The order of checks -/

/-- A chain of checks: where the first fails it is the verdict, and where it passes the rest of the chain is. -/
theorem check_first {v a w : Nat} {fails passes rest : Prop} [Decidable fails] (hv : v = if fails then a else w)
    (hp : passes → ¬ fails) (hrest : v = w → rest) : (fails → v = a) ∧ (passes → rest) :=
  ⟨fun h => hv.trans (if_pos h), fun h => hrest (hv.trans (if_neg (hp h)))⟩

/-- The steps of R303 from step 3 on. -/
theorem verdict_steps (p : Port) (session : Bool) (k : Checks) (s : State) : verdict p session k s =
    if k.served = false then 0x01
    else if ¬ ((k.free = true ∨ session = true) ∧ (k.early = true ∨ s.chan.accepted ≠ none)) then 0x07
    else if k.feats.all s.feat = false then 0x01
    else if (s.aon.mode = .safe ∧ k.safe = false) ∨ k.locked = true then 0x0F
    else if k.lenOk = false ∨ (p = .hs ∧ s.pins.hsm = true ∧ s.hs.wlen / 8 - 8 < k.longest) then 0x02
    else if k.held = true ∧ (s.span.role = 3 ∨ s.span.role = 4) then 0x0C
    else if k.perm = false then 0x05
    else if k.busy = true then 0x08
    else if k.inRange = false then 0x0D
    else if k.flight = true ∧ s.full k.ctx = true then 0x06
    else 0 := by
  have hneg : (!k.free && !session || !k.early && s.chan.accepted.isNone) = true ↔
      ¬ ((k.free = true ∨ session = true) ∧ (k.early = true ∨ s.chan.accepted ≠ none)) := by
    simp only [Classical.not_and_iff_not_or_not, not_or, Bool.or_eq_true, Bool.and_eq_true, Bool.not_eq_true', Bool.not_eq_true,
      Option.isNone_iff_eq_none, ne_eq, not_not]
  unfold verdict
  simp only [hneg, Bool.not_eq_true', Bool.or_eq_true, Bool.and_eq_true, beq_iff_eq, decide_eq_true_eq, and_assoc]

/-- Settles O28: the verdict is a chain of checks, taken apart one step after another. -/
theorem checksOfACommandInOrder : Obligations.ChecksOfACommandInOrder := by
  intro p session k s v negotiated follower safeLock tooLong
  refine check_first (verdict_steps p session k s) (by simp) fun hv => ?_
  refine check_first hv not_not_intro fun hv => ?_
  refine check_first hv (by simp) fun hv => ?_
  refine check_first hv id fun hv => ?_
  refine check_first hv id fun hv => ?_
  refine check_first hv id fun hv => ?_
  refine check_first hv (by simp) fun hv => ?_
  refine check_first hv (by simp) fun hv => ?_
  refine check_first hv (by simp) fun hv => ?_
  exact check_first hv id id

/-- Settles O29: a refusal is a reply, and QFUL where the bounds of R304 are the reason. -/
theorem aRefusedCommandHasNoEffect : Obligations.ARefusedCommandHasNoEffect := by
  intro code resync c u s hp v d h0 hD
  rw [hostUnit_refused code resync c u s v hp rfl h0]
  simp only [beq_iff_eq, hD, if_false]
  rfl

end Sys2Proof.Machine

/-! The block as a whole: every command answers a next state, and no step puts a command into the queue (R236, R303, R306). -/

namespace Sys2Proof.Machine
open Sys2Proof Sys2Proof.Safety

/-- Settles O2: the arm of each command gives a next state, whatever the command's condition. -/
theorem everyCommandAnswersANextState : Obligations.EveryCommandAnswersANextState := by
  intro c s
  cases c <;> exact ⟨_, rfl⟩

/-- A command leaves the queue as it is. -/
theorem exec_pending {c : Instr} {s t : State} (h : exec c s = .next t) : t.pending = s.pending := by
  have hsteady := exec_steady c (steady.refl s)
  rw [h] at hsteady
  exact hsteady.1

/-- Settles O60: the front command is taken off, and neither its effect nor idle time changes what waits behind it. -/
theorem theQueueOnlyShrinks : Obligations.TheQueueOnlyShrinks := by
  intro s t h
  cases hq : s.pending with
  | nil =>
    rw [step_nil hq] at h
    cases h
    exact (idle_steady (steady.refl s)).1.trans hq
  | cons c cs =>
    rw [step_of_pending hq] at h
    exact exec_pending h

end Sys2Proof.Machine

/-! Gap records, spill chunks and the open period of the ledger (R322, R507, R511, R516, R517, R523). -/

namespace Sys2Proof.Machine
open Sys2Proof Sys2Proof.Safety

/-! ### Gap records of queues -/

/-- A context's queue that dropped records and has room again has its gap recorded (R322). -/
theorem exec_queueGap_ctx {i : Nat} (hi : i < 32) (s : State) : exec (.queueGap i) s = .next (
    if 0 < (s.ctx i).queue.lost ∧ (s.ctx i).queue.recs.length < 64 then
      record 0x7F ([0x01, BitVec.ofNat 8 i] ++ le 2 (s.ctx i).queue.lost ++ zeros 4)
        (s.modCtx i (fun c => { c with queue.lost := 0 }))
    else s) := by
  change execQueueGap i s = _
  simp only [execQueueGap, if_pos hi, Bool.and_eq_true, decide_eq_true_eq, b8]

/-- The same of the house queue of a port, numbered from 0x40 on. -/
theorem exec_queueGap_port (p : Port) (s : State) : exec (.queueGap (0x40 + portNum p)) s = .next (
    if 0 < (s.port p).house.lost ∧ (s.port p).house.recs.length < 64 then
      record 0x7F ([0x01, BitVec.ofNat 8 (0x40 + portNum p)] ++ le 2 (s.port p).house.lost ++ zeros 4)
        (s.modPort p (fun q => { q with house.lost := 0 }))
    else s) := by
  change execQueueGap _ s = _
  cases p <;> simp [execQueueGap, portNum, b8]

/-! ### Spill -/

theorem exec_spillChunk_idle {s : State} (h : s.spillOn = false ∨ s.jrn.waiting = []) : exec .spillChunk s = .next s := by
  change execSpillChunk s = _
  unfold execSpillChunk
  rcases h with h | h
  · simp [h]
  · simp only [h, ite_self]

/-- A chunk is written where none waits in the port, and 15 records wait or the oldest is 10 s old (R507). -/
theorem exec_spillChunk_due {s : State} {r : Rec} {rs : List Rec} (hon : s.spillOn = true)
    (hport : ∀ o ∈ s.mem.waiting, o.who ≠ 1) (hwait : s.jrn.waiting = r :: rs)
    (hdue : 14 ≤ rs.length ∨ r.time + 10240000 ≤ s.clk.tb) : exec .spillChunk s = .next (spillChunk s) := by
  have hnone : (!s.spillOn || s.mem.waiting.any (fun o => o.who == 1)) = false := by simpa [hon] using hport
  change execSpillChunk s = _
  simp only [execSpillChunk, hnone, hwait, Bool.false_eq_true, if_false, Bool.or_eq_true, decide_eq_true_eq, if_pos hdue]

/-! ### The ledger -/

/-- Settles O51: each row is its function of the journal or of the ledger, taken apart into the cases of its condition. -/
theorem journalAndLedgerRows : Obligations.JournalAndLedgerRows := by
  refine ⟨?ctxGap, ?portGap, ?spill, ?noSpill, ?close, ?closed, ?checkpoint, ?second, ?idle⟩
  case ctxGap => exact fun i hi => actsWhen_of (exec_queueGap_ctx hi) (fun s h => if_pos h) (fun s h => if_neg h)
  case portGap => exact fun p => actsWhen_of (exec_queueGap_port p) (fun s h => if_pos h) (fun s h => if_neg h)
  case spill => exact fun s r rs => exec_spillChunk_due
  case noSpill => exact fun s => exec_spillChunk_idle
  case close => exact actsWhen_if (fun s => s.wc.set && s.nb ≤ s.wc.secs) (fun _ => rfl) (fun s => by simp)
  case closed => exact fun at_ fl new s => ⟨rfl, rfl⟩
  case checkpoint => exact actsWhen_if (fun s => s.led.running) (fun _ => rfl) (fun s => Iff.rfl)
  case second =>
    intro s hrun
    have hactive : flag (s.aon.mode == .active || s.aon.mode == .service) =
        if s.aon.mode = .active ∨ s.aon.mode = .service then 1 else 0 := by simp [flag]
    refine ⟨_, congrArg Host.Outcome.next (if_neg (by simp [hrun])), rfl, rfl, ?_, ?_, rfl, rfl, rfl, rfl⟩
    · simp [ledTouches, hrun, satAdd]
    · rw [← hactive]
      rfl
  case idle => exact fun s hrun => congrArg Host.Outcome.next (if_pos (by simp [hrun]))

end Sys2Proof.Machine

/-! Acceptance by the steps of R303 in the terms of the statements, and the commands of a session (R303, R309, R327-R335, R349,
R380). -/

namespace Sys2Proof.Machine
open Sys2Proof Sys2Proof.Safety

/-! ### Acceptance of any command -/

/-- The steps of R303 on a unit, of a command with whatever checks. -/
theorem verdict_unit (u : HostUnit) (k : Checks) (d : State) :
    verdict u.port (d.port u.port).session k d = 0 ↔
      k.served = true ∧ (k.free = true ∨ inSession u d) ∧ (k.early = true ∨ d.chan.accepted ≠ none) ∧
      k.feats.all d.feat = true ∧ (d.aon.mode ≠ .safe ∨ k.safe = true) ∧ k.locked = false ∧ fits k.longest u d ∧
      k.ownSteps d := by
  simp only [verdict_eq_zero, inSession, fits, notFollower, full_eq_false_iff_spare, Checks.ownSteps]
  tauto

/-- A row carries its command out under the condition that the steps of R303 come to. -/
theorem carriesAs_of_verdict {resync : Bool} {mk : HostUnit → Instr} {code : Nat} {c : Cmd} {at_ : HostUnit → HostUnit}
    {cond : HostUnit → State → Prop} {f : HostUnit → State → Reply × State}
    (hport : ∀ u, (at_ u).port = u.port) (hrow : ∀ u s, exec (mk u) s = .next (hostUnit code resync c (at_ u) s))
    (hcond : ∀ (u : HostUnit) (d : State),
      verdict u.port (d.port u.port).session (c.checks u.port u.payload d) d = 0 ↔ cond u d)
    (hrun : ∀ (u : HostUnit) (e : State), c.run u.port u.payload e = f u e) : carriesAs resync mk code c at_ cond f := by
  intro u s hp
  have hj : judged code resync c (at_ u) s = 0 ↔ cond (at_ u) (reached code resync (at_ u) s) := hcond _ _
  refine ⟨hj, fun hc => ?_⟩
  rw [hrow, hostUnit_accepted code resync c (at_ u) s ⟨hp, hj.2 hc⟩, hrun, hport]

/-- How the model writes that one flag needs another. -/
theorem eq_false_or_iff_imp (a : Bool) (p : Prop) : a = false ∨ p ↔ (a = true → p) := by cases a <;> simp

/-! ### Sessions and sets -/

theorem exec_status_tw (u : HostUnit) (s : State) (hu : u.port = .tw) (hs : s.serves = true) : exec (.status u) s = .next
    ((twBegin s).modPort .tw (fun q => { q with
      out := [b8 (statusByte .tw (twBegin s)),
        b8 (crc8 [b8 (twBegin s).twAddr, 0, b8 ((twBegin s).twAddr + 1), b8 (statusByte .tw (twBegin s))])] })) := by
  change execStatus u s = _
  simp [execStatus, hu, twStatus, hs]

theorem exec_status_hs (u : HostUnit) (s : State) (hu : u.port = .hs) :
    exec (.status u) s = .next (hostUnit 0x00 false cmdStatus u s) := by
  change execStatus u s = _
  simp [execStatus, hu]

/-- The requirements of R309 on a set, one by one. -/
theorem setOk_iff (f : FeatSet) (d : State) : setOk d f = true ↔
    f &&& ~~~d.offered = 0 ∧ ¬ (f.getLsbD 17 = true ∧ f.getLsbD 18 = true) ∧
    (f.getLsbD 33 = true ∨ f.getLsbD 34 = true ∨ f.getLsbD 35 = true ∨ f.getLsbD 36 = true → f.getLsbD 32 = true) ∧
    (f.getLsbD 34 = true ∨ f.getLsbD 49 = true → f.getLsbD 48 = true) ∧ (f.getLsbD 65 = true → f.getLsbD 64 = true) ∧
    (f.getLsbD 35 = true ∨ f.getLsbD 81 = true ∨ f.getLsbD 82 = true → f.getLsbD 80 = true) ∧
    (f.getLsbD 84 = true → f.getLsbD 83 = true) := by
  have hboth (a b : Bool) : (a && b) = false ↔ ¬ (a = true ∧ b = true) := by cases a <;> simp
  simp only [setOk, Bool.and_eq_true, hboth, beq_iff_eq, Bool.or_eq_true, Bool.not_eq_true', eq_false_or_iff_imp,
    and_assoc, or_assoc]

/-- A set without LEDGER and SPAN starts neither. -/
theorem acceptSet_plain (f : FeatSet) (s : State) (hledger : f.getLsbD 83 = false) (hspan : f.getLsbD 48 = false) :
    acceptSet f s = settle { s with chan.accepted := some f, tw.pecReq := f.getLsbD 16, tw.fmPlus := f.getLsbD 20 } := by
  simp only [acceptSet, hledger, hspan, Bool.false_eq_true, if_false, Bool.false_and]

/-- Settles O33: acceptance is taken apart by `verdict_unit`; what a command does is its own function. -/
theorem sessionCommands : Obligations.SessionCommands := by
  refine ⟨?statusTw, ?statusHs, ?featAccept, acceptSet_plain, ?sessionOpen, fun _ _ _ => rfl, ?faultClear, fun _ _ _ => rfl,
    ?aliveResync⟩
  case statusTw => exact exec_status_tw
  case statusHs =>
    intro u s hu hp
    have hj : judged 0x00 false cmdStatus u s = 0 ↔ u.payload.length = 0 := by
      refine (verdict_unit u _ _).trans ?_
      simp [cmdStatus, Checks.ownSteps, fits]
    refine ⟨hj, fun hlen => ?_⟩
    rw [exec_status_hs u s hu, hostUnit_accepted 0x00 false cmdStatus u s ⟨hp, hj.2 hlen⟩, hu]
    rfl
  case featAccept =>
    refine carriesAs_of_verdict (fun _ => rfl) (fun _ _ => rfl) (fun u d => (verdict_unit u _ d).trans ?_) (fun u e => ?_)
    · simp only [← setOk_iff]
      simp [cmdFeatAccept, Checks.ownSteps]
      cases d.chan.accepted with
      | none => simp [setIn]
      | some f =>
        simp [setIn]
        tauto
    · exact (apply_ite (done _) _ _ _).symm
  case sessionOpen =>
    refine carriesAs_of_verdict (fun _ => rfl) (fun _ _ => rfl) (fun u d => (verdict_unit u _ d).trans ?_) (fun u e => ?_)
    · simp [cmdSessionOpen, Checks.ownSteps]
    · simp only [cmdSessionOpen, beq_eq_decide, bne_iff_ne, Bool.and_eq_true, decide_eq_true_eq]
      rfl
  case faultClear =>
    refine carriesAs_of_verdict (fun _ => rfl) (fun _ _ => rfl) (fun u d => (verdict_unit u _ d).trans ?_) (fun u e => rfl)
    simp [cmdFaultClear, Checks.ownSteps]
    tauto
  case aliveResync =>
    refine carriesAs_of_verdict (fun _ => rfl) (fun _ _ => rfl) (fun u d => (verdict_unit u _ d).trans ?_) (fun u e => rfl)
    simp [cmdAliveResync, Checks.ownSteps, and_assoc]

end Sys2Proof.Machine

/-! The commands of a context: when they are accepted, whether they wait for their computation start, and what they do there
(R217-R220, R226, R228, R290, R291, R306, R337, R338). -/

namespace Sys2Proof.Machine
open Sys2Proof Sys2Proof.Safety

/-! ### Acceptance -/

/-- A CTX_OPEN waits on a leader, and behind a CTX_CLOSE of its context that waits (log 21). -/
theorem openWaits_iff (i : Nat) (d : State) : openWaits i d = true ↔
    d.span.role = 2 ∨ ∃ x ∈ d.chan.deferred, x.code = 0x11 ∧ byteAt x.payload 0 = i := by
  have hof (x : Deferred) : (x.code == 0x11 && x.isOf i) = true ↔ x.code = 0x11 ∧ byteAt x.payload 0 = i := by
    simp +contextual [Deferred.isOf]
  simp only [openWaits, State.leads, State.closing, Bool.or_eq_true, beq_iff_eq, List.any_eq_true, hof]

theorem closeWaits_iff (i : Nat) (d : State) : closeWaits i d = true ↔ d.span.role = 2 ∨ (d.ctx i).st = 3 := by
  simp [closeWaits, State.leads]

/-- A context that is in a state other than CLOSED is open. -/
theorem ne_closed_of_ofCtx {states : List Nat} {u : HostUnit} {d : State} (h : ofCtx states u d) (h0 : 0 ∉ states) :
    (d.fut (ctxIn u.payload)).st ≠ 0 := by
  obtain ⟨_, _, hst⟩ := h
  exact fun hclosed => h0 (hclosed ▸ hst)

/-- The ranges of a contract (R33, R35). -/
theorem contractOk_iff (d : State) (c : Contract) : contractOk d c = true ↔
    (c.report = 0 ∨ (19 ≤ c.report ∧ c.report ≤ 60000)) ∧ (c.wake = 0 ∨ (13 ≤ c.wake ∧ c.wake ≤ 60000)) ∧ c.wset.toNat < 256 ∧
      (getBit c.wset 6 = true → d.feat 3 = true) ∧ c.grace ≤ 3600 ∧ (c.grace ≤ 60 ∨ d.feat 82 = true) := by
  simp only [contractOk, Bool.and_eq_true, Bool.or_eq_true, Bool.not_eq_true', eq_false_or_iff_imp, beq_iff_eq,
    decide_eq_true_eq, and_assoc]

/-- The rectangles of a region: their count gives the length, and each holds a point (R220). -/
theorem regionOk_iff (pl : List Byte) : [12, 22, 32, 42].contains pl.length = true ∧ regionOk pl = true ↔
    1 ≤ byteAt pl 1 ∧ byteAt pl 1 ≤ 4 ∧ pl.length = 2 + 10 * byteAt pl 1 ∧ ∀ k < byteAt pl 1,
      leAt (slice pl (2 + 10 * k) 10) 0 2 < leAt (slice pl (2 + 10 * k) 10) 4 2 ∧
      leAt (slice pl (2 + 10 * k) 10) 2 2 < leAt (slice pl (2 + 10 * k) 10) 6 2 ∧
      byteAt (slice pl (2 + 10 * k) 10) 8 ≤ 1 ∧ byteAt (slice pl (2 + 10 * k) 10) 9 = 0 := by
  have hlen (n : Nat) (hn : pl.length = 2 + 10 * n) (h1 : 1 ≤ n) (h4 : n ≤ 4) :
      [12, 22, 32, 42].contains pl.length = true := by
    rw [hn]
    interval_cases n <;> rfl
  simp only [regionOk, Bool.and_eq_true, decide_eq_true_eq, beq_iff_eq, List.all_eq_true, List.mem_range, and_assoc]
  exact ⟨And.right, fun h => ⟨hlen _ h.2.2.1 h.1 h.2.1, h⟩⟩

/-- The ranges and the features of a stock program (R290, R291). -/
theorem stockOk_iff (d : State) (pl : List Byte) : stockOk d pl = true ↔ ctxIn pl < 32 ∧ byteAt pl 1 < 8 ∧
    stockRange (byteAt pl 1) (slice pl 2 16) = true ∧
    (stockNeedsForce (byteAt pl 1) (slice pl 2 16) (lastContract (ctxIn pl) d).wset = true → d.feat 3 = true) ∧
    stockWorst (byteAt pl 1) ≤ (d.fut (ctxIn pl)).budget := by
  simp only [stockOk, Bool.and_eq_true, Bool.or_eq_true, Bool.not_eq_true', eq_false_or_iff_imp, decide_eq_true_eq, and_assoc]

/-- The budget checks of a start (R228, R291). -/
theorem startOk_iff (d : State) (i : Nat) : startOk d i = true ↔
    d.futBudget i + (d.fut i).budget ≤ 524288 ∧ ∀ k ps, (d.fut i).prog = .stock k ps → stockWorst k ≤ (d.fut i).budget := by
  cases h : (d.fut i).prog <;> simp [startOk, h]

/-- CTX_OPEN is accepted in every state of the context but RUNNING, and needs room where it waits (R217, R304). -/
theorem ctxOpen_accepted (u : HostUnit) (d : State) :
    verdict u.port (d.port u.port).session (cmdCtxOpen.checks u.port u.payload d) d = 0 ↔
      served [] 2 u d ∧ u.payload.length = 8 ∧ notFollower d ∧ ofCtx [0, 1, 2, 4, 5] u d ∧ leAt u.payload 1 2 < 2048 ∧
      byteAt u.payload 3 ≤ 3 ∧ (leAt u.payload 4 4 = 0 ∨ (1024 ≤ leAt u.payload 4 4 ∧ leAt u.payload 4 4 ≤ 524288)) ∧
      ((d.span.role = 2 ∨ ∃ x ∈ d.chan.deferred, x.code = 0x11 ∧ byteAt x.payload 0 = byteAt u.payload 0) →
        spare (some (byteAt u.payload 0)) d) := by
  rw [← openWaits_iff]
  refine (verdict_ordinary u _ d ⟨rfl, rfl, rfl, rfl, rfl⟩).trans ?_
  simp [cmdCtxOpen, Checks.ownSteps, ofCtx_iff_steps, byteAt_zero_eq_ctxIn]
  tauto

/-- Carrying a command out finds CTX_CLOSEs waiting as its checks did. -/
theorem openWaits_entry (i code : Nat) (resync : Bool) (u : HostUnit) (s : State) :
    openWaits i (entry code resync u s) = openWaits i (reached code resync u s) := by
  simp [openWaits, State.leads, State.closing, entry]

/-! ### What the commands do -/

/-- CTX_OPEN opens a context that is closed, and otherwise sets the capabilities, the priority and the budget (R217, R226). -/
theorem openCtx_eq (p : Port) (mask : BitVec 16) (pl : List Byte) (s : State) : openCtx p mask pl s =
    s.modCtx (byteAt pl 0) (fun c => if c.st = 0 then { Ctx.closed with
        st := 1, owner := p, caps := mask, prio := byteAt pl 3, budget := if leAt pl 4 4 = 0 then 16384 else leAt pl 4 4
        contract := { report := 38, wake := 0, wset := 0, grace := 0 }
        region := [{ x0 := 0, y0 := 0, x1 := 65535, y1 := 65535, excl := false }] }
      else { c with caps := mask, prio := byteAt pl 3, budget := if leAt pl 4 4 = 0 then 16384 else leAt pl 4 4 }) := by
  simp only [openCtx, openBudget, beq_iff_eq]
  rfl

/-- The mask is what is asked for under the port's ceiling, and PLANES needs its feature (R219). -/
theorem openCaps_eq (p : Port) (pl : List Byte) (s : State) : openCaps p pl s =
    (let m := BitVec.ofNat 16 (leAt pl 1 2) &&& (if p = .tw then s.eng.pcap0 else s.eng.pcap1)
     if s.feat 33 then m else setBit m 1 false) := by
  cases p <;> rfl

/-- CTX_OPEN answers its mask, whether it waits or not (R338). -/
theorem cmdCtxOpen_run (p : Port) (pl : List Byte) (s : State) : cmdCtxOpen.run p pl s =
    done (le 2 (openCaps p pl s).toNat) (
      if openWaits (ctxIn pl) s then deferCmd p 0x10 (splice pl 1 (le 2 (openCaps p pl s).toNat)) s
      else openCtx p (openCaps p pl s) pl s) := (apply_ite (done _) _ _ _).symm

/-- A command that is due and bound to no boundary takes its effect in its place in the order (R306). -/
theorem runDeferred_due {x : Deferred} {xs waits : List Deferred} {s : State} (hdue : dueAtK s x = true) (hbind : x.code ≠ 0x22)
    (hstart : startWaits x s = false) : runDeferred (x :: xs) [] waits s = runDeferred xs [] waits (applyDeferred x s) := by
  simp [runDeferred, hdue, hbind, hstart]

/-! ### Contexts that a reset and a close touch -/

/-- A context after its reset (R218). -/
def Ctx.wiped (c : Ctx) : Ctx := { c with
  room := match c.prog with
    | .image => roomOf c.img
    | _ => []
  regs := (List.range 16).map (fun k => if k == 14 then c.regs.getD 14 0 else 0)
  z := false, n := false, c := false, v := false
  notices := [], mailIn := [], mailNew := false, mailVis := false, mailOut := []
  queue := { c.queue with recs := [] } }

theorem ctxReset_ctxs (i : Nat) (s : State) : (ctxReset i s).ctxs = (s.modCtx i Ctx.wiped).ctxs := settle_ctxs _

theorem ctxReset_ctx (i : Nat) (s : State) (hi : i < s.ctxs.length) : (ctxReset i s).ctx i = (s.ctx i).wiped :=
  (congrArg (fun cs : List Ctx => cs.getD i .closed) (ctxReset_ctxs i s)).trans (State.ctx_modCtx_same s i _ hi)

theorem State.ctx_modRun (s : State) (i j : Nat) (f : CtxRun → CtxRun) : (s.modRun i f).ctx j = s.ctx j := rfl

theorem completeOpt_ctxs (t : Option Nat) (err : Nat) (comp : List Byte) (s : State) :
    (completeOpt t err comp s).ctxs = s.ctxs := by
  cases t with
  | none => rfl
  | some t => exact (completeTag_keeps t err comp s).1

theorem abortSession_ctxs (i : Nat) (s : State) : (abortSession i s).ctxs = s.ctxs := by
  unfold abortSession
  split
  · rfl
  · exact completeOpt_ctxs _ _ _ _

theorem abortLoad_ctxs (i : Nat) (s : State) : (abortLoad i s).ctxs = s.ctxs := by
  unfold abortLoad
  split
  · rfl
  · exact completeOpt_ctxs _ _ _ _

theorem dropBind_ctxs (i : Nat) (s : State) : (dropBind i s).ctxs = s.ctxs :=
  List.foldlRecOn (motive := fun t : State => t.ctxs = s.ctxs) _ _ rfl
    (fun t ht (w : BindWait) _ => (completeTag_keeps w.tag 0x09 [0x0D] t).1.trans ht)

theorem unassign_ctxs (i : Nat) (s : State) : (unassign i s).ctxs = s.ctxs := rfl

/-- A close puts the context to CLOSED, and touches no other. -/
theorem closeCtx_ctxs (i : Nat) (s : State) : (closeCtx i s).ctxs = (s.modCtx i (fun _ => .closed)).ctxs := by
  simp only [closeCtx, State.modRun_ctxs, State.modCtx_ctxs, unassign_ctxs, dropBind_ctxs, abortLoad_ctxs, abortSession_ctxs,
    ctxReset_ctxs, modAt_modAt]
  rfl

theorem closeCtx_ctx (i j : Nat) (s : State) : (closeCtx i s).ctx j = (s.modCtx i (fun _ => .closed)).ctx j :=
  congrArg (fun cs : List Ctx => cs.getD j .closed) (closeCtx_ctxs i s)

/-- A start of a context keeps its other fields where it resumes (R228). -/
theorem applyStart_ctx_resumes {pl : List Byte} {s : State} (hopen : (s.ctx (byteAt pl 0)).st ≠ 0)
    (hidle : (s.ctx (byteAt pl 0)).st ≠ 3) (hlen : byteAt pl 0 < s.ctxs.length) (hresume : byteAt pl 1 ≠ 0) :
    (applyStart pl s).ctx (byteAt pl 0) = { s.ctx (byteAt pl 0) with st := 3 } := by
  simp only [applyStart, ctxIn, beq_iff_eq, Bool.or_eq_true, hopen, hidle, hresume, or_self, if_false]
  exact State.ctx_modCtx_same _ _ _ hlen

/-- A start anew resets the context first (R218, R228). -/
theorem applyStart_ctx_anew {pl : List Byte} {s : State} (hopen : (s.ctx (byteAt pl 0)).st ≠ 0)
    (hidle : (s.ctx (byteAt pl 0)).st ≠ 3) (hlen : byteAt pl 0 < s.ctxs.length) (hanew : byteAt pl 1 = 0) :
    (applyStart pl s).ctx (byteAt pl 0) = { (s.ctx (byteAt pl 0)).wiped with st := 3 } := by
  simp only [applyStart, ctxIn, beq_iff_eq, Bool.or_eq_true, hopen, hidle, hanew, or_self, if_false, if_true]
  rw [State.ctx_modCtx_same _ _ _ (by simpa [ctxReset_ctxs] using hlen)]
  rw [State.ctx_modRun, ctxReset_ctx]
  · rfl
  · exact hlen

/-- A program bound at K replaces the one before it (R281, R290). -/
theorem applyStock_ctx {pl : List Byte} {s : State} (hopen : (s.ctx (byteAt pl 0)).st ≠ 0)
    (hidle : (s.ctx (byteAt pl 0)).st ≠ 3) (hlen : byteAt pl 0 < s.ctxs.length) :
    (applyStock pl s).ctx (byteAt pl 0) =
      { s.ctx (byteAt pl 0) with st := 2, prog := .stock (byteAt pl 1) (slice pl 2 16), img := .none } := by
  simp only [applyStock, ctxIn, beq_iff_eq, Bool.or_eq_true, hopen, hidle, or_self, if_false]
  exact State.ctx_modCtx_same _ _ _ hlen

/-- A closed context takes none of the commands that wait for it but CTX_OPEN. -/
theorem applyDeferred_closed {pl : List Byte} {s : State} (p : Port) (h : (s.ctx (byteAt pl 0)).st = 0) (code : Nat)
    (hcode : 0x12 ≤ code ∧ code ≤ 0x16) : applyDeferred { port := p, code := code, payload := pl } s = s := by
  obtain ⟨hlo, hhi⟩ := hcode
  interval_cases code <;> simp [applyDeferred, applyContract, applyRegion, applyStock, applyStart, applyStop, ctxIn, h]

theorem applyStock_running {pl : List Byte} {s : State} (h : (s.ctx (byteAt pl 0)).st = 3) : applyStock pl s = s := by
  simp [applyStock, ctxIn, h]

theorem applyStart_running {pl : List Byte} {s : State} (h : (s.ctx (byteAt pl 0)).st = 3) : applyStart pl s = s := by
  simp [applyStart, ctxIn, h]

theorem applyStop_running {pl : List Byte} {s : State} (h : (s.ctx (byteAt pl 0)).st = 3) :
    applyStop pl s = leaveRunning 4 (byteAt pl 0) s := by
  simp [applyStop, ctxIn, h]

theorem applyStop_faulted {pl : List Byte} {s : State} (h : (s.ctx (byteAt pl 0)).st = 5) :
    applyStop pl s = s.modCtx (byteAt pl 0) (fun c => { c with st := 4 }) := by
  simp [applyStop, ctxIn, h]

/-- Settles O34: acceptance is taken apart by `verdict_unit`, and a command that waits has the effect of its own function. -/
theorem contextCommands : Obligations.ContextCommands := by
  refine ⟨?ctxOpen, ?ctxClose, ?ctxContract, ?ctxRegion, ?ctxStock, ?ctxStart, ?ctxStop, ?order, ?atK, ?closed⟩
  case ctxOpen =>
    intro u s hp d e m cond
    have hj : judged 0x10 false cmdCtxOpen u s = 0 ↔ cond := ctxOpen_accepted u d
    have hwaits : openWaits (ctxIn u.payload) e = true ↔ _ := (openWaits_entry _ _ _ _ _).symm ▸ openWaits_iff _ d
    have hnext (hc : cond) : exec (.ctxOpen u) s = .next (setReply u.port (.fixed (0 :: le 2 m.toNat)) (
        if openWaits (ctxIn u.payload) e then deferCmd u.port 0x10 (splice u.payload 1 (le 2 m.toNat)) e
        else openCtx u.port m u.payload e)) := by
      refine (hostRow_accepted 0x10 cmdCtxOpen u s ⟨hp, hj.2 hc⟩).trans ?_
      rw [cmdCtxOpen_run, openCaps_eq]
      rfl
    refine ⟨hj, fun hc hnow => ?_, fun hc hlater => ?_⟩
    · rw [hnext hc, if_neg (mt hwaits.1 hnow), openCtx_eq]
    · rw [hnext hc, if_pos (hwaits.2 hlater)]
      rfl
  case ctxClose =>
    refine carries_ordinary (fun _ _ => rfl) (fun _ _ => ⟨rfl, rfl, rfl, rfl, rfl⟩) (fun u d => ?_) (fun u e => ?_)
    · simp [cmdCtxClose, Checks.ownSteps, ofCtx_iff_steps, closeWaits_iff, byteAt_zero_eq_ctxIn]
      tauto
    · simp only [cmdCtxClose, closeWaits_iff]
      exact (apply_ite (done _) _ _ _).symm
  case ctxContract =>
    refine carries_ordinary (fun _ _ => rfl) (fun _ _ => ⟨rfl, rfl, rfl, rfl, rfl⟩) (fun u d => ?_) (fun u e => rfl)
    simp only [← contractOk_iff]
    simp [cmdCtxContract, Checks.ownSteps, ofCtx_iff_steps, byteAt_zero_eq_ctxIn]
    tauto
  case ctxRegion =>
    refine carries_ordinary (fun _ _ => rfl) (fun _ _ => ⟨rfl, rfl, rfl, rfl, rfl⟩) (fun u d => ?_) (fun u e => rfl)
    have hregion := regionOk_iff u.payload
    simp only [cmdCtxRegion, Checks.ownSteps, ofCtx_iff_steps, byteAt_zero_eq_ctxIn, Bool.and_eq_true, decide_eq_true_eq]
    tauto
  case ctxStock =>
    refine carries_ordinary (fun _ _ => rfl) (fun _ _ => ⟨rfl, rfl, rfl, rfl, rfl⟩) (fun u d => ?_) (fun u e => rfl)
    have hopen (h : ofCtx [1, 2, 4, 5] u d) := ne_closed_of_ofCtx h (by decide)
    have hlt (h : ctxIn u.payload < 32) := Nat.not_le.2 h
    rw [ofCtx_iff_steps] at hopen ⊢
    simp [cmdCtxStock, Checks.ownSteps, byteAt_zero_eq_ctxIn, stockOk_iff, -not_le]
    tauto
  case ctxStart =>
    refine carries_ordinary (fun _ _ => rfl) (fun _ _ => ⟨rfl, rfl, rfl, rfl, rfl⟩) (fun u d => ?_) (fun u e => rfl)
    simp [cmdCtxStart, Checks.ownSteps, ofCtx_iff_steps, byteAt_zero_eq_ctxIn, startOk_iff]
    tauto
  case ctxStop =>
    refine carries_ordinary (fun _ _ => rfl) (fun _ _ => ⟨rfl, rfl, rfl, rfl, rfl⟩) (fun u d => ?_) (fun u e => rfl)
    simp [cmdCtxStop, Checks.ownSteps, ofCtx_iff_steps, byteAt_zero_eq_ctxIn]
    tauto
  case order => exact fun x xs waits s => runDeferred_due
  case atK =>
    intro p pl s k c at_
    refine ⟨openCtx_eq _ _ _ _, rfl, fun h0 => ?_, fun h0 => ?_, fun h3 => ?_, fun h5 => ?_, fun h0 h3 hlen => ?_⟩
    · exact ⟨applyDeferred_closed p h0 0x12 (by decide), applyDeferred_closed p h0 0x13 (by decide),
        applyDeferred_closed p h0 0x14 (by decide), applyDeferred_closed p h0 0x15 (by decide),
        applyDeferred_closed p h0 0x16 (by decide)⟩
    · exact ⟨if_neg (mt beq_iff_eq.1 h0), if_neg (mt beq_iff_eq.1 h0)⟩
    · exact ⟨applyStock_running h3, applyStart_running h3, applyStop_running h3⟩
    · exact applyStop_faulted h5
    · exact ⟨applyStock_ctx h0 h3 hlen, applyStart_ctx_resumes h0 h3 hlen, fun h => applyStart_ctx_anew h0 h3 hlen h⟩
  case closed =>
    exact fun k s hk => ⟨(closeCtx_ctx k k s).trans (State.ctx_modCtx_same _ _ _ hk), fun j hj =>
      (closeCtx_ctx k j s).trans (State.ctx_modCtx_other _ _ _ _ hj)⟩

end Sys2Proof.Machine

/-! Live reads: when they are accepted, what their replies read as, and what the copy of a reply does (R307, R317, R321,
R328-R340, and the reads of every chapter). -/

namespace Sys2Proof.Machine
open Sys2Proof Sys2Proof.Safety

/-! ### Masks -/

/-- A sum of the powers of two that a test accepts, below an exponent. -/
def powersBelow (p : Nat → Bool) (n : Nat) : Nat := (List.range n).foldl (fun acc i => if p i then acc + 2 ^ i else acc) 0

theorem powersBelow_succ (p : Nat → Bool) (n : Nat) :
    powersBelow p (n + 1) = if p n then powersBelow p n + 2 ^ n else powersBelow p n := by
  simp [powersBelow, List.range_succ]

theorem powersBelow_lt (p : Nat → Bool) (n : Nat) : powersBelow p n < 2 ^ n := by
  induction n with
  | zero => simp [powersBelow]
  | succ n ih =>
    rw [powersBelow_succ, Nat.pow_succ]
    split <;> omega

theorem testBit_powersBelow (p : Nat → Bool) (n k : Nat) (hk : k < n) : (powersBelow p n).testBit k = p k := by
  induction n with
  | zero => omega
  | succ n ih =>
    have hlt := powersBelow_lt p n
    rw [powersBelow_succ]
    rcases Nat.lt_succ_iff_lt_or_eq.1 hk with h | rfl
    · split
      · rw [Nat.add_comm, Nat.testBit_two_pow_add_gt h, ih h]
      · exact ih h
    · have hclear := Nat.testBit_lt_two_pow hlt
      split <;> rename_i hp
      · rw [Nat.add_comm, Nat.testBit_two_pow_add_eq, hclear, hp]
        rfl
      · rw [hclear, Bool.eq_false_of_not_eq_true hp]

theorem getLsbD_maskOf (w : Nat) (p : Nat → Bool) (k : Nat) : (maskOf w p).getLsbD k = (decide (k < w) && p k) := by
  change (BitVec.ofNat w (powersBelow p w)).getLsbD k = _
  rw [BitVec.getLsbD_ofNat]
  by_cases hk : k < w
  · simp [hk, testBit_powersBelow p w k hk]
  · simp [hk]

/-- The features that the part offers, by their numbers (R309). -/
theorem getLsbD_offered (s : State) (k : Nat) : s.offered.getLsbD k =
    decide (k ≤ 7 ∨ (16 ≤ k ∧ k ≤ 20) ∨ (k = 21 ∧ s.pins.hsm = false) ∨ (k = 22 ∧ s.pins.hsm = true) ∨
      (32 ≤ k ∧ k ≤ 36) ∨ k = 48 ∨ k = 49 ∨ (64 ≤ k ∧ k ≤ 67) ∨ (80 ≤ k ∧ k ≤ 84)) := by
  rw [State.offered, getLsbD_maskOf, Bool.eq_iff_iff]
  cases s.pins.hsm <;> simp <;> omega

/-! ### The copy of a reply -/

/-- What settling the signals changes of a port is its signal. -/
theorem settle_port (q : Port) (s : State) :
    (settle s).port q = { s.port q with signal := ((settle s).port q).signal } := by
  unfold settle
  dsimp only
  cases q <;> split <;> split <;> rfl

/-- A live reply is copied once: sending it again sends the copy (R307). -/
theorem sendReply_live {p : Port} {code : Nat} {pl : List Byte} {s : State} (h : (s.port p).reply = .live code pl) :
    (sendReply p s).1 = (liveReply p code pl s).1 ∧
    ((sendReply p s).2.port p).reply = .fixed (liveReply p code pl s).1 := by
  simp [sendReply, h]

theorem sendReply_fixed {p : Port} {bs : List Byte} {s : State} (h : (s.port p).reply = .fixed bs) :
    sendReply p s = (bs, s.modPort p (fun q => { q with snap := false })) := by
  simp only [sendReply, h]

/-! ### What the replies read as -/

/-- Reading the faults clears NEWFAULT and marks the bits as returned (R332, R336). -/
theorem faultRead_port (p : Port) (s : State) : ((faultRead p s).2.port p).causeNew = false ∧
    ((faultRead p s).2.port p).seen = s.chan.faults := by
  simp only [faultRead]
  rw [settle_port, State.modPort_port_same]
  exact ⟨rfl, rfl⟩

/-- A tag that TAG_READ names, in use (R334). -/
theorem tagRead_named {p : Port} {i : Nat} {g : Tag} {s : State} (hi : i < 64) (hg : s.chan.tags.getD i none = some g) :
    tagRead p i s = if g.done then
        ([b8 i, b8 g.code, 1, b8 g.err] ++ le 2 g.comp.length ++ g.comp, settle { s with chan.tags := s.chan.tags.set i none })
      else ([b8 i, b8 g.code, 0, 0, 0, 0], s) := by
  have hname : tagNamed p i s = some i := by
    have : i ≠ 0xFF := by omega
    simp [tagNamed, this]
  simp only [tagRead, hname, hg]

/-- Asked for any completion of a port that has none, TAG_READ answers 0xFF (R334). -/
theorem tagRead_none {p : Port} {s : State}
    (h : ∀ (i : Nat) (g : Tag), i < 64 → s.chan.tags.getD i none = some g →
      g.port ≠ p ∨ g.done = false ∨ g.discard = true) :
    tagRead p 0xFF s = ([0xFF, 0, 0, 0, 0, 0], s) := by
  have hname : tagNamed p 0xFF s = none := by
    simp only [tagNamed, beq_self_eq_true, if_true, List.find?_eq_none, List.mem_range]
    intro i hi
    cases hg : s.chan.tags.getD i none with
    | none => simp
    | some g =>
      rcases h i g hi hg with h | h | h <;> simp [h]
  simp only [tagRead, hname]

/-- JOURNAL_READ refuses a number beyond the next record (R321). -/
theorem journalRead_beyond {p : Port} {mode n count : Nat} {s : State}
    (h : seqBefore s.jrn.next (if mode = 0 then (s.port p).jptr else n) = true) : journalRead p mode n count s = (none, s) := by
  simp only [journalRead, beq_iff_eq, h, if_true]

/-- JOURNAL_READ answers the records from its number, or from the oldest after it, and moves the pointer past them (R321). -/
theorem journalRead_held {p : Port} {mode n count : Nat} {s : State}
    (h : seqBefore s.jrn.next (if mode = 0 then (s.port p).jptr else n) = false) :
    let num := if mode = 0 then (s.port p).jptr else n
    let held := num == s.jrn.next || (heldRecord s num).isSome
    let start := if held then num else oldestAfter s num
    let rs := heldRun s count start
    let spilled := start != s.jrn.next && (ramRecord s start).isNone && !rs.isEmpty
    journalRead p mode n count s =
      (some (le 4 start ++ [b8 rs.length, b8 (flagsOf [spilled, !held]), 0, 0] ++ rs.flatMap recBytes),
       (if spilled then otherRead s else s).modPort p (fun q => { q with jptr := (start + rs.length) % 2 ^ 32 })) := by
  simp only [journalRead, beq_iff_eq, h, Bool.false_eq_true, if_false]

/-- MEM_READ reads flash where no range is fenced and the crystal runs (R410). -/
theorem memRead_open {a n : Nat} {s : State} (hfence : s.fenced a n = false) (hxtal : s.clk.xtalFail = false) :
    memRead a n s = (0, Memory.readN 0xFF s.mem.flash a n, otherRead s) := by
  simp [memRead, hfence, State.barred, hxtal, readFlash, erased]

theorem memRead_fenced {a n : Nat} {s : State} (hfence : s.fenced a n = true) : memRead a n s = (0x0B, [], s) := by
  simp [memRead, hfence]

theorem liveReply_ledgerRead (p : Port) (pl : List Byte) (s : State) : (liveReply p 0xA4 pl s).1 =
    b8 (ledgerRead (leAt pl 0 4) (byteAt pl 4) s).1 :: (ledgerRead (leAt pl 0 4) (byteAt pl 4) s).2 := rfl

/-- The open period reads as a provisional record (R530). -/
theorem ledgerRead_open {q n : Nat} {s : State} (h : q = 0xFFFFFFFF) :
    ledgerRead q n s = (0, [1, 0, 0, 0] ++ ledProvisional s) := by
  simp only [ledgerRead, beq_iff_eq, h, if_true]

theorem flag_decide (c : Prop) [Decidable c] : flag (decide c) = if c then 1 else 0 := by
  simp [flag]

/-! ### Acceptance -/

/-- A read that needs a session, an accepted set and a mode other than SAFE is accepted under its own steps, and its reply is
held live (R307). -/
theorem liveRead {mk : HostUnit → Instr} {code : Nat} {c : Cmd} {cond : HostUnit → State → Prop}
    (hcond : ∀ (u : HostUnit) (d : State),
      served (c.checks u.port u.payload d).feats (c.checks u.port u.payload d).longest u d ∧
        (c.checks u.port u.payload d).ownSteps d ↔ cond u d)
    (hrow : ∀ u s, exec (mk u) s = hostRow code c u s := by exact fun _ _ => rfl)
    (hord : ∀ (u : HostUnit) (d : State), (c.checks u.port u.payload d).ordinary := by
      exact fun _ _ => ⟨rfl, rfl, rfl, rfl, rfl⟩)
    (hrun : ∀ (u : HostUnit) (e : State), c.run u.port u.payload e = (.live code u.payload, e) := by exact fun _ _ => rfl) :
    carries mk code c cond (fun u e => (.live code u.payload, e)) := carries_ordinary hrow hord hcond hrun

/-- The same of a read that is served more widely. -/
theorem liveRead_early {mk : HostUnit → Instr} {code : Nat} {c : Cmd} {at_ : HostUnit → HostUnit}
    {cond : HostUnit → State → Prop}
    (hcond : ∀ (u : HostUnit) (d : State),
      verdict u.port (d.port u.port).session (c.checks u.port u.payload d) d = 0 ↔ cond u d)
    (hport : ∀ u, (at_ u).port = u.port := by exact fun _ => rfl)
    (hrow : ∀ u s, exec (mk u) s = .next (hostUnit code false c (at_ u) s) := by exact fun _ _ => rfl)
    (hrun : ∀ (u : HostUnit) (e : State), c.run u.port u.payload e = (.live code u.payload, e) := by exact fun _ _ => rfl) :
    carriesAs false mk code c at_ cond (fun u e => (.live code u.payload, e)) := carriesAs_of_verdict hport hrow hcond hrun

theorem countOk_iff (p : Port) (n : Nat) : countOk p n = true ↔ 1 ≤ n ∧ n ≤ (if p = .tw then 14 else 64) := by
  simp [countOk]

theorem flashLen_iff (p : Port) (n : Nat) : flashLen p n = true ↔ 1 ≤ n ∧ n ≤ (if p = .tw then 240 else 4096) := by
  simp [flashLen]

/-- REG_READ is served before a set is accepted (R308, R340). -/
theorem regRead_accepted (u : HostUnit) (d : State) :
    verdict u.port (d.port u.port).session (cmdRegRead.checks u.port u.payload d) d = 0 ↔
      inSession u d ∧ d.aon.mode ≠ .safe ∧ fits (4 * byteAt u.payload 2) u d ∧ u.payload.length = 3 ∧
      leAt u.payload 0 2 % 4 = 0 ∧ 1 ≤ byteAt u.payload 2 ∧ byteAt u.payload 2 ≤ (if u.port = .tw then 60 else 255) := by
  refine (verdict_unit u _ d).trans ?_
  simp [cmdRegRead, Checks.ownSteps, and_assoc]

/-- TAG_READ names a tag of its port, or asks for any completion (R334). -/
theorem tagRead_accepted (u : HostUnit) (d : State) :
    verdict u.port (d.port u.port).session (cmdTagRead.checks u.port u.payload d) d = 0 ↔
      inSession u d ∧ d.aon.mode ≠ .safe ∧ u.payload.length = 1 ∧
      (byteAt u.payload 0 = 0xFF ∨
        ∃ g, byteAt u.payload 0 < 64 ∧ d.chan.tags.getD (byteAt u.payload 0) none = some g ∧ g.port = u.port) ∧
      fits (6 + (match (tagNamed u.port (byteAt u.payload 0) d).bind (fun i => tagIn i d) with
        | some g => g.comp.length
        | none => 0)) u d := by
  refine (verdict_unit u _ d).trans ?_
  have hin : (∃ g, byteAt u.payload 0 < 64 ∧ d.chan.tags.getD (byteAt u.payload 0) none = some g ∧ g.port = u.port) ↔
      ∃ g, tagIn (byteAt u.payload 0) d = some g ∧ g.port = u.port := by
    unfold tagIn
    split <;> simp [*]
  have hany (h : byteAt u.payload 0 = 0xFF) : tagIn (byteAt u.payload 0) d = none := if_neg (by omega)
  rw [hin]
  simp only [cmdTagRead, Checks.ownSteps]
  cases htag : tagIn (byteAt u.payload 0) d with
  | none =>
    simp
    tauto
  | some g =>
    rw [htag] at hany
    simp
    tauto

/-- Settles O32: acceptance is taken apart by `liveRead` and `liveRead_early`; a reply is the bytes of its layout, and a copy
leaves it fixed. -/
theorem liveReads : Obligations.LiveReads := by
  refine ⟨⟨?ident, ?featRead, ?faultRead, ?tagRead, ?ctxState, ?imgList, ?imgKeyRead, ?evtRead, ?journalRead, ?feGet,
    ?imageRead, ?censusRead, ?clampRead, ?calState, ?thermRead, ?fanState, ?powerState, ?powerGrants, ?spanState, ?spanMembers,
    ?memRead, ?memState, ?clockRead, ?ledgerState, ?ledgerRead, ?regRead, ?timelo, ?pin, ?stretch, ?seclo⟩, ?sent, ?replies⟩
  case ident =>
    exact ⟨liveRead_early (fun u d => (verdict_unit u _ d).trans (by simp [cmdIdent, Checks.ownSteps])),
      fun _ _ _ => rfl⟩
  case featRead =>
    exact ⟨liveRead_early (fun u d => (verdict_unit u _ d).trans (by simp [cmdFeatRead, Checks.ownSteps])),
      fun _ _ _ => rfl⟩
  case faultRead => exact liveRead_early (fun u d => (verdict_unit u _ d).trans (by simp [cmdFaultRead, Checks.ownSteps]))
  case tagRead => exact liveRead_early tagRead_accepted
  case ctxState =>
    exact ⟨liveRead_early (fun u d => (verdict_unit u _ d).trans (by simp [cmdCtxState, Checks.ownSteps, byteAt_zero_eq_ctxIn])),
      fun _ _ _ => rfl⟩
  case imgList => exact ⟨liveRead (fun u d => by simp [cmdImgList, Checks.ownSteps, imgFeats, and_assoc]), fun _ _ _ => rfl⟩
  case imgKeyRead => exact ⟨liveRead (fun u d => by simp [cmdImgKeyRead, Checks.ownSteps, imgFeats]), fun _ _ _ => rfl⟩
  case evtRead =>
    refine carries_ordinary (fun _ _ => rfl) (fun _ _ => ⟨rfl, rfl, rfl, rfl, rfl⟩) (fun u d => ?_) (fun u e => ?_)
    · simp [cmdEvtRead, Checks.ownSteps, countOk_iff]
    · simp only [cmdEvtRead, bit_eq_testBit]
      rfl
  case journalRead => exact liveRead (fun u d => by simp [cmdJournalRead, Checks.ownSteps, countOk_iff, and_assoc])
  case feGet => exact liveRead (fun u d => by simp [cmdFeGet, Checks.ownSteps])
  case imageRead =>
    exact ⟨liveRead (fun u d => by simp [cmdImageRead, Checks.ownSteps, and_assoc, or_iff_not_imp_left]), fun _ _ _ => rfl⟩
  case censusRead => exact ⟨liveRead (fun u d => by simp [cmdCensusRead, Checks.ownSteps]), fun _ _ _ => rfl⟩
  case clampRead => exact liveRead (fun u d => by simp [cmdClampRead, Checks.ownSteps])
  case calState => exact ⟨liveRead (fun u d => by simp [cmdCalState, Checks.ownSteps]), fun _ _ _ => rfl⟩
  case thermRead => exact ⟨liveRead (fun u d => by simp [cmdThermRead, Checks.ownSteps]), fun _ _ _ => rfl⟩
  case fanState => exact ⟨liveRead (fun u d => by simp [cmdFanState, Checks.ownSteps]), fun _ _ _ => rfl⟩
  case powerState =>
    exact ⟨liveRead_early (fun u d => (verdict_unit u _ d).trans (by simp [cmdPowerState, Checks.ownSteps])),
      fun _ _ _ => rfl⟩
  case powerGrants => exact ⟨liveRead (fun u d => by simp [cmdPowerGrants, Checks.ownSteps]), fun _ _ _ => rfl⟩
  case spanState => exact ⟨liveRead (fun u d => by simp [cmdSpanState, Checks.ownSteps]), fun _ _ _ => rfl⟩
  case spanMembers => exact ⟨liveRead (fun u d => by simp [cmdSpanMembers, Checks.ownSteps, and_assoc]), fun _ _ _ => rfl⟩
  case memRead => exact liveRead (fun u d => by simp [cmdMemRead, Checks.ownSteps, flashLen_iff])
  case memState => exact ⟨liveRead (fun u d => by simp [cmdMemState, Checks.ownSteps]), fun _ _ _ => rfl⟩
  case clockRead => exact ⟨liveRead (fun u d => by simp [cmdClockRead, Checks.ownSteps]), fun _ _ _ => rfl⟩
  case ledgerState => exact ⟨liveRead (fun u d => by simp [cmdLedgerState, Checks.ownSteps]), fun _ _ _ => rfl⟩
  case ledgerRead => exact liveRead (fun u d => by simp [cmdLedgerRead, Checks.ownSteps, and_assoc, or_iff_not_imp_left])
  case regRead => exact liveRead_early regRead_accepted
  case timelo => exact liveRead_early regRead_accepted
  case pin => exact liveRead_early regRead_accepted
  case stretch => exact liveRead_early regRead_accepted
  case seclo => exact liveRead_early regRead_accepted
  case sent =>
    intro p code pl s h
    obtain ⟨hbytes, hheld⟩ := sendReply_live h
    exact ⟨hbytes, hheld, sendReply_fixed hheld⟩
  case replies =>
    refine fun p pl v => ⟨getLsbD_offered v, ⟨rfl, faultRead_port p v⟩, ?tag, ?noTag, ?events, ?set, ?clamps, ?journal,
      ?flash, ?ledger⟩
    case tag =>
      rintro i g hi rfl hg
      rw [liveReply_tagRead, tagRead_named hi hg]
      exact ⟨fun h => by simp only [h, if_true], fun h => by simp only [h, Bool.false_eq_true, if_false]⟩
    case noTag =>
      intro hany hnone
      rw [liveReply_tagRead, hany, tagRead_none hnone]
    case events =>
      rw [liveReply_evtRead]
      refine ⟨?_, ?_, ?_⟩
      · simp only [evtRead, flag_decide]
        rfl
      · exact congrArg (·.dropped) (State.modPort_port_same _ _ _)
      · exact congrArg (·.lastRead) (State.modPort_port_same _ _ _)
    case set =>
      intro x hx
      simp only [liveReply_feGet, feGet, hx]
    case clamps =>
      rw [liveReply_clampRead, bit_eq_testBit]
      exact ⟨rfl, rfl⟩
    case journal =>
      refine ⟨fun h => ?_, fun h => ?_⟩
      · rw [liveReply_journalRead, journalRead_beyond h]
        rfl
      · rw [liveReply_journalRead, journalRead_held h]
        exact ⟨rfl, congrArg (·.jptr) (State.modPort_port_same _ _ _)⟩
    case flash =>
      refine ⟨fun h => ?_, fun h hx => ?_⟩
      · rw [liveReply_memRead, memRead_fenced h]
        rfl
      · rw [liveReply_memRead, memRead_open h hx]
        rfl
    case ledger =>
      intro h
      rw [liveReply_ledgerRead, ledgerRead_open h]
      rfl

end Sys2Proof.Machine

/-! The two-wire port beside its command writes: reply reads, the alert response, the in-band request, Host Notify and the bus
timeouts (R347-R349, R352, R356-R363, R367, R368; the cap of MAXUS and the due condition of a notice are log 21). -/

namespace Sys2Proof.Machine
open Sys2Proof Sys2Proof.Safety

/-! ### Reply reads -/

theorem length_fit (n : Nat) (b : Byte) (p : List Byte) : (fit n b p).length = n := by
  simp only [fit, List.length_append, List.length_take, List.length_replicate]
  omega

/-- What `fit` fills in or cuts off does not show in the bytes before it. -/
theorem take_fit {k n : Nat} {b : Byte} {p : List Byte} (hk : k ≤ p.length) : (fit n b p).take k = (p.take k).take n := by
  rw [fit]
  rcases le_total n p.length with hn | hn
  · rw [Nat.sub_eq_zero_of_le hn, List.replicate_zero, List.append_nil, List.take_take, List.take_take, Nat.min_comm]
  · have hcut : (p.take k).length ≤ n := (List.length_take_le k p).trans (hk.trans hn)
    rw [List.take_of_length_le hn, List.take_append_of_le_length hk, List.take_of_length_le hcut]

/-- The first two bytes of a reply read are the error code and the length (R348). -/
theorem twReplyBytes_head (r : List Byte) (s : State) :
    ∃ rest, twReplyBytes r s = r.headD 0 :: b8 (r.length - 1) :: rest :=
  ⟨_, by simp only [twReplyBytes, List.length_drop]; rfl⟩

/-- A read of a fixed reply leaves it held and clears SNAP; the stretch that MAXUS notes is capped (R348, R352, log 21). -/
theorem replyRead_fixed {count us : Nat} {s : State} {bs : List Byte} (hs : s.serves = true) (hc : 1 ≤ count)
    (hr : (twBegin s).chan.tw.reply = .fixed bs) : replyRead count us s = { twBegin s with
      tw.maxUs := max (twBegin s).tw.maxUs (min 10000 us)
      chan.tw := { (twBegin s).chan.tw with
        snap := false, out := fit (min count 257) 0xFF (twReplyBytes bs (twBegin s)) } } := by
  have hc' : ¬ count = 0 := by omega
  simp [replyRead, hs, hc', hr, sendReply, State.port, State.modPort, twReplyBytes, State.twAddr]

/-- A read that finds no reply is counted, and reads BAD_CMD with length 0 (R348). -/
theorem replyRead_none {count us : Nat} {s : State} (hs : s.serves = true) (hc : 1 ≤ count)
    (hr : (twBegin s).chan.tw.reply = .none) : replyRead count us s = { twBegin s with
      tw.maxUs := max (twBegin s).tw.maxUs (min 10000 us)
      tw.noReply := min 65535 ((twBegin s).tw.noReply + 1)
      chan.tw := { (twBegin s).chan.tw with out := fit (min count 257) 0xFF (twReplyBytes [0x01] (twBegin s)) } } := by
  have hc' : ¬ count = 0 := by omega
  simp [replyRead, hs, hc', hr, sendReply, State.port, State.modPort, twReplyBytes, State.twAddr, satAdd]

/-! ### Host Notify -/

/-- When a notice is sent (R361, R363; log 21). -/
theorem notifies_iff (s : State) : s.notifies = true ↔
    s.serves = true ∧ s.feat 19 = true ∧ s.tw.hnPend = true ∧ s.tw.hnOff = false ∧ s.tw.hnRun < 8 := by
  simp [State.notifies, and_assoc]

/-- A notice that is not due leaves the state, however it would have ended. -/
theorem actsWhen_hostNotify {e : NotifyEnd} {f : State → State}
    (hsent : ∀ s, s.notifies = true → hostNotify e s = f s) : actsWhen (.hostNotify e)
      (fun s => s.serves = true ∧ s.feat 19 = true ∧ s.tw.hnPend = true ∧ s.tw.hnOff = false ∧ s.tw.hnRun < 8) f :=
  actsWhen_of (fun _ => rfl) (fun s h => hsent s ((notifies_iff s).2 h))
    (fun s h => if_pos (by simpa using mt (notifies_iff s).1 h))

/-! ### The rows -/

theorem araOn_iff (s : State) : s.araOn = true ↔ s.chan.accepted = none ∨ s.feat 17 = true := by
  simp [State.araOn]

/-- Settles O42: each row opens with one test, whose condition is the row's; a reply read goes by the reply that is held. -/
theorem twoWireRows : Obligations.TwoWireRows := by
  refine ⟨?fixed, ?noReply, ?quick, ?alert, ?inBand, ?unanswered, ?lost, ?won, ⟨?acked, ?nacked, ?arbLost⟩, ?suspend, ?scl, ?sda⟩
  case fixed =>
    intro count us s hs hc bs hr
    refine ⟨_, congrArg Host.Outcome.next (replyRead_fixed hs hc hr), hr, rfl, rfl, ?_, length_fit _ _ _⟩
    obtain ⟨rest, hbytes⟩ := twReplyBytes_head bs (twBegin s)
    dsimp only
    rw [hbytes, take_fit (by simp)]
    rfl
  case noReply =>
    intro count us s hs hc hr
    refine ⟨_, congrArg Host.Outcome.next (replyRead_none hs hc hr), rfl, hr, ?_⟩
    have hlen : 1 ≤ min count 257 := by omega
    obtain ⟨rest, hbytes⟩ := twReplyBytes_head [0x01] (twBegin s)
    dsimp only
    rw [hbytes, take_fit (by simp)]
    exact List.take_of_length_le hlen
  case quick => exact fun _ => actsWhen_if _ (fun _ => rfl) (fun _ => Iff.rfl)
  case alert => exact fun won => actsWhen_if _ (fun _ => rfl) (fun s => by simp [araOn_iff, and_assoc])
  case inBand => exact actsWhen_if _ (fun _ => rfl) (fun s => by simp [State.ibr, and_assoc])
  case unanswered => exact actsWhen_if _ (fun _ => rfl) (fun _ => Iff.rfl)
  case lost => exact actsWhen_unless (fun s => !s.tw.ibr) (fun _ => rfl) (fun s => by simp)
  case won => exact actsWhen_unless (fun s => !s.tw.ibr) (fun _ => rfl) (fun s => by simp)
  case acked => exact actsWhen_hostNotify (fun s h => if_neg (by simp [h]))
  case nacked => exact actsWhen_hostNotify (fun s h => if_neg (by simp [h]))
  case arbLost => exact actsWhen_hostNotify (fun s h => if_neg (by simp [h]))
  case suspend => exact actsWhen_of (fun _ => rfl) (fun s h => if_pos h) (fun s h => if_neg h)
  case scl => exact actsWhen_if _ (fun _ => rfl) (fun _ => Iff.rfl)
  case sda => exact actsWhen_if _ (fun _ => rfl) (fun _ => Iff.rfl)

end Sys2Proof.Machine

/-! Serial transactions that carry no unit: idle ones, busy ones, and those on a port held in reset or absent (R375, R383, R386,
R394, R397). -/

namespace Sys2Proof.Machine
open Sys2Proof Sys2Proof.Safety

/-- A port held in reset serves no commands. -/
theorem State.not_serves_of_not_rdy {s : State} (h : s.chan.rdy = false) : s.serves = false := by
  simp [State.serves, h]

/-- While the port is held in reset a busy transaction changes nothing, not even what the pin logic notes. -/
theorem hsBusy_reset (clocks : Nat) (mode3 : Bool) {s : State} (h : s.chan.rdy = false) : hsBusy clocks mode3 s = s := by
  simp [hsBusy, h]

/-- An absent port sends a zero; the transaction is not counted as busy (R386, R394). -/
theorem hsBusy_absent {clocks : Nat} {mode3 : Bool} {s : State} (h : s.chan.rdy = true)
    (hp : (hsEdge clocks mode3 s).hs.present = false) :
    hsBusy clocks mode3 s = (hsEdge clocks mode3 s).modPort .hs (fun q => { q with out := [0] }) := by
  simp [hsBusy, h, hp]

/-- A busy transaction on a present port sends the status byte and 0xFF, and is counted (R386, R394). -/
theorem hsBusy_present {clocks : Nat} {mode3 : Bool} {s : State} (h : s.chan.rdy = true)
    (hp : (hsEdge clocks mode3 s).hs.present = true) :
    let t := hsEdge clocks mode3 s
    hsBusy clocks mode3 s =
      { t.modPort .hs (fun q => { q with out := [b8 (statusByte .hs t), 0xFF] }) with hs.busy := satAdd 65535 t.hs.busy 1 } := by
  simp [hsBusy, h, hp]

/-- A port that serves no commands answers every transaction as a busy one. -/
theorem hsTransact_unserved (clocks : Nat) (mode3 : Bool) (inward : State → State) {s : State} (h : s.serves = false) :
    hsTransact clocks mode3 inward s = hsBusy clocks mode3 s := by
  simp [hsTransact, h]

/-- The clocks and the clock polarity of every transaction are noted (R397). -/
theorem hsEdge_notes (clocks : Nat) (mode3 : Bool) (s : State) :
    (hsEdge clocks mode3 s).hs.nclk = min 65536 clocks ∧ (hsEdge clocks mode3 s).hs.cpol = mode3 := ⟨rfl, rfl⟩

/-- Settles O31: an idle transaction goes by whether the port serves commands, a busy one by whether it is out of reset and
present. -/
theorem serialTransactions : Obligations.SerialTransactions := by
  refine fun x s => ⟨?idle, ?busy, ?absent, ?reset, hsEdge_notes _ _ _⟩
  case idle => exact fun hs hp => congrArg Host.Outcome.next (hsTransact_present _ _ id s hs hp)
  case busy => exact fun h hp => congrArg Host.Outcome.next (hsBusy_present h hp)
  case absent => exact fun h hp => congrArg Host.Outcome.next (hsBusy_absent h hp)
  case reset =>
    intro h
    have hbusy := hsBusy_reset x.clocks x.mode3 h
    have hidle := (hsTransact_unserved x.clocks x.mode3 id (State.not_serves_of_not_rdy h)).trans hbusy
    exact ⟨congrArg Host.Outcome.next hidle, congrArg Host.Outcome.next hbusy⟩

end Sys2Proof.Machine

/-! The commands of the thermal household, of the memory port, of the clock, the ledger and diagnostics, and of the span (R403-R405,
R411, R413, R424, R464-R468, R497-R502, R528, R529, R549). What a fan's record answers is log 11; several relayed commands at once
are log 22. -/

namespace Sys2Proof.Machine
open Sys2Proof Sys2Proof.Safety

/-- A command served under no more than its own steps: `carries_ordinary` with what holds of each such row by its definition. -/
theorem ordinaryCommand {mk : HostUnit → Instr} {code : Nat} {c : Cmd} {cond : HostUnit → State → Prop}
    {f : HostUnit → State → Reply × State}
    (hcond : ∀ (u : HostUnit) (d : State),
      served (c.checks u.port u.payload d).feats (c.checks u.port u.payload d).longest u d ∧
        (c.checks u.port u.payload d).ownSteps d ↔ cond u d)
    (hrun : ∀ (u : HostUnit) (e : State), c.run u.port u.payload e = f u e := by exact fun _ _ => rfl)
    (hrow : ∀ u s, exec (mk u) s = hostRow code c u s := by exact fun _ _ => rfl)
    (hord : ∀ (u : HostUnit) (d : State), (c.checks u.port u.payload d).ordinary := by
      exact fun _ _ => ⟨rfl, rfl, rfl, rfl, rfl⟩) :
    carries mk code c cond f := carries_ordinary hrow hord hcond hrun

/-- The same of a command that its own rules can lock. -/
theorem lockableCommand {mk : HostUnit → Instr} {code : Nat} {c : Cmd} {cond : HostUnit → State → Prop}
    {f : HostUnit → State → Reply × State}
    (hcond : ∀ (u : HostUnit) (d : State),
      served (c.checks u.port u.payload d).feats (c.checks u.port u.payload d).longest u d ∧
        (c.checks u.port u.payload d).locked = false ∧ (c.checks u.port u.payload d).ownSteps d ↔ cond u d)
    (hrun : ∀ (u : HostUnit) (e : State), c.run u.port u.payload e = f u e := by exact fun _ _ => rfl)
    (hrow : ∀ u s, exec (mk u) s = hostRow code c u s := by exact fun _ _ => rfl)
    (hord : ∀ (u : HostUnit) (d : State), { c.checks u.port u.payload d with locked := false }.ordinary := by
      exact fun _ _ => ⟨rfl, rfl, rfl, rfl, rfl⟩) :
    carries mk code c cond f :=
  carries_of_judged hrow (fun u _ _ => (verdict_lockable u _ _ (hord u _)).trans (hcond u _)) hrun

/-! ### Policy, fans and backlight -/

/-- The bands of FAN_SKIP are in range where each of them is (R499). -/
theorem bandsOf_all (p : List Byte) : (bandsOf p).all (fun b => b.1 < b.2 && b.2 ≤ 20000) = true ↔
    ∀ k < byteAt p 1, leAt p (2 + 4 * k) 2 < leAt p (4 + 4 * k) 2 ∧ leAt p (4 + 4 * k) 2 ≤ 20000 := by
  simp [bandsOf]

/-- Settles O38: each command is taken apart by its own checks, and FAN_SKIP's bands one by one. -/
theorem thermalCommands : Obligations.ThermalCommands := by
  refine ⟨?policy, ?fan, ?skip, ?set, ?curve⟩
  case policy =>
    refine ordinaryCommand (fun u d => ?_) (fun u e => ?_)
    · simp [cmdThermPolicy, Checks.ownSteps, or_assoc]
    · simp only [cmdThermPolicy, policyIn]
      by_cases hread : byteAt u.payload 0 = 0xFE
      · simp [hread, done, ok]
      · by_cases hcustom : byteAt u.payload 0 = 0xFF <;> simp [hread, hcustom, done, ok]
  case fan =>
    refine ordinaryCommand fun u d => ?_
    simp [cmdFanSet, Checks.ownSteps]
  case skip =>
    refine ordinaryCommand fun u d => ?_
    simp only [cmdFanSkip, Checks.ownSteps, Bool.and_eq_true, bandsOf_all]
    simp [and_assoc]
  case set =>
    refine ordinaryCommand (fun u d => ?_) (fun u e => ?_)
    · simp [cmdBlSet, Checks.ownSteps, blSetOk, and_assoc]
    · simp only [cmdBlSet, bit_eq_testBit]
      rfl
  case curve =>
    refine ordinaryCommand fun u d => ?_
    simp [cmdBlCurve, Checks.ownSteps, blCurveOk, and_assoc, Nat.lt_succ_iff]

/-! ### Memory port, clock, ledger and diagnostics -/

/-- A slot of the ledger key is to be had while one of the two is blank. -/
theorem blankSlot_isSome (a b : OtpSlot) : (blankSlot a b).isSome = true ↔ a.isBlank = true ∨ b.isBlank = true := by
  unfold blankSlot
  split_ifs <;> simp_all

/-- LEDGER_CONFIG is locked, busy or out of range by its operation (R510, R529). -/
theorem ledgerConfig_steps (pl : List Byte) (d : State) :
    (ledLocked pl d = false ∧ (byteAt pl 0 == 1 && d.otp.write.isSome) = false ∧ ledCfgOk pl d = true) ↔
      (byteAt pl 0 = 0 → d.led.lock = false ∧ 3600 ≤ leAt pl 1 4 ∧ leAt pl 1 4 ≤ 2678400 ∧
        leAt pl 5 4 < leAt pl 1 4 ∧ byteAt pl 9 ≤ 3 ∧
        ((byteAt pl 9).testBit 0 = true → d.feat 84 = true ∧ d.ledgerKey ≠ none) ∧ 5 ≤ byteAt pl 10 ∧ byteAt pl 10 ≤ 240) ∧
      (byteAt pl 0 = 1 → d.aon.mode = .service ∧ d.ledgerKey = none ∧
        (d.otp.ledA.isBlank = true ∨ d.otp.ledB.isBlank = true) ∧ d.otp.write = none ∧ leAt pl 1 32 ≠ 0) ∧
      byteAt pl 0 ≤ 1 := by
  have hop : byteAt pl 0 = 0 ∨ byteAt pl 0 = 1 ∨ 2 ≤ byteAt pl 0 := by omega
  simp only [ledLocked, ledCfgOk, ← eq_false_or_iff_imp, ← blankSlot_isSome]
  rcases hop with h | h | h
  · simp [h, and_assoc, bit_eq_testBit, Option.isSome_iff_ne_none]
  · cases blankSlot d.otp.ledA d.otp.ledB <;> simp [h, and_assoc]
  · have h0 : byteAt pl 0 ≠ 0 := by omega
    have h1 : byteAt pl 0 ≠ 1 := by omega
    have hno : ¬ byteAt pl 0 ≤ 1 := by omega
    simp [h0, h1, hno]

/-- Settles O39: each command is taken apart by its own checks; LEDGER_CONFIG, DIAG_SELFTEST and the others of SERVICE can lock
themselves. -/
theorem memoryClockAndDiagnosticCommands : Obligations.MemoryClockAndDiagnosticCommands := by
  refine ⟨?profile, ?discover, ?program, ?erase, ?xip, ?clockSet, ?clock, ?ledger, ?selftest, ?pins, ?loopback, ?completes,
    ?none⟩
  case profile =>
    refine ordinaryCommand fun u d => ?_
    simp [cmdMemProfile, Checks.ownSteps, and_assoc]
  case discover =>
    refine ordinaryCommand fun u d => ?_
    simp [cmdMemDiscover, Checks.ownSteps, and_assoc]
  case program =>
    refine ordinaryCommand (fun u d => ?_) (fun u e => ?_)
    · simp [cmdMemProgram, Checks.ownSteps, flashLen_iff, and_assoc, Option.isSome_iff_ne_none]
      omega
    · simp only [cmdMemProgram, memProgram, List.length_drop]
      rfl
  case erase =>
    refine ordinaryCommand (fun u d => ?_) (fun u e => ?_)
    · simp [cmdMemErase, Checks.ownSteps, eraseLen, and_assoc, Option.isSome_iff_ne_none]
      tauto
    · simp only [cmdMemErase, memErase, eraseLen, beq_iff_eq]
      rfl
  case xip =>
    refine ordinaryCommand (fun u d => ?_) (fun u e => ?_)
    · simp [cmdMemXip, Checks.ownSteps, and_assoc, Option.isSome_iff_ne_none]
    · simp only [cmdMemXip, memXip, beq_iff_eq]
      rfl
  case clockSet =>
    refine ordinaryCommand fun u d => ?_
    simp [cmdClockSet, Checks.ownSteps]
  case clock => exact fun port w frac s => ⟨rfl, rfl, rfl, rfl⟩
  case ledger =>
    refine lockableCommand (fun u d => ?_) (fun u e => ?_)
    · rw [← ledgerConfig_steps]
      simp [cmdLedgerConfig, Checks.ownSteps]
      tauto
    · simp only [cmdLedgerConfig, beq_iff_eq]
      rfl
  case selftest =>
    refine lockableCommand fun u d => ?_
    simp [cmdDiagSelftest, Checks.ownSteps]
  case pins =>
    refine lockableCommand fun u d => ?_
    refine Iff.trans (b := served [] (groupPins (byteAt u.payload 0)) u d ∧ d.aon.mode = .service ∧ u.payload.length = 1 ∧
      byteAt u.payload 0 ≤ 5 ∧ spare none d) ?_ Iff.rfl
    simp [cmdDiagPins, Checks.ownSteps]
  case loopback =>
    refine lockableCommand fun u d => ?_
    simp [cmdDiagLoopback, Checks.ownSteps, and_assoc, Option.isSome_iff_ne_none]
  case completes =>
    intro timeout result pl code t rest s h
    change execDiagComplete timeout result s = _
    simp [execDiagComplete, h]
  case none =>
    intro timeout result s h
    change execDiagComplete timeout result s = _
    simp [execDiagComplete, h]

/-! ### The span -/

/-- Settles O40: SPAN_CONFIG and SPAN_PULL by the role that they find; SPAN_RELAY by the command
that it carries. -/
theorem spanCommands : Obligations.SpanCommands := by
  refine ⟨?config, ?pull, ?relay, ?noRelay, ?timeout⟩
  case config =>
    refine ordinaryCommand (fun u d => ?_) (fun u e => ?_)
    · simp [cmdSpanConfig, Checks.ownSteps]
    · by_cases hrole : e.span.role = 2 <;> simp [cmdSpanConfig, takeTag, tagged, withTag, ok, State.leads, hrole, deferCmd, b8]
  case pull =>
    refine ordinaryCommand (fun u d => ?_) (fun u e => ?_)
    · simp [cmdSpanPull, Checks.ownSteps, and_assoc]
    · by_cases hrole : e.span.role = 5 ∨ e.span.role = 1 <;> simp [cmdSpanPull, takeTag, tagged, withTag, ok, hrole, b8]
  case relay =>
    refine carriesAs_of_verdict (fun _ => rfl) (fun _ _ => rfl) (fun u d => (verdict_unit u _ d).trans ?_) (fun u e => rfl)
    simp [cmdSpanRelay, Checks.ownSteps, notRelayed, served, notFollower, and_assoc]
    grind
  case noRelay =>
    intro s h
    change execSpanRelayTimeout s = _
    simp [execSpanRelayTimeout, h]
  case timeout =>
    intro m t rest s h
    change execSpanRelayTimeout s = _
    simp [execSpanRelayTimeout, h]

end Sys2Proof.Machine

/-! What each kind of reset keeps and what it loses (R543, R546). -/

namespace Sys2Proof.Machine
open Sys2Proof Sys2Proof.Safety

/-- The clock after a power-on reset: a trim at the end of its range counts as at the rail already (R96). -/
theorem wipe_clk (s : State) :
    (wipe s).clk = { State.reset.clk with keepRail := decide (s.otp.trim = -128 ∨ s.otp.trim = 127) } := by
  simp [wipe, beq_eq_decide]

/-- Settles O57: what a reset keeps is what its definition copies. -/
theorem resetsKeep : Obligations.ResetsKeep :=
  ⟨fun s => ⟨rfl, rfl, rfl, rfl, rfl, rfl, rfl, rfl, rfl, wipe_clk s, rfl, rfl, rfl⟩,
   fun _ => ⟨rfl, rfl, rfl, rfl, rfl, rfl, rfl, rfl, rfl, rfl, rfl, rfl, rfl, rfl, rfl, rfl, rfl, rfl, rfl⟩⟩

end Sys2Proof.Machine

/-! The rows of the fans and their bridges (R64, R473-R479, R485-R490). A record that was set takes effect at the fan's next tick, and
the override is evaluated there (log 11); what a grown fan asks for is log 32. -/

namespace Sys2Proof.Machine
open Sys2Proof Sys2Proof.Safety

/-! ### What an update leaves of the fans and of the grants -/

theorem reportsOnly.thermal {s t : State} (h : reportsOnly s t) : t.thermal = s.thermal := by rw [h]

theorem reportsOnly_record (typ : Nat) (payload : List Byte) (s : State) : reportsOnly s (record typ payload s) :=
  reportsOnly_putHouse _ _ _ s

@[simp] theorem thermal_thermalRec (sub item : Nat) (value : Int) (s : State) :
    (thermalRec sub item value s).thermal = s.thermal := (reportsOnly_record _ _ s).thermal

theorem thermal_follow (cls who need : Nat) (s : State) : (follow cls who need s).thermal = s.thermal := by
  unfold follow
  dsimp only
  split_ifs <;> rfl

/-- A new cost is that of the same grant: no requester comes to hold one. -/
theorem grantOf_setCost_of_none (cls who cost : Nat) (s : State) (c w : Nat) (h : s.grantOf c w = none) :
    (setCost cls who cost s).grantOf c w = none := by
  simp only [State.grantOf, State.grants, List.find?_eq_none, List.mem_filterMap, id_eq, exists_eq_right] at h ⊢
  intro g hg
  obtain ⟨old, hold, hnew⟩ := List.mem_map.1 hg
  cases old with
  | none => cases hnew
  | some k =>
    have := h k hold
    dsimp only at hnew
    split at hnew <;> cases hnew <;> exact this

/-- Following a need grants nothing that was not held. -/
theorem grantOf_follow_of_none (cls who need : Nat) (s : State) (c w : Nat) (h : s.grantOf c w = none) :
    (follow cls who need s).grantOf c w = none := by
  unfold follow
  dsimp only
  split_ifs
  · exact grantOf_releaseGrant_of_none _ _ s c w h
  · exact h
  · exact grantOf_setCost_of_none _ _ _ s c w h
  · exact h

/-- A start grant that becomes a run grant in its slot (R64). -/
def runGrant (n : Nat) (s : State) : State :=
  { s with power.slots := s.power.slots.map (fun (g : Option Grant) => match g with
      | some g => if g.cls == 0 && g.who == 0x40 + n then some { g with cls := 1 } else some g
      | none => none) }

theorem grantOf_runGrant (n : Nat) (s : State) : (runGrant n s).grantOf 0 (0x40 + n) = none := by
  simp only [State.grantOf, State.grants, List.find?_eq_none, List.mem_filterMap, id_eq, exists_eq_right]
  intro g hg
  obtain ⟨old, -, hnew⟩ := List.mem_map.1 hg
  cases old with
  | none => cases hnew
  | some k =>
    dsimp only at hnew
    split at hnew <;> cases hnew
    · simp
    · assumption

theorem exec_fanStartToRun_after8s (n mw : Nat) (s : State) (hn : n < 3) (hg : (s.grantOf 0 (0x40 + n)).isSome = true)
    (hd : (s.fan n).driven = true) : exec (.fanStartToRun n mw true) s = .next (follow 1 (0x40 + n) (max 1 (ceilDiv (11 * mw) 500))
      ((runGrant n s).modFan n (fun f => { f with measured := max 1 (ceilDiv (11 * mw) 500) }))) := by
  refine congrArg Host.Outcome.next (if_pos ?_)
  simp [hn, hg, hd]

/-! ### A tick of one fan -/

/-- Of the fans, no more than fan `n` changes. -/
def onlyFan (n : Nat) (s t : State) : Prop :=
  t.thermal.fans.length = s.thermal.fans.length ∧ ∀ m, m ≠ n → t.fan m = s.fan m

theorem onlyFan.trans {n : Nat} {s t u : State} (h : onlyFan n s t) (h' : onlyFan n t u) : onlyFan n s u :=
  ⟨h'.1.trans h.1, fun m hm => (h'.2 m hm).trans (h.2 m hm)⟩

theorem onlyFan_of_fans {n : Nat} {s t : State} (h : t.thermal.fans = s.thermal.fans) : onlyFan n s t :=
  ⟨by rw [h], fun m _ => by rw [State.fan, State.fan, h]⟩

theorem onlyFan_modFan (n : Nat) (f : Fan → Fan) (s : State) : onlyFan n s (s.modFan n f) :=
  ⟨s.modFan_fans_length n f, fun m hm => s.fan_modFan_other n m f hm⟩

theorem onlyFan.ite {n : Nat} {s t u : State} {c : Prop} [Decidable c] (ht : onlyFan n s t) (hu : onlyFan n s u) :
    onlyFan n s (if c then t else u) := by
  split
  · exact ht
  · exact hu

theorem fans_overrideEval (s : State) : (overrideEval s).thermal.fans = s.thermal.fans := by
  unfold overrideEval overRec
  dsimp only
  split_ifs <;> simp [fresh]

theorem fans_fanAsk (n : Nat) (s : State) : (fanAsk n s).thermal.fans = s.thermal.fans := by
  unfold fanAsk
  dsimp only
  split <;> rfl

/-- A fan that has stopped in a state (R474). -/
def Fan.stopped (st : Nat) (f : Fan) : Fan :=
  { f with st := st, setMil := 0, drive := 0, integ := 0, current := 0, startStage := 0, holdDenied := false }

theorem fans_fanStop (st n : Nat) (s : State) :
    (fanStop st n s).thermal.fans = (s.modFan n (Fan.stopped st)).thermal.fans := rfl

/-- A fan that stops changes itself alone. -/
theorem onlyFan_fanStop (st n : Nat) (s : State) : onlyFan n s (fanStop st n s) :=
  (onlyFan_modFan n _ s).trans (onlyFan_of_fans (fans_fanStop st n s))

theorem fan_fanStop_same (st n : Nat) (s : State) (h : n < s.thermal.fans.length) :
    (fanStop st n s).fan n = (s.fan n).stopped st := by
  rw [State.fan, fans_fanStop, ← State.fan, s.fan_modFan_same n _ h]

/-- A record that takes effect is that of its fan (R498). -/
theorem onlyFan_fanApply (n : Nat) (s : State) : onlyFan n s (fanApply n s) := by
  unfold fanApply
  cases (s.fan n).recNext with
  | none => exact onlyFan_of_fans rfl
  | some r =>
    dsimp only
    have hset : ∀ f, onlyFan n s (s.modFan n f) := fun f => onlyFan_modFan n f s
    have hstop : ∀ f st, onlyFan n s (fanStop st n (s.modFan n f)) := fun f st => (hset f).trans (onlyFan_fanStop st n _)
    exact .ite (((hstop _ 0).trans (onlyFan_modFan n _ _)).trans (onlyFan_of_fans (fans_overrideEval _)))
      (.ite ((hstop _ _).trans (onlyFan_of_fans (fans_fanAsk n _))) (hset _))

/-- The tick of a driven fan moves its setpoint and its drive; its target and its bridge's temperature stay. -/
theorem fanDrive_keeps (bs : List (Nat × Nat)) (estimate : Option Nat) (f : Fan) :
    (fanDrive bs estimate f).target = f.target ∧ (fanDrive bs estimate f).temp = f.temp := by
  unfold fanDrive
  dsimp only
  split_ifs <;> exact ⟨rfl, rfl⟩

/-- What a tick does once the fan's target and its samples stand: a fan without a target stops, a driven one goes on, one at rest
asks for its start (R473-R477). -/
def fanGoesOn (n : Nat) (estimate : Option Nat) (target : Nat) (s : State) : State :=
  if (s.fan n).driven && !(s.fan n).failed && target == 0 then fanStop 0 n s
  else if (s.fan n).driven then s.modFan n (fanDrive (s.bands n) estimate)
  else if (s.fan n).st == 0 && 0 < target then fanAsk n s
  else s

theorem fanGoesOn_keeps (n : Nat) (estimate : Option Nat) (target : Nat) (s : State) (h : n < s.thermal.fans.length) :
    onlyFan n s (fanGoesOn n estimate target s) ∧ ((fanGoesOn n estimate target s).fan n).target = (s.fan n).target ∧
      ((fanGoesOn n estimate target s).fan n).temp = (s.fan n).temp := by
  unfold fanGoesOn
  split_ifs
  · rw [fan_fanStop_same 0 n s h]
    exact ⟨onlyFan_fanStop 0 n s, rfl, rfl⟩
  · rw [s.fan_modFan_same n _ h]
    exact ⟨onlyFan_modFan n _ s, fanDrive_keeps _ _ _⟩
  · have hfan : (fanAsk n s).fan n = s.fan n := by rw [State.fan, fans_fanAsk, State.fan]
    rw [hfan]
    exact ⟨onlyFan_of_fans (fans_fanAsk n s), rfl, rfl⟩
  · exact ⟨onlyFan_of_fans rfl, rfl, rfl⟩

/-- The samples of a tick, with the fan's new target. -/
def fanSampled (x : FanSample) (vmotUv : Bool) (target : Nat) (f : Fan) : Fan :=
  let emf := bit (byteAt f.record 0) 1
  let f := { f with fgIdle := f.fgIdle + 1 }
  let v := if emf then x.estimate.getD 0 else fgSpeed f
  let w := (f.window ++ [v]).drop (f.window.length + 1 - 100)
  { f with target := target, current := x.current, temp := x.temp, inst := v, window := w, speed := min 65535 (meanOf w)
           retryMs := if f.st == 3 && !vmotUv then f.retryMs - 1 else f.retryMs }

/-- The state in which a tick forms the fan's target (R473, R498). -/
def fanTicked (n : Nat) (s : State) : State :=
  overrideEval (fanApply n (wrote (fun k pl => (k == 0x64 && byteAt pl 0 == n) || regsFrom (0x9000 + 32 * n) 32 k pl) s))

theorem onlyFan_fanTicked (n : Nat) (s : State) : onlyFan n s (fanTicked n s) := by
  have hread : onlyFan n s (wrote (fun k pl => (k == 0x64 && byteAt pl 0 == n) || regsFrom (0x9000 + 32 * n) 32 k pl) s) :=
    onlyFan_of_fans rfl
  exact (hread.trans (onlyFan_fanApply n _)).trans (onlyFan_of_fans (fans_overrideEval _))

theorem exec_fanLoopTick (n : Nat) (x : FanSample) (s : State) (hn : n < 3) : exec (.fanLoopTick n x) s =
    .next (fanGoesOn n x.estimate (fanTarget (fanTicked n s) n)
      ((fanTicked n s).modFan n (fanSampled x (fanTicked n s).power.vmotUv (fanTarget (fanTicked n s) n)))) :=
  congrArg Host.Outcome.next (if_neg (Nat.not_le.2 hn))

/-! ### Bridges -/

/-- A hot bridge is recorded, and its fan fails unless it has failed or has lost VMOT (R490). -/
theorem exec_bridgeHot_hot (n : Nat) (temp : Int) (s : State) (hn : n < 3) (hlen : n < s.thermal.fans.length) (ht : 1500 ≤ temp)
    (hfit : s.fitted n = true) (hcool : (s.fan n).hot = false) :
    let f := s.fan n
    let t := fanRec 0x04 n 4 f.speed f.rpm ((s.modFan n (fun f => { f with temp := temp })).modFan n (fun f => { f with hot := true }))
    exec (.bridgeHot n temp) s = .next (if f.st = 3 ∨ f.st = 5 then t else fanFail n 4 t) := by
  have hfan : (s.modFan n (fun f => { f with temp := temp })).fan n = { s.fan n with temp := temp } := s.fan_modFan_same n _ hlen
  have hfit' : (s.modFan n (fun f => { f with temp := temp })).fitted n = true := by
    rw [← hfit, State.fitted, hfan]
    rfl
  change execBridgeHot n temp s = _
  rw [execBridgeHot, if_neg (Nat.not_le.2 hn)]
  dsimp only
  rw [if_pos (by simp [ht, hfan, hcool, hfit']), hfan]
  simp [Fan.rpm]

/-- Below 130.0 degrees the bridge may restart (R490). -/
theorem exec_bridgeHot_cool (n : Nat) (temp : Int) (s : State) (hn : n < 3) (hlen : n < s.thermal.fans.length) (ht : temp < 1300)
    (hhot : (s.fan n).hot = true) :
    exec (.bridgeHot n temp) s = .next (fanRec 0x05 n 0 (s.fan n).speed (s.fan n).rpm
      ((s.modFan n (fun f => { f with temp := temp })).modFan n (fun f => { f with hot := false }))) := by
  have hfan : (s.modFan n (fun f => { f with temp := temp })).fan n = { s.fan n with temp := temp } := s.fan_modFan_same n _ hlen
  change execBridgeHot n temp s = _
  rw [execBridgeHot, if_neg (Nat.not_le.2 hn)]
  dsimp only
  rw [if_neg (by simp [hfan, hhot]), if_pos (by simp [ht, hfan, hhot]), hfan]
  simp [Fan.rpm]

/-- Settles O52: a tick goes on from the state in which the fan's target stands, and touches no other fan; each other row opens
with one test, whose condition is the row's. -/
theorem fanRows : Obligations.FanRows := by
  refine ⟨?startToRun, ?remeasure, ?tick, ?noFan, ?pulse, ?alignEnd, ?tachAbsent, ?stall, ?retry, ?recovered, ?warm, ?hot,
    ?cool, ?short⟩
  case startToRun =>
    rintro n mw _ s hn hg hd rfl
    refine ⟨_, exec_fanStartToRun_after8s n mw s hn hg hd, grantOf_follow_of_none _ _ _ _ _ _ (grantOf_runGrant n s), fun hlen => ?_⟩
    rw [State.fan, thermal_follow, ← State.fan, State.fan_modFan_same (runGrant n s) n _ hlen]
  case remeasure =>
    intro n mw s hn hg hcost
    refine congrArg Host.Outcome.next ((if_pos ?_).trans (if_pos hcost))
    simp [hn, hg]
  case tick =>
    intro n x s hn hlen
    obtain ⟨hlen', hothers⟩ := onlyFan_fanTicked n s
    have hsample := State.fan_modFan_same (fanTicked n s) n
      (fanSampled x (fanTicked n s).power.vmotUv (fanTarget (fanTicked n s) n)) (hlen'.symm ▸ hlen)
    have hmod := onlyFan_modFan n (fanSampled x (fanTicked n s).power.vmotUv (fanTarget (fanTicked n s) n)) (fanTicked n s)
    obtain ⟨honly, htarget, htemp⟩ := fanGoesOn_keeps n x.estimate (fanTarget (fanTicked n s) n) _
      (hmod.1.symm ▸ hlen'.symm ▸ hlen)
    refine ⟨_, exec_fanLoopTick n x s hn, ?_, ?_, fun m hm => ?_⟩
    · rw [htarget, hsample]
      rfl
    · rw [htemp, hsample]
      rfl
    · exact ((hmod.trans honly).2 m hm).trans (hothers m hm)
  case noFan => exact fun n x s hn => congrArg Host.Outcome.next (if_pos hn)
  case pulse =>
    intro n w p
    refine actsWhen_of (fun _ => rfl) (fun s h => ?_) (fun s h => if_neg (by simpa [and_assoc] using h))
    obtain ⟨hn, hw, hp⟩ := h
    rw [if_pos (by simp [hn, hw, hp])]
    simp [fgSpeed, bits, Nat.pos_iff_ne_zero.1 hp]
  case alignEnd => exact fun n => actsWhen_if _ (fun _ => rfl) (fun s => by simp [and_assoc])
  case tachAbsent => exact fun n => actsWhen_if _ (fun _ => rfl) (fun s => by simp [and_assoc])
  case stall => exact fun n => actsWhen_if _ (fun _ => rfl) (fun s => by simp [and_assoc])
  case retry => exact fun n => actsWhen_if _ (fun _ => rfl) (fun s => by simp [and_assoc])
  case recovered => exact fun n => actsWhen_if _ (fun _ => rfl) (fun s => by simp [and_assoc])
  case warm =>
    intro n temp s hn hlo hhi
    change execBridgeHot n temp s = _
    simp [execBridgeHot, Nat.not_le.2 hn, Int.not_le.2 hhi, Int.not_lt.2 hlo]
  case hot => exact exec_bridgeHot_hot
  case cool => exact exec_bridgeHot_cool
  case short => exact fun n => actsWhen_if _ (fun _ => rfl) (fun s => by simp)

end Sys2Proof.Machine

/-! The rows of the ring: lock and break, packets in transit, and the election (R428, R431, R434, R435, R457-R459, R461, R463). That a
loss is counted with the lock, how long SPLIT stands and which packets are kept is log 18. -/

namespace Sys2Proof.Machine
open Sys2Proof Sys2Proof.Safety

/-! ### Completions, faults and records leave the span as it is -/

section
variable {s t : State} (h : reportsOnly s t)
include h

theorem reportsOnly.span : t.span = s.span := by rw [h]
theorem reportsOnly.spanx : t.spanx = s.spanx := by rw [h]

end

theorem reportsOnly_completeTag (t err : Nat) (comp : List Byte) (s : State) : reportsOnly s (completeTag t err comp s) := by
  unfold completeTag
  split
  · exact .refl s
  · split
    · rfl
    · exact .trans (t := { s with chan.tags := _ }) rfl (reportsOnly_raise _ _)

theorem reportsOnly_completeOpt (t : Option Nat) (err : Nat) (comp : List Byte) (s : State) :
    reportsOnly s (completeOpt t err comp s) := by
  cases t with
  | none => exact .refl s
  | some t => exact reportsOnly_completeTag t err comp s

theorem reportsOnly_cause (p : Port) (f : PortSt → PortSt) (s : State) : reportsOnly s (cause p f s) :=
  (reportsOnly_modPort p f s).trans (reportsOnly_raise p _)

theorem reportsOnly_latchFault (k : Nat) (s : State) : reportsOnly s (latchFault k s) := by
  have hnote : ∀ c, reportsOnly s { s with chan := c } := fun _ => rfl
  exact ((hnote _).trans (reportsOnly_cause .tw _ _)).trans (reportsOnly_cause .hs _ _)

theorem reportsOnly_spanRec (sub pos value : Nat) (s : State) : reportsOnly s (spanRec sub pos value s) :=
  reportsOnly_putHouse _ _ _ s

theorem reportsOnly_spanFault (s : State) : reportsOnly s (spanFault s) :=
  (reportsOnly_latchFault 9 s).trans ((reportsOnly_cause .tw _ _).trans (reportsOnly_cause .hs _ _))

/-- Of the span, leaving a ring forgets what the ring was to bring and keeps the rest (R458). -/
theorem clearRing_span (s : State) : (clearRing s).span = { s.span with
    joined := false, members := 0, heldMask := 0, excl := 0, inForce := BitVec.allOnes 128, hops := 0, d := 0
    colour := if s.span.split then s.span.colour else 0 } := by
  have hpull := (reportsOnly_completeOpt s.spanx.pullTag 0 [2, 0] s).span
  have hrelays : ∀ (rs : List (Nat × Nat)) (t : State),
      (rs.foldl (fun s r => completeTag r.2 0x0E [] s) t).span = t.span := fun rs t =>
    (reportsOnly.foldl (fun s r => reportsOnly_completeTag r.2 0x0E [] s) rs t).span
  simp only [clearRing, hrelays, hpull]

theorem becomeIsland_span (s : State) : (becomeIsland s).span = { s.span with
    role := 0, split := true, joined := false, members := 0, heldMask := 0, excl := 0, inForce := BitVec.allOnes 128, hops := 0
    d := 0 } := by
  unfold becomeIsland
  dsimp only
  rw [(reportsOnly_spanFault _).span, (reportsOnly_spanRec _ _ _ _).span, clearRing_span]
  rfl

/-! ### Lock and break -/

/-- A lock that is lost is counted once (R458). -/
theorem lockLost_eq (s : State) :
    (if s.span.lock then { s with span.lock := false, span.lost := satAdd 65535 s.span.lost 1 } else s) = { s with
      span.lost := if s.span.lock then min 65535 (s.span.lost + 1) else s.span.lost, span.lock := false } := by
  by_cases h : s.span.lock = true
  · simp [h, satAdd]
  · have hfree : s = { s with span.lock := s.span.lock } := rfl
    rw [Bool.not_eq_true] at h
    simpa [h] using hfree

/-- The state that a break of the ring leaves to its consequences. -/
def brokenRing (s : State) : State := { s with
  span.lost := if s.span.lock then min 65535 (s.span.lost + 1) else s.span.lost, span.lock := false }

theorem exec_ringBreak (s : State) : exec .ringBreak s = .next (loseRing (brokenRing s)) :=
  congrArg (fun t => Host.Outcome.next (loseRing t)) (lockLost_eq s)

/-- A part that neither leads nor has joined waits for a ring (R458). -/
theorem loseRing_waits (s : State) (hlead : s.span.role ≠ 2) (hjoin : s.span.role = 3 → s.span.joined = false)
    (h0 : s.span.role ≠ 0) : loseRing s = stopFrames { clearRing s with span.role := 0 } := by
  have hisland : (s.span.role == 2 || (s.span.role == 3 && s.span.joined)) = false := by
    simpa [hlead] using hjoin
  simp [loseRing, hisland, h0]

theorem startClaim_claims (s : State) (hon : s.spanOn = true) (hlock : s.span.lock = true)
    (hrole : s.span.role = 0 ∨ s.span.role = 5) : startClaim s = { clearRing s with span.role := 1, spanx.claimAt := none } :=
  if_pos (by simpa [hon, hlock] using hrole)

/-! ### Packets -/

/-- What is sent goes on the list of the last 64 packets (log 18). -/
theorem sendPacket_eq (typ dst frame : Nat) (payload : List Byte) (s : State) : sendPacket typ dst frame payload s = { s with
    spanx.sent := (s.spanx.sent ++ [({ typ := typ, src := s.pins.gpos, hops := 0, dst := dst, frame := frame % 256
                                       payload := payload } : Packet)]).drop (s.spanx.sent.length + 1 - 64) } := by
  simp [sendPacket]

/-! ### Election -/

/-- The claims that a part takes up: not those of other packets, nor in a part that has no ring or is excluded. -/
theorem claim_unheard (p : Packet) (s : State)
    (h : ¬ (heard p s = true ∧ p.typ = 1 ∧ p.payload.length = 33) ∨ s.span.role = 0 ∨ s.span.role = 5) : claim p s = s := by
  refine if_pos ?_
  simp only [← and_assoc] at h
  simpa [or_assoc, imp_iff_not_or, not_and_or] using h

/-- What a part does with a claim that it takes up. -/
theorem claim_heard (p : Packet) (s : State) (h : heard p s = true ∧ p.typ = 1 ∧ p.payload.length = 33)
    (h0 : s.span.role ≠ 0) (h5 : s.span.role ≠ 5) : claim p s =
      (let m := claimOf p
       if m.pos = s.pins.gpos then
         if m.uid = s.otp.uid then s
         else if m.uid < s.otp.uid then stopFrames (becomeExcluded 7 0 s)
         else { s with span.dupPos := true }
       else if s.span.role = 2 then
         if getBit s.span.members m.pos then classify m (spanRec 3 m.pos 0 (dropMember m.pos 1 s)) else classify m s
       else if s.span.role = 1 then
         if m.pos < s.pins.gpos then { putMember m s with spanx.claimAt := some s.clk.tb } else putMember m s
       else s) := by
  obtain ⟨hheard, htyp, hlen⟩ := h
  simp [claim, hheard, htyp, hlen, h0, h5]
  rfl

/-- Settles O53: the break goes by the role that it finds, and a claim by the sender's place and the part's role. -/
theorem ringRows : Obligations.RingRows := by
  refine ⟨?lock, ?startClaim, ?breaks, ?breaksIdle, ?breaksOther, ?island, ?healed, ?alone, ?noLock, ?crc, ?own, ?forward,
    ?crcRecord, ?crcNone, ?claimSend, ⟨?unheard, ?same, ?noted, ?claimant, ?member⟩, ?lacks, ?holds, ?elected, ?retry⟩
  case lock =>
    exact actsWhen_if (fun s => s.power.domCore && s.clk.lock && !s.clk.xtalFail) (fun _ => rfl) (fun s => by simp [and_assoc])
  case startClaim =>
    intro s hon hlock hrole
    rw [startClaim_claims s hon hlock hrole]
    exact ⟨rfl, rfl, rfl⟩
  case breaks =>
    intro s hrole
    rw [exec_ringBreak]
    refine congrArg Host.Outcome.next (if_pos ?_)
    simpa [brokenRing] using hrole
  case breaksIdle =>
    intro s hrole
    rw [exec_ringBreak]
    refine congrArg Host.Outcome.next ((if_neg ?_).trans (if_pos ?_)) <;> simp [brokenRing, hrole]
  case breaksOther =>
    intro s hrole
    refine ⟨_, (exec_ringBreak s).trans (congrArg Host.Outcome.next (loseRing_waits _ ?_ ?_ ?_)), rfl,
      congrArg (·.lock) (clearRing_span (brokenRing s)), rfl⟩
    · simp only [brokenRing]
      omega
    · simp only [brokenRing]
      rcases hrole with h | ⟨-, h⟩ | h | h
      · omega
      · exact fun _ => h
      · omega
      · omega
    · simp only [brokenRing]
      omega
  case island =>
    intro s
    rw [becomeIsland_span]
    exact ⟨rfl, rfl, rfl, rfl⟩
  case healed => exact actsWhen_if (fun s => s.span.split && s.spanOn && s.span.lock) (fun _ => rfl) (fun s => by simp [and_assoc])
  case alone => exact actsWhen_if _ (fun _ => rfl) (fun s => by simp [and_assoc])
  case noLock => exact fun p ok rtt s h => congrArg Host.Outcome.next (if_pos (by simp [h]))
  case crc =>
    intro p rtt s h
    exact congrArg Host.Outcome.next ((if_neg (by simp [h])).trans (if_pos rfl))
  case own =>
    intro p rtt s h hsrc hhops
    refine congrArg Host.Outcome.next ((if_neg (by simp [h])).trans ((if_neg (by simp)).trans ((if_pos ?_).trans ?_)))
    · simp [hsrc, hhops]
    · by_cases htyp : p.typ = 2 <;> simp [htyp]
  case forward =>
    intro p rtt s h hother
    refine congrArg Host.Outcome.next ((if_neg (by simp [h])).trans ((if_neg (by simp)).trans ((if_neg ?_).trans ?_)))
    · simpa [or_iff_not_imp_left] using hother
    · simp
  case crcRecord =>
    intro s hrun hdone
    refine congrArg Host.Outcome.next ((if_pos ?_).trans ?_)
    · simp [hrun, hdone]
    · simp [hrun]
  case crcNone =>
    intro s h
    refine congrArg Host.Outcome.next (if_neg ?_)
    simpa [or_iff_not_imp_left] using h
  case claimSend =>
    exact actsWhen_of (fun _ => rfl) (fun s h => (if_pos (by simpa using h)).trans (sendPacket_eq _ _ _ _ s))
      (fun s h => if_neg (by simpa using h))
  case unheard => exact fun p s h => congrArg Host.Outcome.next (claim_unheard p s h)
  case same =>
    intro p s h h0 h5 hpos
    have hclaim := claim_heard p s h h0 h5
    simp only [if_pos hpos] at hclaim
    refine ⟨fun hlater => congrArg Host.Outcome.next ?_, fun hearlier => congrArg Host.Outcome.next ?_⟩
    · rw [hclaim, if_neg (by omega), if_neg (by omega)]
    · rw [hclaim, if_neg (by omega), if_pos hearlier]
  case noted =>
    intro p s h hrole hpos
    have hclaim := claim_heard p s h (by omega) (by omega)
    simp only [if_neg (Nat.ne_of_lt hpos), if_neg (show s.span.role ≠ 2 by omega), if_pos hrole, if_pos hpos] at hclaim
    exact ⟨_, congrArg Host.Outcome.next hclaim, rfl, mem_insertBy _ _ _⟩
  case claimant =>
    intro p s h hrole hpos hmember
    have hclaim := claim_heard p s h (by omega) (by omega)
    simp only [if_neg hpos, if_pos hrole, hmember] at hclaim
    exact congrArg Host.Outcome.next hclaim
  case member =>
    intro p s h hrole hpos hmember
    have hclaim := claim_heard p s h (by omega) (by omega)
    simp only [if_neg hpos, if_pos hrole, hmember] at hclaim
    exact congrArg Host.Outcome.next hclaim
  case lacks => exact fun m s h => if_pos h
  case holds =>
    intro m s hlacks
    refine ⟨fun hhash => ?_, fun hhash hheld => ?_⟩
    · simp [classify, hlacks, hhash]
    · simp [classify, hlacks, hhash, hheld]
  case elected =>
    refine actsWhen_of (g := elected) (fun _ => rfl) (fun s h => ?_) (fun s h => ?_)
    · obtain ⟨hrole, hlock, hsince, hall⟩ := h
      exact (if_pos (by simp [hrole, hlock, hsince])).trans (if_neg (by rw [hall]; simp))
    · unfold elected
      split
      next hdue =>
        refine if_pos (Option.isSome_iff_ne_none.2 fun hall => h ?_)
        simp only [Bool.and_eq_true, beq_iff_eq] at hdue
        obtain ⟨⟨hrole, hlock⟩, hsince⟩ := hdue
        exact ⟨hrole, hlock, hsince, hall⟩
      next => rfl
  case retry => exact actsWhen_if (fun s => s.span.role == 5) (fun _ => rfl) (fun s => by simp)

end Sys2Proof.Machine

/-! Packets of the span: the beacon, the answers to a proposal, parts of a configuration, records, messages and relayed commands (R264,
R436-R439, R443, R447, R449, R454, R456, R467). The layouts are log 13; a follower too far from the beacon goes back to claiming
(log 18). -/

namespace Sys2Proof.Machine
open Sys2Proof Sys2Proof.Safety

/-! ### The beacon as it is sent -/

/-- Sending changes of the ring's part no more than what was sent and who still pulls. -/
def sendsOnly (s t : State) : Prop := ∃ xs ps, t = { s with spanx.sent := xs, spanx.pulls := ps }

theorem sendsOnly.trans {s t u : State} (h : sendsOnly s t) (h' : sendsOnly t u) : sendsOnly s u := by
  obtain ⟨xs, ps, rfl⟩ := h
  obtain ⟨ys, qs, rfl⟩ := h'
  exact ⟨ys, qs, rfl⟩

theorem sendsOnly_foldl {α : Type} {f : State → α → State} (hf : ∀ s a, sendsOnly s (f s a)) (xs : List α) (s : State) :
    sendsOnly s (xs.foldl f s) :=
  xs.foldlRecOn (motive := sendsOnly s) f ⟨_, _, rfl⟩ (fun t ht a _ => ht.trans (hf t a))

theorem sendsOnly_sendPacket (typ dst frame : Nat) (payload : List Byte) (s : State) :
    sendsOnly s (sendPacket typ dst frame payload s) := ⟨_, _, rfl⟩

theorem sendsOnly_servePulls (s : State) : sendsOnly s (servePulls s) :=
  (sendsOnly_foldl (fun t _ => sendsOnly_foldl (fun u _ => sendsOnly_sendPacket _ _ _ _ u) _ t) _ s).trans ⟨_, _, rfl⟩

/-- The end of a beacon's making: it is marked as sent and goes out, and those that pull are served (R436, R454). -/
def beaconGoesOut (n : Nat) (b : List Byte) (bin : Option Nat) (s : State) : State :=
  let t := servePulls (sendPacket 0x02 0xFF n b
    { s with spanx.beacon := some b, spanx.beaconSent := true, spanx.recolour := false, spanx.binSaid := bin })
  if t.aon.mode == .safe then { t with frame.n := n, frame.started := true } else t

theorem beaconGoesOut_marks (n : Nat) (b : List Byte) (bin : Option Nat) (s : State) :
    (beaconGoesOut n b bin s).spanx.beaconSent = true ∧ (beaconGoesOut n b bin s).spanx.recolour = false := by
  obtain ⟨xs, ps, h⟩ := (sendsOnly_sendPacket 0x02 0xFF n b
    { s with spanx.beacon := some b, spanx.beaconSent := true, spanx.recolour := false, spanx.binSaid := bin }).trans
      (sendsOnly_servePulls _)
  rw [beaconGoesOut, h]
  dsimp only
  split <;> exact ⟨rfl, rfl⟩

/-- A leader that has lock and frames sends its beacon once in a frame (R436). -/
theorem beaconSend_goesOut (s : State) (hrole : s.span.role = 2) (hlock : s.span.lock = true) (hsent : s.spanx.beaconSent = false)
    (hrun : s.framesRun = true) : ∃ n b bin t, beaconSend s = beaconGoesOut n b bin t := by
  refine ⟨_, _, _, _, (if_neg ?_).trans rfl⟩
  simp [hrole, hlock, hsent, hrun]

/-! ### The beacon as a follower takes it -/

/-- What a part takes of a beacon that it heard, and that another part sent. -/
def beaconTaken (p : Packet) (s : State) : Prop :=
  heard p s = true ∧ p.typ = 2 ∧ p.payload.length = 64 ∧ p.src % 16 ≠ s.pins.gpos

theorem beacon_untaken (p : Packet) (s : State)
    (h : heard p s = false ∨ p.typ ≠ 2 ∨ p.payload.length ≠ 64 ∨ p.src % 16 = s.pins.gpos ∨ s.span.role ∈ [0, 2, 5]) :
    beacon p s = s := by
  unfold beacon
  dsimp only
  split
  · rfl
  next hheard =>
    refine if_pos ?_
    simp at hheard
    obtain ⟨⟨⟨hh, htyp⟩, hlen⟩, hsrc⟩ := hheard
    simp [hh, htyp, hlen, hsrc] at h
    simp
    omega

/-- A part with the leader's configuration that lacks a required feature is excluded (R457). -/
theorem beacon_excludes (p : Packet) (s : State) (k : Nat) (h : beaconTaken p s)
    (hrole : s.span.role = 1 ∨ s.span.role = 3 ∨ s.span.role = 4) (hsame : slice p.payload 18 8 = spanHash s)
    (hk : firstMissing s.required (s.chan.accepted.getD 0) = some k) :
    beacon p s = stopFrames (becomeExcluded 6 k s) := by
  obtain ⟨hheard, htyp, hlen, hsrc⟩ := h
  unfold beacon
  dsimp only
  rw [if_neg (by simp [hheard, htyp, hlen, hsrc]), if_neg (by simpa [or_assoc, or_iff_not_imp_left] using hrole), hk, if_pos (by simp [hsame])]
  rfl

/-- The state that a follower's beacon leaves to what it says of clock, members, mode and proposal (R438, R439). -/
def beaconNoted (p : Packet) (s : State) : State :=
  let d := tickDiff (beaconPlace p s) (leAt p.payload 4 6)
  { s with
    span.d := roundDiv (d * 1000) 1024
    clk.slew := clampI (-500) 500 (-(roundDiv (d * 1000) 1024))
    span.hops := p.hops
    span.rtt := leAt p.payload 48 2
    span.leader := p.src % 16
    spanx.beacon := some p.payload
    spanx.beaconAt := beaconPlace p s }

theorem beacon_followed (p : Packet) (s : State) (h : beaconTaken p s) (hrole : s.span.role = 3 ∨ s.span.role = 4)
    (hfit : ¬ (slice p.payload 18 8 = spanHash s ∧ (firstMissing s.required (s.chan.accepted.getD 0)).isSome = true)) :
    beacon p s = if farTime (tickDiff (beaconPlace p s) (leAt p.payload 4 6)) then
        stopFrames { clearRing s with span.role := 1, spanx.claimAt := some s.clk.tb }
      else followProposal p.payload (followMode (byteAt p.payload 26) (byteAt p.payload 27)
        (followJoined p.payload (followClock (leAt p.payload 10 8) (beaconNoted p s)))) := by
  obtain ⟨hheard, htyp, hlen, hsrc⟩ := h
  have hnew : (s.span.role == 1) = false := by simp; omega
  unfold beacon
  dsimp only
  rw [if_neg (by simp [hheard, htyp, hlen, hsrc]), if_neg (by simp; omega), if_neg (by simpa using hfit)]
  cases hfar : farTime (tickDiff (beaconPlace p s) (leAt p.payload 4 6))
  · simp [hnew, bne, beaconNoted]
  · simp [hnew, bne]

/-- A joined follower answers a proposal whether its own changes come to the same configuration (R443, R455). -/
theorem followProposal_answers (b : List Byte) (s : State) (hrole : s.span.role = 3) (hjoined : s.span.joined = true)
    (hmode : s.aon.mode ≠ .safe) (hphase : byteAt b 51 = 1) :
    let p : Proposal := { kind := byteAt b 50, phase := 1, effect := leAt b 52 4, subject := slice b 56 8, ready := 0,
                          refused := false }
    followProposal b s = sendReady
      (if byteAt b 50 = 2 ∧ hashAfter s.spanx.changes { s with spanx.proposal := some p } ≠ slice b 56 8 then 1 else 0) 0
      { s with spanx.proposal := some p } := by
  simp only [followProposal, hphase]
  rw [if_neg (by simp [hrole, hjoined]), if_neg (by simpa using hmode)]
  exact (if_congr (by simp) rfl rfl).trans (apply_ite (sendReady · 0 _) _ 1 0).symm

/-! ### Answers -/

/-- The answers that a leader takes (R443, R455, R456). -/
def answered (p : Packet) (s : State) : Prop := heard p s = true ∧ p.typ = 6 ∧ s.span.role = 2 ∧ 6 ≤ p.payload.length

theorem ready_unanswered (p : Packet) (s : State) (h : ¬ answered p s) : ready p s = s := by
  refine if_pos ?_
  simpa [answered, imp_iff_not_or, or_assoc] using h

section
variable {p : Packet} {s : State} (h : answered p s)
include h

theorem ready_inSafe (hb : byteAt p.payload 0 = 3) : ready p s = modMember (p.src % 16) (fun m => { m with st := 5 }) s := by
  obtain ⟨hheard, htyp, hrole, hlen⟩ := h
  simp [ready, hheard, htyp, hrole, hlen, hb]

/-- A member that is ready is noted in the proposal; one that is not HELD has no more to report (R443). -/
theorem ready_agrees (x : Proposal) (hb : byteAt p.payload 0 = 0) (hx : s.spanx.proposal = some x)
    (hheld : getBit s.span.heldMask (p.src % 16) = false) :
    (ready p s).spanx.proposal = some { x with ready := setBit x.ready (p.src % 16) true } := by
  obtain ⟨hheard, htyp, hrole, hlen⟩ := h
  simp [ready, hheard, htyp, hrole, hlen, hb, modMember, hheld, hx]

theorem ready_heldAgain (hb : byteAt p.payload 0 = 4) : ready p s =
    if getBit s.span.members (p.src % 16) then spanRec 4 (p.src % 16) 0
      { dropMember (p.src % 16) 3 s with span.heldMask := setBit s.span.heldMask (p.src % 16) true } else s := by
  obtain ⟨hheard, htyp, hrole, hlen⟩ := h
  simp [ready, hheard, htyp, hrole, hlen, hb]

/-- Any other answer of a joined member refuses the proposal (R443). -/
theorem ready_refuses (x : Proposal) (hb : byteAt p.payload 0 ∉ [0, 3, 4]) (hx : s.spanx.proposal = some x)
    (hmember : getBit s.span.members (p.src % 16) = true) :
    ready p s = { s with spanx.proposal := some { x with refused := true } } := by
  obtain ⟨hheard, htyp, hrole, hlen⟩ := h
  simp only [List.mem_cons, List.not_mem_nil, or_false, not_or] at hb
  obtain ⟨h0, h3, h4⟩ := hb
  simp [ready, hheard, htyp, hrole, hlen, hmember, hx]

end

/-! ### The configuration in parts -/

/-- The parts that a follower or a HELD member takes (R454). -/
def partTaken (p : Packet) (s : State) : Prop :=
  heard p s = true ∧ p.typ = 7 ∧ 9 ≤ p.payload.length ∧ (s.span.role = 3 ∨ s.span.role = 4)

theorem config_untaken (p : Packet) (s : State) (h : ¬ partTaken p s) : config p s = s := by
  refine if_pos ?_
  simpa [partTaken, imp_iff_not_or, or_assoc] using h

section
variable {p : Packet} {s : State} (h : partTaken p s)
include h

/-- A part that does not follow what has come is dropped. -/
theorem config_gap (hoff : leAt p.payload 1 4 ≠ 0)
    (hgap : byteAt p.payload 0 ≠ s.spanx.recvKind ∨ leAt p.payload 1 4 ≠ s.spanx.recv.length) : config p s = s := by
  obtain ⟨hheard, htyp, hlen, hrole⟩ := h
  refine (if_neg (by simpa [hheard, htyp, hlen, or_iff_not_imp_left] using hrole)).trans (if_pos ?_)
  simpa [hoff, imp_iff_not_or] using hgap

/-- The first part begins anew, and more are awaited. -/
theorem config_begins (hoff : leAt p.payload 1 4 = 0) (hmore : (p.payload.drop 9).length < leAt p.payload 5 4) :
    config p s = { s with
      spanx.recvKind := byteAt p.payload 0, spanx.recvTotal := leAt p.payload 5 4, spanx.recv := p.payload.drop 9
      span.pulled := if byteAt p.payload 0 = 0 then (p.payload.drop 9).length else s.span.pulled } := by
  obtain ⟨hheard, htyp, hlen, hrole⟩ := h
  refine (if_neg (by simpa [hheard, htyp, hlen, or_iff_not_imp_left] using hrole)).trans ((if_neg (by simp [hoff])).trans ((if_pos ?_).trans ?_))
  · simpa [hoff] using hmore
  · simp [hoff]

end

/-! ### Records and messages -/

/-- What a leader takes of a member's records: a record, or the end marker of the frame being computed (R449). -/
def relayTaken (p : Packet) (s : State) : Prop :=
  heard p s = true ∧ p.typ = 9 ∧ s.span.role = 2 ∧ ((p.payload.length = 17 ∧ byteAt p.payload 0 < 32) ∨
    (p.payload = [0xFF#8] ∧ p.frame = s.frame.comp % 256))

theorem relay_taken {p : Packet} {s : State} (h : relayTaken p s) : relay p s =
    if p.payload = [0xFF#8] then { s with spanx.markers := setBit s.spanx.markers (p.src % 16) true }
    else
      let r := recOf (p.payload.drop 1)
      let t := if p.frame ≠ s.frame.comp % 256 ∨ s.frame.phase = 3 then
          { s with span.late := min 65535 (s.span.late + 1) } else s
      putCtx (byteAt p.payload 0) { r with origin := r.origin % 128 + 128 } t := by
  obtain ⟨hheard, htyp, hrole, ⟨hlen, hctx⟩ | ⟨hmark, hnow⟩⟩ := h
  · have hrec : p.payload ≠ [0xFF#8] := fun hmark => by simp [hmark] at hlen
    simp [relay, hheard, htyp, hrole, hrec, hlen, hctx, satAdd, or_iff_not_imp_left]
  · simp [relay, hheard, htyp, hrole, hmark, hnow]

theorem relay_untaken {p : Packet} {s : State} (h : ¬ relayTaken p s) : relay p s = s := by
  unfold relay
  dsimp only
  split
  next => rfl
  next hheard =>
    simp at hheard
    obtain ⟨⟨hh, htyp⟩, hrole⟩ := hheard
    have hno := fun hkind => h ⟨hh, htyp, hrole, hkind⟩
    split
    next hmark => exact if_neg fun hnow => hno (.inr ⟨by simpa using hmark, by simpa using hnow⟩)
    next => exact if_pos (by simpa [imp_iff_not_or] using fun hlen => hno (.inl hlen))

/-- The messages that a part takes (R264). -/
def msgTaken (p : Packet) (s : State) : Prop :=
  heard p s = true ∧ p.typ = 10 ∧ s.inSpan = true ∧ (p.payload.length = 1 ∨ p.payload.length = 9) ∧ byteAt p.payload 0 < 32

theorem msg_taken {p : Packet} {s : State} (h : msgTaken p s) : msg p s =
    if p.payload.length = 1 then { s with spanx.faultNext := setBit s.spanx.faultNext (byteAt p.payload 0) true }
    else { s with spanx.msgsIn := s.spanx.msgsIn ++ [(byteAt p.payload 0, p.src % 16, p.payload.drop 1)] } := by
  obtain ⟨hheard, htyp, hspan, hlen | hlen, hctx⟩ := h <;> simp [msg, hheard, htyp, hspan, hlen, hctx]

theorem msg_untaken {p : Packet} {s : State} (h : ¬ msgTaken p s) : msg p s = s := by
  unfold msg
  split
  next => rfl
  next hheard =>
    simp at hheard
    obtain ⟨⟨⟨hh, htyp⟩, hspan⟩, hctx⟩ := hheard
    have hno := fun hlen => h ⟨hh, htyp, hspan, hlen, hctx⟩
    rw [if_neg (fun h1 => hno (.inl (by simpa using h1))), if_neg (fun h9 => hno (.inr (by simpa using h9)))]

/-! ### Relayed commands -/

/-- The packets of relayed commands that a part takes (R467). -/
def cmdTaken (p : Packet) (s : State) : Prop := heard p s = true ∧ p.typ = 11 ∧ 3 ≤ p.payload.length

/-- The port that a relayed command names. -/
def relayPort (p : Packet) : Port := if byteAt p.payload 1 = 0 then .tw else .hs

theorem cmdPacket_untaken (p : Packet) (s : State) (h : ¬ cmdTaken p s) : cmdPacket p s = s := by
  refine if_pos ?_
  simpa [cmdTaken, imp_iff_not_or, or_assoc] using h

section
variable {p : Packet} {s : State} (h : cmdTaken p s)
include h

/-- A reply completes the oldest command that the leader relayed to its sender (R467, log 22). -/
theorem cmdPacket_reply (hb : byteAt p.payload 0 ≠ 0) (hrole : s.span.role = 2) : cmdPacket p s =
    ((s.spanx.relays.find? (fun r => r.1 == p.src % 16)).map (fun r =>
      completeTag r.2 0 (p.payload.drop 3) { s with spanx.relays := s.spanx.relays.erase r })).getD s := by
  obtain ⟨hheard, htyp, hlen⟩ := h
  refine (if_neg (by simp [hheard, htyp, hlen])).trans ((if_neg (by simpa using hb)).trans ?_)
  simp only [hrole]
  cases hr : s.spanx.relays.find? (fun r => r.1 == p.src % 16) <;> simp

/-- A member carries a relayed command out, and sends its reply to the leader (R467, log 13). -/
theorem cmdPacket_request (hb : byteAt p.payload 0 = 0) (hrole : s.span.role = 3 ∨ s.span.role = 4) :
    let r := relayed (relayPort p) (byteAt p.payload 2) (p.payload.drop 3) s
    (r.1 = none → cmdPacket p s = r.2) ∧
    ∀ bs, r.1 = some bs → cmdPacket p s =
      sendPacket 0x0B r.2.span.leader r.2.frame.n ([1, b8 (byteAt p.payload 1), 0] ++ bs) r.2 := by
  obtain ⟨hheard, htyp, hlen⟩ := h
  have hcmd : cmdPacket p s = _ :=
    (if_neg (by simp [hheard, htyp, hlen])).trans ((if_pos (by simp [hb])).trans (if_pos (by simpa using hrole)))
  have hport : (if (byteAt p.payload 1 == 0) = true then Port.tw else Port.hs) = relayPort p := by simp [relayPort]
  simp only [hport] at hcmd
  rw [hcmd]
  cases relayed (relayPort p) (byteAt p.payload 2) (p.payload.drop 3) s with
  | mk r t => cases r <;> simp

end

/-- Settles O54: each packet is left as it is or taken up, and what is taken up goes by its first byte and the part's role. -/
theorem spanPacketRows : Obligations.SpanPacketRows := by
  refine ⟨?noBeacon, ?beaconSend, ?untaken, ?followed, ?excludes, ?answers,
    ⟨?unanswered, ?inSafe, ?agrees, ?heldAgain, ?refuses⟩, ?pull, ⟨?noPart, ?gap, ?begins⟩, ?census, ?relay, ?msg,
    ⟨?noCmd, ?reply, ?request⟩⟩
  case noBeacon =>
    intro s h
    refine congrArg Host.Outcome.next (if_pos ?_)
    rcases h with h | h | ⟨h, hmode⟩ <;> simp [*]
  case beaconSend =>
    intro s hrole hlock hsent hrun
    obtain ⟨n, b, bin, t, h⟩ := beaconSend_goesOut s hrole hlock hsent hrun
    rw [h]
    exact ⟨congrArg Host.Outcome.next h, beaconGoesOut_marks n b bin t⟩
  case untaken => exact fun p s h => congrArg Host.Outcome.next (beacon_untaken p s h)
  case followed =>
    intro p s hheard htyp hlen hsrc hrole hfit
    have h := beacon_followed p s ⟨hheard, htyp, hlen, hsrc⟩ hrole hfit
    exact ⟨fun hfar => congrArg Host.Outcome.next (h.trans (if_pos hfar)),
      fun hnear => congrArg Host.Outcome.next (h.trans (if_neg (by simp [hnear])))⟩
  case excludes =>
    exact fun p s hheard htyp hlen hsrc hrole hsame k hk =>
      congrArg Host.Outcome.next (beacon_excludes p s k ⟨hheard, htyp, hlen, hsrc⟩ hrole hsame hk)
  case answers => exact fun s hrole hjoined hmode b hphase => followProposal_answers b s hrole hjoined hmode hphase
  case unanswered => exact fun p s h => congrArg Host.Outcome.next (ready_unanswered p s h)
  case inSafe => exact fun p s h hb => congrArg Host.Outcome.next (ready_inSafe h hb)
  case agrees => exact fun p s x h hb hx hheld => ⟨_, rfl, ready_agrees h x hb hx hheld⟩
  case heldAgain => exact fun p s h hb => congrArg Host.Outcome.next (ready_heldAgain h hb)
  case refuses => exact fun p s x h hb hx hmember => congrArg Host.Outcome.next (ready_refuses h x hb hx hmember)
  case pull =>
    refine fun p => actsWhen_of (fun _ => rfl) (fun s h => if_neg ?_) (fun s h => if_pos ?_)
    · obtain ⟨hheard, htyp, hrole⟩ := h
      simp [hheard, htyp, hrole]
    · simpa [imp_iff_not_or, or_assoc] using h
  case noPart => exact fun p s h => congrArg Host.Outcome.next (config_untaken p s h)
  case gap => exact fun p s h hoff hgap => congrArg Host.Outcome.next (config_gap h hoff hgap)
  case begins => exact fun p s h hoff hmore => congrArg Host.Outcome.next (config_begins h hoff hmore)
  case census => exact fun p => actsWhen_if _ (fun _ => rfl) (fun s => by simp [and_assoc])
  case relay =>
    refine fun p => actsWhen_of (fun _ => rfl) (fun s h => relay_taken h) (fun s h => relay_untaken h)
  case msg =>
    refine fun p => actsWhen_of (fun _ => rfl) (fun s h => msg_taken h) (fun s h => msg_untaken h)
  case noCmd => exact fun p s h => congrArg Host.Outcome.next (cmdPacket_untaken p s h)
  case reply =>
    intro p s h hb hrole
    have hreply := cmdPacket_reply h hb hrole
    refine ⟨fun t rs hrs => congrArg Host.Outcome.next (hreply.trans ?_), fun hnone => congrArg Host.Outcome.next (hreply.trans ?_)⟩
    · simp [hrs]
    · rw [List.find?_eq_none.2 (by simpa using hnone)]
      rfl
  case request =>
    intro p s h hb hrole
    obtain ⟨hnone, hsome⟩ := cmdPacket_request h hb hrole
    refine ⟨_, rfl, hnone, fun bs hbs => ?_⟩
    rw [hsome bs hbs]
    exact sendPacket_sent_last _ _ _ _ _

end Sys2Proof.Machine

/-! The rows of the flash behind the memory port: window fills, the ends of programs, erases and reads, time limits and the boot scan
(R408, R411, R412, R415, R419-R421, R425). That a program clears bits is log 6, that erased flash reads 0xFF is log 5, where and how
a program is cut short is log 3, and the line that a fill goes on to is log 27. -/

namespace Sys2Proof.Machine
open Sys2Proof Sys2Proof.Safety

/-! ### What a program and an erase leave in flash -/

theorem readFlash_length (s : State) (a n : Nat) : (readFlash s a n).length = n := Memory.readN_length _ _ _

/-- A program leaves in its range the bits that were set and are set in its bytes, and nothing changes outside (R411, log 6). -/
theorem read_programFlash {a : Nat} {bs : List Byte} {s : State} (hwf : Memory.wf erased s.mem.flash = true) (x : Nat) :
    Memory.read erased (programFlash a bs s).mem.flash x =
      if a ≤ x ∧ x < a + bs.length then Memory.read erased s.mem.flash x &&& bs.getD (x - a) erased
      else Memory.read erased s.mem.flash x := by
  have hlen : (((readFlash s a bs.length).zip bs).map (fun (o, b) => o &&& b)).length = bs.length := by
    simp [readFlash_length]
  simp only [programFlash]
  rw [Memory.read_writeN hwf, hlen]
  refine if_ctx_congr Iff.rfl (fun ⟨hlo, hhi⟩ => ?_) (fun _ => rfl)
  obtain ⟨j, rfl⟩ := Nat.exists_eq_add_of_le hlo
  have hj : j < bs.length := by omega
  have hold := Memory.readN_getD (d := erased) s.mem.flash a bs.length j erased hj
  rw [← hold, Nat.add_sub_cancel_left]
  simp [List.getD_eq_getElem?_getD, readFlash, hj]

/-! ### A program that is cut short -/

theorem freeBytes_draws (n : Nat) (s : State) :
    (freeBytes n s).1.length = n ∧ ∃ k, (freeBytes n s).2 = { s with freeCtr := k } := by
  induction n generalizing s with
  | zero => exact ⟨rfl, _, rfl⟩
  | succ n ih =>
    obtain ⟨hlen, k, hk⟩ := ih (fresh s).2
    exact ⟨congrArg (· + 1) hlen, k, hk⟩

/-- The bytes of a program that is cut short in page `k`: the pages before it, some of its bits, and none after (R411, log 3). -/
def cutBytes (page into k : Nat) (data fs : List Byte) : List Byte :=
  (data.zip fs).mapIdx (fun j (d, f) =>
    if (into + j) / page < k then d else if (into + j) / page == k then d ||| f else erased)

theorem cutBytes_length {page into k : Nat} {data fs : List Byte} (h : fs.length = data.length) :
    (cutBytes page into k data fs).length = data.length := by
  simp [cutBytes, h]

/-- A program that is cut short clears no bit that the whole program would not clear. -/
theorem cutBytes_clears_less {page into k j : Nat} {data fs : List Byte} (h : fs.length = data.length) (hj : j < data.length) :
    (cutBytes page into k data fs).getD j erased &&& data.getD j erased = data.getD j erased := by
  simp only [cutBytes, List.getD_eq_getElem?_getD, List.getElem?_mapIdx]
  rw [List.getElem?_eq_getElem hj, List.getElem?_eq_getElem (by simp [h, hj])]
  simp only [List.getElem_zip, Option.map_some, Option.getD_some]
  split_ifs
  · exact BitVec.and_self
  · ext i
    simp +contextual
  · exact BitVec.allOnes_and

/-- Of a byte, a part of the program leaves at least the bits that the program leaves. -/
theorem and_of_clears_less (old : Byte) {cut d : Byte} (h : cut &&& d = d) :
    old &&& cut &&& old = old &&& cut ∧ old &&& cut &&& (old &&& d) = old &&& d := by
  refine ⟨by ac_rfl, ?_⟩
  calc old &&& cut &&& (old &&& d) = old &&& (cut &&& d) := by ac_rfl
    _ = old &&& d := by rw [h]

/-- The state after an operation's bytes are programmed and its lines dropped (R411). -/
def programmed (o : FlashOp) (bs : List Byte) (s : State) : State :=
  { programFlash o.addr bs s with mem := dropLines o.addr o.len (programFlash o.addr bs s).mem }

/-- A page of the profile in force. -/
def pageOf (s : State) : Nat := max 1 (leAt s.flashProfile 6 2)

/-- The page in which a program is cut short: one of its pages, left open (log 3). -/
def cutPage (o : FlashOp) (s : State) : Nat :=
  (fresh s).1.toNat % max 1 (ceilDiv (o.addr % pageOf s + o.data.length) (pageOf s))

theorem cutProgram_programs (s : State) (o : FlashOp) (hop : s.mem.op = some o) (hrun : o.running = true) (hkind : o.kind = 1) :
    ∃ n fs, fs.length = o.data.length ∧ cutProgram s =
      programmed o (cutBytes (pageOf s) (o.addr % pageOf s) (cutPage o s) o.data fs) { s with freeCtr := n } := by
  obtain ⟨hlen, n, hn⟩ := freeBytes_draws o.data.length (fresh s).2
  refine ⟨n, _, hlen, ?_⟩
  calc cutProgram s
      = programmed o (cutBytes (pageOf s) (o.addr % pageOf s) (cutPage o s) o.data (freeBytes o.data.length (fresh s).2).1)
          (freeBytes o.data.length (fresh s).2).2 := by
        unfold cutProgram
        rw [hop]
        exact if_pos (by simp [hrun, hkind])
    _ = _ := by
        rw [hn]
        rfl

/-- Only a program is cut short. -/
theorem cutProgram_of_erase (s : State) (o : FlashOp) (hop : s.mem.op = some o) (hkind : o.kind = 2) : cutProgram s = s := by
  unfold cutProgram
  rw [hop]
  exact if_neg (by simp [hkind])

/-! ### Time limits -/

theorem reportsOnly.mem {s t : State} (h : reportsOnly s t) : t.mem = s.mem := by rw [h]

@[simp] theorem raise_faults (p : Port) (s : State) : (raise p s).chan.faults = s.chan.faults := by rw [raise_frame]

theorem cause_faults (p : Port) (f : PortSt → PortSt) (s : State) : (cause p f s).chan.faults = s.chan.faults := by
  rw [cause, raise_faults]
  cases p <;> rfl

/-- A fault that is latched stands in the summary, and the others stay (R336). -/
theorem latchFault_faults (k : Nat) (s : State) : (latchFault k s).chan.faults = setBit s.chan.faults k true := by
  simp only [latchFault, cause_faults]
  rfl

theorem completeOpt_faults (t : Option Nat) (err : Nat) (comp : List Byte) (s : State) :
    (completeOpt t err comp s).chan.faults = s.chan.faults := by
  cases t with
  | none => rfl
  | some t =>
    simp only [completeOpt, completeTag]
    split
    · rfl
    · split
      · rfl
      · exact raise_faults _ _

/-- What waits for an operation of a host, of the spill, of the ledger or of the intent area is its tag alone. -/
theorem timeoutEnds_of_lt {o : FlashOp} (h : o.who < 4) (s : State) : timeoutEnds o s = completeOpt o.tag 0x0E [] s := by
  unfold timeoutEnds
  split
  next hwho => omega
  next hwho => omega
  next hwho => omega
  next => rfl

/-- An operation that timed out has left the port; an erase's range stays fenced, and the fault summary says so (R420). -/
def timedOut (o : FlashOp) (s : State) : State :=
  let t := opLeaves o { cutProgram s with mem.timeouts := satAdd 65535 s.mem.timeouts 1 }
  if o.kind == 2 then
    latchFault 10 { t with mem.fences := t.mem.fences.map (fun f => if f.base == o.addr then { f with held := true } else f) }
  else t

theorem timedOut_waiting (o : FlashOp) (s : State) : (timedOut o s).mem.waiting = (cutProgram s).mem.waiting := by
  unfold timedOut
  dsimp only
  split
  · rw [(reportsOnly_latchFault 10 _).mem]
    rfl
  · rfl

theorem timedOut_of_erase (s : State) (o : FlashOp) (hop : s.mem.op = some o) (hkind : o.kind = 2) :
    timedOut o s =
      let t := opLeaves o { s with mem.timeouts := min 65535 (s.mem.timeouts + 1) }
      latchFault 10 { t with mem.fences := t.mem.fences.map (fun f => if f.base = o.addr then { f with held := true } else f) } := by
  simp [timedOut, cutProgram_of_erase s o hop hkind, hkind, satAdd]

theorem exec_flashTimeout (s : State) (o : FlashOp) (hop : s.mem.op = some o) (hrun : o.running = true) (hwho : o.who < 4)
    (hsusp : s.mem.susp = false) (hwait : (cutProgram s).mem.waiting = []) :
    exec .flashTimeout s = .next (completeOpt o.tag 0x0E [] (timedOut o s)) := by
  have hends : (timeoutEnds o (timedOut o s)).mem.waiting = [] := by
    rw [timeoutEnds_of_lt hwho, (reportsOnly_completeOpt _ _ _ _).mem, timedOut_waiting, hwait]
  have hlast : execFlashTimeout s = .next (match (timeoutEnds o (timedOut o s)).mem.waiting with
      | [] => timeoutEnds o (timedOut o s)
      | _ => nextOp (timeoutEnds o (timedOut o s))) := by
    unfold execFlashTimeout
    rw [hop]
    exact congrArg Host.Outcome.next (if_pos (by simp [hrun, hsusp]))
  rw [hends, timeoutEnds_of_lt hwho] at hlast
  exact hlast

/-! ### Read transfers -/

/-- A read's end puts its bytes down for the post-pass where it succeeded (R266). -/
theorem xferEnds_of_read {s : State} {x : MemXfer} (hx : s.mem.xfer = some x) (hw : x.write = false) (r : Nat) :
    xferEnds r s = { s with
      mem.xfer := none
      mem.toRoom := if r = 0 then s.mem.toRoom ++ [(x.ctx, x.room, Memory.readN 0xFF s.mem.flash x.flash x.len)]
        else s.mem.toRoom }.modRun x.ctx (fun c => { c with poll := r }) := by
  unfold xferEnds
  rw [hx]
  by_cases hr : r = 0 <;> simp [hw, hr, readFlash, erased]

/-! ### The rows -/

/-- Settles O50: a program and an erase by what the memory reads as after them; a cut program is the program of other bytes, and
each row opens with one test of the operation under way. -/
theorem flashRows : Obligations.FlashRows := by
  refine ⟨?fill, ?resume, ?programEnds, ?program, ?eraseEnds, ?nothing, ?erase, ?programLate, ?cut, ?eraseLate, ?read, ?noRead,
    ?readError, ?scan⟩
  case fill =>
    intro addr a s hfill ha
    refine congrArg Host.Outcome.next ?_
    rw [hfill]
    exact if_pos (by simpa using ha)
  case resume => exact fun s => rfl
  case programEnds =>
    intro s o hop hrun hkind hsusp hbar
    refine congrArg Host.Outcome.next ?_
    rw [hop]
    refine (if_pos (by simp [hrun, hkind, hsusp, hbar])).trans ?_
    simp only [Bool.and_eq_true, beq_iff_eq, List.isEmpty_iff]
  case program => exact fun a bs s hwf => ⟨Memory.wf_writeN hwf, read_programFlash hwf⟩
  case eraseEnds =>
    intro s o hop hrun hkind hsusp hbar
    refine congrArg Host.Outcome.next ?_
    rw [hop]
    exact if_pos (by simp [hrun, hkind, hsusp, hbar])
  case nothing =>
    intro s h
    have hsusp : ∀ o, s.mem.op = some o → s.mem.susp = true := fun o hop => h.resolve_left (by simp [hop])
    refine ⟨congrArg Host.Outcome.next ?_, congrArg Host.Outcome.next ?_, congrArg Host.Outcome.next ?_⟩ <;>
      cases hop : s.mem.op with
      | none => rfl
      | some o => exact if_neg (by simp [hsusp o hop])
  case erase => exact fun a n s hwf => ⟨Memory.wf_blank hwf, fun x => Memory.read_blank hwf⟩
  case programLate =>
    intro s o hop hrun hkind hwho hsusp hwait
    obtain ⟨n, fs, -, hcut⟩ := cutProgram_programs s o hop hrun hkind
    have hlate : timedOut o s = opLeaves o { cutProgram s with mem.timeouts := min 65535 (s.mem.timeouts + 1) } := by
      simp [timedOut, hkind, satAdd]
    rw [exec_flashTimeout s o hop hrun hwho hsusp (by rw [hcut]; exact hwait), hlate]
  case cut =>
    intro s o hop hrun hkind hwf
    obtain ⟨n, fs, hfs, hcut⟩ := cutProgram_programs s o hop hrun hkind
    have hread := read_programFlash (a := o.addr) (bs := cutBytes (pageOf s) (o.addr % pageOf s) (cutPage o s) o.data fs)
      (s := { s with freeCtr := n }) hwf
    rw [cutBytes_length hfs] at hread
    rw [hcut]
    refine ⟨Memory.wf_writeN hwf, fun x hx => ?_, fun x hlo hhi => ?_⟩
    · exact (hread x).trans (if_neg (by omega))
    · have hnew := (hread x).trans (if_pos ⟨hlo, hhi⟩)
      have hless := cutBytes_clears_less (page := pageOf s) (into := o.addr % pageOf s) (k := cutPage o s) hfs
        (show x - o.addr < o.data.length by omega)
      exact hnew ▸ and_of_clears_less _ hless
  case eraseLate =>
    intro s o hop hrun hkind hwho hsusp hwait
    have hcut := cutProgram_of_erase s o hop hkind
    have hmem := fun t => ((reportsOnly_latchFault 10 t).trans (reportsOnly_completeOpt o.tag 0x0E [] _)).mem
    refine ⟨_, exec_flashTimeout s o hop hrun hwho hsusp (by rw [hcut]; exact hwait), ?_⟩
    rw [timedOut_of_erase s o hop hkind, completeOpt_faults, latchFault_faults, hmem]
    exact ⟨rfl, rfl, rfl, rfl, rfl⟩
  case read =>
    intro s x bad hx hw
    refine congrArg Host.Outcome.next ?_
    rw [hx]
    refine (if_neg (by simp [hw])).trans ?_
    generalize (if s.fenced x.flash x.len then 3 else if bad || s.barred [0] then 2 else 0) = r
    simp only [xferEnds_of_read hx hw]
  case noRead =>
    intro s bad hx
    refine congrArg Host.Outcome.next ?_
    rw [hx]
  case readError =>
    intro s addr hprof hddr
    refine congrArg Host.Outcome.next ((if_neg ?_).trans (if_pos rfl))
    simp [hprof, bit_eq_testBit, hddr]
  case scan => exact actsWhen_if _ (fun _ => rfl) (fun s => by simp [and_assoc, Option.isSome_iff_ne_none])

end Sys2Proof.Machine
